-- ==== Sys2Proof/Word.lean ====
section
/-! DEFINITION. The word types of the machine: GRLEN = 64 (10_state.md R20), register numbers, and the small widths
that the spec treats as bits. -/

namespace Sys2Proof

/-- A general register, the program counter, a GRLEN-wide CSR (10_state.md R20, R23). -/
abbrev Word := BitVec 64

/-- The number of a general register, `r0` to `r31` (10_state.md R20). -/
abbrev Reg := BitVec 5

/-- The number of a floating-point register, `f0` to `f31` (10_state.md R25). -/
abbrev FReg := BitVec 5

/-- The number of a condition flag register, `fcc0` to `fcc7` (10_state.md R28). -/
abbrev CReg := BitVec 3

/-- One byte of memory (20_memory.md R200). -/
abbrev Byte := BitVec 8

end Sys2Proof
end

