-- ==== Sys2Proof/Syntax.lean ====
section
/-! DEFINITION. The abstract syntax: one constructor of `Instr` per row of spec/opcode_table.json (399 rows), with
the operand fields of its encoding (30_encoding.md R302 to R315).  A register operand is its number, an immediate is
the raw field; scaling and extension belong to the meanings. -/

namespace Sys2Proof

/-- The instructions of LoongArch Volume 1 V1.10.  Each docstring names the mnemonic and the rule of spec/ that gives
its meaning. -/
inductive Instr where
  /-- `clo.w`, R420. -/
  | cloW (rd : Reg) (rj : Reg)
  /-- `clz.w`, R421. -/
  | clzW (rd : Reg) (rj : Reg)
  /-- `cto.w`, R422. -/
  | ctoW (rd : Reg) (rj : Reg)
  /-- `ctz.w`, R423. -/
  | ctzW (rd : Reg) (rj : Reg)
  /-- `clo.d`, R424. -/
  | cloD (rd : Reg) (rj : Reg)
  /-- `clz.d`, R425. -/
  | clzD (rd : Reg) (rj : Reg)
  /-- `cto.d`, R426. -/
  | ctoD (rd : Reg) (rj : Reg)
  /-- `ctz.d`, R427. -/
  | ctzD (rd : Reg) (rj : Reg)
  /-- `revb.2h`, R430. -/
  | revb2H (rd : Reg) (rj : Reg)
  /-- `revb.4h`, R431. -/
  | revb4H (rd : Reg) (rj : Reg)
  /-- `revb.2w`, R432. -/
  | revb2W (rd : Reg) (rj : Reg)
  /-- `revb.d`, R433. -/
  | revbD (rd : Reg) (rj : Reg)
  /-- `revh.2w`, R434. -/
  | revh2W (rd : Reg) (rj : Reg)
  /-- `revh.d`, R435. -/
  | revhD (rd : Reg) (rj : Reg)
  /-- `bitrev.4b`, R436. -/
  | bitrev4B (rd : Reg) (rj : Reg)
  /-- `bitrev.8b`, R437. -/
  | bitrev8B (rd : Reg) (rj : Reg)
  /-- `bitrev.w`, R438. -/
  | bitrevW (rd : Reg) (rj : Reg)
  /-- `bitrev.d`, R439. -/
  | bitrevD (rd : Reg) (rj : Reg)
  /-- `ext.w.h`, R419. -/
  | extWH (rd : Reg) (rj : Reg)
  /-- `ext.w.b`, R418. -/
  | extWB (rd : Reg) (rj : Reg)
  /-- `rdtimel.w`, R612. -/
  | rdtimelW (rd : Reg) (rj : Reg)
  /-- `rdtimeh.w`, R613. -/
  | rdtimehW (rd : Reg) (rj : Reg)
  /-- `rdtime.d`, R614. -/
  | rdtimeD (rd : Reg) (rj : Reg)
  /-- `cpucfg`, R616. -/
  | cpucfg (rd : Reg) (rj : Reg)
  /-- `asrtle.d`, R611. -/
  | asrtleD (rj : Reg) (rk : Reg)
  /-- `asrtgt.d`, R617. -/
  | asrtgtD (rj : Reg) (rk : Reg)
  /-- `alsl.w`, R348. -/
  | alslW (rd : Reg) (rj : Reg) (rk : Reg) (sa2 : BitVec 2)
  /-- `alsl.wu`, R349. -/
  | alslWu (rd : Reg) (rj : Reg) (rk : Reg) (sa2 : BitVec 2)
  /-- `bytepick.w`, R428. -/
  | bytepickW (rd : Reg) (rj : Reg) (rk : Reg) (sa2 : BitVec 2)
  /-- `bytepick.d`, R429. -/
  | bytepickD (rd : Reg) (rj : Reg) (rk : Reg) (sa3 : BitVec 3)
  /-- `add.w`, R341. -/
  | addW (rd : Reg) (rj : Reg) (rk : Reg)
  /-- `add.d`, R342. -/
  | addD (rd : Reg) (rj : Reg) (rk : Reg)
  /-- `sub.w`, R343. -/
  | subW (rd : Reg) (rj : Reg) (rk : Reg)
  /-- `sub.d`, R344. -/
  | subD (rd : Reg) (rj : Reg) (rk : Reg)
  /-- `slt`, R354. -/
  | slt (rd : Reg) (rj : Reg) (rk : Reg)
  /-- `sltu`, R355. -/
  | sltu (rd : Reg) (rj : Reg) (rk : Reg)
  /-- `maskeqz`, R445. -/
  | maskeqz (rd : Reg) (rj : Reg) (rk : Reg)
  /-- `masknez`, R446. -/
  | masknez (rd : Reg) (rj : Reg) (rk : Reg)
  /-- `nor`, R364. -/
  | nor (rd : Reg) (rj : Reg) (rk : Reg)
  /-- `and`, R362. -/
  | and (rd : Reg) (rj : Reg) (rk : Reg)
  /-- `or`, R363. -/
  | or (rd : Reg) (rj : Reg) (rk : Reg)
  /-- `xor`, R365. -/
  | xor (rd : Reg) (rj : Reg) (rk : Reg)
  /-- `orn`, R367. -/
  | orn (rd : Reg) (rj : Reg) (rk : Reg)
  /-- `andn`, R366. -/
  | andn (rd : Reg) (rj : Reg) (rk : Reg)
  /-- `sll.w`, R402. -/
  | sllW (rd : Reg) (rj : Reg) (rk : Reg)
  /-- `srl.w`, R403. -/
  | srlW (rd : Reg) (rj : Reg) (rk : Reg)
  /-- `sra.w`, R404. -/
  | sraW (rd : Reg) (rj : Reg) (rk : Reg)
  /-- `sll.d`, R410. -/
  | sllD (rd : Reg) (rj : Reg) (rk : Reg)
  /-- `srl.d`, R411. -/
  | srlD (rd : Reg) (rj : Reg) (rk : Reg)
  /-- `sra.d`, R412. -/
  | sraD (rd : Reg) (rj : Reg) (rk : Reg)
  /-- `rotr.w`, R405. -/
  | rotrW (rd : Reg) (rj : Reg) (rk : Reg)
  /-- `rotr.d`, R413. -/
  | rotrD (rd : Reg) (rj : Reg) (rk : Reg)
  /-- `mul.w`, R372. -/
  | mulW (rd : Reg) (rj : Reg) (rk : Reg)
  /-- `mulh.w`, R373. -/
  | mulhW (rd : Reg) (rj : Reg) (rk : Reg)
  /-- `mulh.wu`, R374. -/
  | mulhWu (rd : Reg) (rj : Reg) (rk : Reg)
  /-- `mul.d`, R375. -/
  | mulD (rd : Reg) (rj : Reg) (rk : Reg)
  /-- `mulh.d`, R376. -/
  | mulhD (rd : Reg) (rj : Reg) (rk : Reg)
  /-- `mulh.du`, R377. -/
  | mulhDu (rd : Reg) (rj : Reg) (rk : Reg)
  /-- `mulw.d.w`, R378. -/
  | mulwDW (rd : Reg) (rj : Reg) (rk : Reg)
  /-- `mulw.d.wu`, R379. -/
  | mulwDWu (rd : Reg) (rj : Reg) (rk : Reg)
  /-- `div.w`, R381. -/
  | divW (rd : Reg) (rj : Reg) (rk : Reg)
  /-- `mod.w`, R382. -/
  | modW (rd : Reg) (rj : Reg) (rk : Reg)
  /-- `div.wu`, R383. -/
  | divWu (rd : Reg) (rj : Reg) (rk : Reg)
  /-- `mod.wu`, R384. -/
  | modWu (rd : Reg) (rj : Reg) (rk : Reg)
  /-- `div.d`, R385. -/
  | divD (rd : Reg) (rj : Reg) (rk : Reg)
  /-- `mod.d`, R386. -/
  | modD (rd : Reg) (rj : Reg) (rk : Reg)
  /-- `div.du`, R387. -/
  | divDu (rd : Reg) (rj : Reg) (rk : Reg)
  /-- `mod.du`, R388. -/
  | modDu (rd : Reg) (rj : Reg) (rk : Reg)
  /-- `crc.w.b.w`, R601. -/
  | crcWBW (rd : Reg) (rj : Reg) (rk : Reg)
  /-- `crc.w.h.w`, R602. -/
  | crcWHW (rd : Reg) (rj : Reg) (rk : Reg)
  /-- `crc.w.w.w`, R603. -/
  | crcWWW (rd : Reg) (rj : Reg) (rk : Reg)
  /-- `crc.w.d.w`, R604. -/
  | crcWDW (rd : Reg) (rj : Reg) (rk : Reg)
  /-- `crcc.w.b.w`, R605. -/
  | crccWBW (rd : Reg) (rj : Reg) (rk : Reg)
  /-- `crcc.w.h.w`, R606. -/
  | crccWHW (rd : Reg) (rj : Reg) (rk : Reg)
  /-- `crcc.w.w.w`, R607. -/
  | crccWWW (rd : Reg) (rj : Reg) (rk : Reg)
  /-- `crcc.w.d.w`, R608. -/
  | crccWDW (rd : Reg) (rj : Reg) (rk : Reg)
  /-- `break`, R610. -/
  | brk (code : BitVec 15)
  /-- `dbcl`, R848. -/
  | dbcl (code : BitVec 15)
  /-- `syscall`, R609. -/
  | syscall (code : BitVec 15)
  /-- `alsl.d`, R350. -/
  | alslD (rd : Reg) (rj : Reg) (rk : Reg) (sa2 : BitVec 2)
  /-- `slli.w`, R406. -/
  | slliW (rd : Reg) (rj : Reg) (ui5 : BitVec 5)
  /-- `slli.d`, R414. -/
  | slliD (rd : Reg) (rj : Reg) (ui6 : BitVec 6)
  /-- `srli.w`, R407. -/
  | srliW (rd : Reg) (rj : Reg) (ui5 : BitVec 5)
  /-- `srli.d`, R415. -/
  | srliD (rd : Reg) (rj : Reg) (ui6 : BitVec 6)
  /-- `srai.w`, R408. -/
  | sraiW (rd : Reg) (rj : Reg) (ui5 : BitVec 5)
  /-- `srai.d`, R416. -/
  | sraiD (rd : Reg) (rj : Reg) (ui6 : BitVec 6)
  /-- `rotri.w`, R409. -/
  | rotriW (rd : Reg) (rj : Reg) (ui5 : BitVec 5)
  /-- `rotri.d`, R417. -/
  | rotriD (rd : Reg) (rj : Reg) (ui6 : BitVec 6)
  /-- `bstrins.w`, R441. -/
  | bstrinsW (rd : Reg) (rj : Reg) (msbw : BitVec 5) (lsbw : BitVec 5)
  /-- `bstrpick.w`, R443. -/
  | bstrpickW (rd : Reg) (rj : Reg) (msbw : BitVec 5) (lsbw : BitVec 5)
  /-- `bstrins.d`, R442. -/
  | bstrinsD (rd : Reg) (rj : Reg) (msbd : BitVec 6) (lsbd : BitVec 6)
  /-- `bstrpick.d`, R444. -/
  | bstrpickD (rd : Reg) (rj : Reg) (msbd : BitVec 6) (lsbd : BitVec 6)
  /-- `fadd.s`, R636. -/
  | faddS (fd : FReg) (fj : FReg) (fk : FReg)
  /-- `fadd.d`, R637. -/
  | faddD (fd : FReg) (fj : FReg) (fk : FReg)
  /-- `fsub.s`, R638. -/
  | fsubS (fd : FReg) (fj : FReg) (fk : FReg)
  /-- `fsub.d`, R639. -/
  | fsubD (fd : FReg) (fj : FReg) (fk : FReg)
  /-- `fmul.s`, R640. -/
  | fmulS (fd : FReg) (fj : FReg) (fk : FReg)
  /-- `fmul.d`, R641. -/
  | fmulD (fd : FReg) (fj : FReg) (fk : FReg)
  /-- `fdiv.s`, R642. -/
  | fdivS (fd : FReg) (fj : FReg) (fk : FReg)
  /-- `fdiv.d`, R643. -/
  | fdivD (fd : FReg) (fj : FReg) (fk : FReg)
  /-- `fmax.s`, R655. -/
  | fmaxS (fd : FReg) (fj : FReg) (fk : FReg)
  /-- `fmax.d`, R656. -/
  | fmaxD (fd : FReg) (fj : FReg) (fk : FReg)
  /-- `fmin.s`, R657. -/
  | fminS (fd : FReg) (fj : FReg) (fk : FReg)
  /-- `fmin.d`, R658. -/
  | fminD (fd : FReg) (fj : FReg) (fk : FReg)
  /-- `fmaxa.s`, R659. -/
  | fmaxaS (fd : FReg) (fj : FReg) (fk : FReg)
  /-- `fmaxa.d`, R660. -/
  | fmaxaD (fd : FReg) (fj : FReg) (fk : FReg)
  /-- `fmina.s`, R661. -/
  | fminaS (fd : FReg) (fj : FReg) (fk : FReg)
  /-- `fmina.d`, R662. -/
  | fminaD (fd : FReg) (fj : FReg) (fk : FReg)
  /-- `fscaleb.s`, R685. -/
  | fscalebS (fd : FReg) (fj : FReg) (fk : FReg)
  /-- `fscaleb.d`, R686. -/
  | fscalebD (fd : FReg) (fj : FReg) (fk : FReg)
  /-- `fcopysign.s`, R667. -/
  | fcopysignS (fd : FReg) (fj : FReg) (fk : FReg)
  /-- `fcopysign.d`, R668. -/
  | fcopysignD (fd : FReg) (fj : FReg) (fk : FReg)
  /-- `fabs.s`, R663. -/
  | fabsS (fd : FReg) (fj : FReg)
  /-- `fabs.d`, R664. -/
  | fabsD (fd : FReg) (fj : FReg)
  /-- `fneg.s`, R665. -/
  | fnegS (fd : FReg) (fj : FReg)
  /-- `fneg.d`, R666. -/
  | fnegD (fd : FReg) (fj : FReg)
  /-- `flogb.s`, R687. -/
  | flogbS (fd : FReg) (fj : FReg)
  /-- `flogb.d`, R688. -/
  | flogbD (fd : FReg) (fj : FReg)
  /-- `fclass.s`, R670. -/
  | fclassS (fd : FReg) (fj : FReg)
  /-- `fclass.d`, R671. -/
  | fclassD (fd : FReg) (fj : FReg)
  /-- `fsqrt.s`, R672. -/
  | fsqrtS (fd : FReg) (fj : FReg)
  /-- `fsqrt.d`, R673. -/
  | fsqrtD (fd : FReg) (fj : FReg)
  /-- `frecip.s`, R674. -/
  | frecipS (fd : FReg) (fj : FReg)
  /-- `frecip.d`, R675. -/
  | frecipD (fd : FReg) (fj : FReg)
  /-- `frsqrt.s`, R676. -/
  | frsqrtS (fd : FReg) (fj : FReg)
  /-- `frsqrt.d`, R677. -/
  | frsqrtD (fd : FReg) (fj : FReg)
  /-- `frecipe.s`, R681. -/
  | frecipeS (fd : FReg) (fj : FReg)
  /-- `frecipe.d`, R682. -/
  | frecipeD (fd : FReg) (fj : FReg)
  /-- `frsqrte.s`, R683. -/
  | frsqrteS (fd : FReg) (fj : FReg)
  /-- `frsqrte.d`, R684. -/
  | frsqrteD (fd : FReg) (fj : FReg)
  /-- `fmov.s`, R761. -/
  | fmovS (fd : FReg) (fj : FReg)
  /-- `fmov.d`, R762. -/
  | fmovD (fd : FReg) (fj : FReg)
  /-- `movgr2fr.w`, R769. -/
  | movgr2frW (fd : FReg) (rj : Reg)
  /-- `movgr2fr.d`, R770. -/
  | movgr2frD (fd : FReg) (rj : Reg)
  /-- `movgr2frh.w`, R771. -/
  | movgr2frhW (fd : FReg) (rj : Reg)
  /-- `movfr2gr.s`, R772. -/
  | movfr2grS (rd : Reg) (fj : FReg)
  /-- `movfr2gr.d`, R773. -/
  | movfr2grD (rd : Reg) (fj : FReg)
  /-- `movfrh2gr.s`, R774. -/
  | movfrh2grS (rd : Reg) (fj : FReg)
  /-- `movgr2fcsr`, R775. -/
  | movgr2fcsr (fcsr : BitVec 5) (rj : Reg)
  /-- `movfcsr2gr`, R776. -/
  | movfcsr2gr (rd : Reg) (fcsr : BitVec 5)
  /-- `movfr2cf`, R777. -/
  | movfr2cf (cd : CReg) (fj : FReg)
  /-- `movcf2fr`, R778. -/
  | movcf2fr (fd : FReg) (cj : CReg)
  /-- `movgr2cf`, R779. -/
  | movgr2cf (cd : CReg) (rj : Reg)
  /-- `movcf2gr`, R780. -/
  | movcf2gr (rd : Reg) (cj : CReg)
  /-- `fcvt.s.d`, R724. -/
  | fcvtSD (fd : FReg) (fj : FReg)
  /-- `fcvt.d.s`, R725. -/
  | fcvtDS (fd : FReg) (fj : FReg)
  /-- `ftintrm.w.s`, R736. -/
  | ftintrmWS (fd : FReg) (fj : FReg)
  /-- `ftintrm.w.d`, R737. -/
  | ftintrmWD (fd : FReg) (fj : FReg)
  /-- `ftintrm.l.s`, R738. -/
  | ftintrmLS (fd : FReg) (fj : FReg)
  /-- `ftintrm.l.d`, R739. -/
  | ftintrmLD (fd : FReg) (fj : FReg)
  /-- `ftintrp.w.s`, R740. -/
  | ftintrpWS (fd : FReg) (fj : FReg)
  /-- `ftintrp.w.d`, R741. -/
  | ftintrpWD (fd : FReg) (fj : FReg)
  /-- `ftintrp.l.s`, R742. -/
  | ftintrpLS (fd : FReg) (fj : FReg)
  /-- `ftintrp.l.d`, R743. -/
  | ftintrpLD (fd : FReg) (fj : FReg)
  /-- `ftintrz.w.s`, R744. -/
  | ftintrzWS (fd : FReg) (fj : FReg)
  /-- `ftintrz.w.d`, R745. -/
  | ftintrzWD (fd : FReg) (fj : FReg)
  /-- `ftintrz.l.s`, R746. -/
  | ftintrzLS (fd : FReg) (fj : FReg)
  /-- `ftintrz.l.d`, R747. -/
  | ftintrzLD (fd : FReg) (fj : FReg)
  /-- `ftintrne.w.s`, R748. -/
  | ftintrneWS (fd : FReg) (fj : FReg)
  /-- `ftintrne.w.d`, R749. -/
  | ftintrneWD (fd : FReg) (fj : FReg)
  /-- `ftintrne.l.s`, R750. -/
  | ftintrneLS (fd : FReg) (fj : FReg)
  /-- `ftintrne.l.d`, R751. -/
  | ftintrneLD (fd : FReg) (fj : FReg)
  /-- `ftint.w.s`, R732. -/
  | ftintWS (fd : FReg) (fj : FReg)
  /-- `ftint.w.d`, R733. -/
  | ftintWD (fd : FReg) (fj : FReg)
  /-- `ftint.l.s`, R734. -/
  | ftintLS (fd : FReg) (fj : FReg)
  /-- `ftint.l.d`, R735. -/
  | ftintLD (fd : FReg) (fj : FReg)
  /-- `ffint.s.w`, R727. -/
  | ffintSW (fd : FReg) (fj : FReg)
  /-- `ffint.s.l`, R728. -/
  | ffintSL (fd : FReg) (fj : FReg)
  /-- `ffint.d.w`, R729. -/
  | ffintDW (fd : FReg) (fj : FReg)
  /-- `ffint.d.l`, R730. -/
  | ffintDL (fd : FReg) (fj : FReg)
  /-- `frint.s`, R753. -/
  | frintS (fd : FReg) (fj : FReg)
  /-- `frint.d`, R754. -/
  | frintD (fd : FReg) (fj : FReg)
  /-- `slti`, R356. -/
  | slti (rd : Reg) (rj : Reg) (si12 : BitVec 12)
  /-- `sltui`, R357. -/
  | sltui (rd : Reg) (rj : Reg) (si12 : BitVec 12)
  /-- `addi.w`, R345. -/
  | addiW (rd : Reg) (rj : Reg) (si12 : BitVec 12)
  /-- `addi.d`, R346. -/
  | addiD (rd : Reg) (rj : Reg) (si12 : BitVec 12)
  /-- `lu52i.d`, R353. -/
  | lu52iD (rd : Reg) (rj : Reg) (si12 : BitVec 12)
  /-- `andi`, R368. -/
  | andi (rd : Reg) (rj : Reg) (ui12 : BitVec 12)
  /-- `ori`, R369. -/
  | ori (rd : Reg) (rj : Reg) (ui12 : BitVec 12)
  /-- `xori`, R370. -/
  | xori (rd : Reg) (rj : Reg) (ui12 : BitVec 12)
  /-- `csrrd`, R813. -/
  | csrrd (rd : Reg) (csr : BitVec 14)
  /-- `csrwr`, R814. -/
  | csrwr (rd : Reg) (csr : BitVec 14)
  /-- `csrxchg`, R815. -/
  | csrxchg (rd : Reg) (rj : Reg) (csr : BitVec 14)
  /-- `cacop`, R823. -/
  | cacop (op : BitVec 5) (rj : Reg) (si12 : BitVec 12)
  /-- `lddir`, R840. -/
  | lddir (rd : Reg) (rj : Reg) (level : BitVec 8)
  /-- `ldpte`, R841. -/
  | ldpte (rj : Reg) (seq : BitVec 8)
  /-- `iocsrrd.b`, R817. -/
  | iocsrrdB (rd : Reg) (rj : Reg)
  /-- `iocsrrd.h`, R818. -/
  | iocsrrdH (rd : Reg) (rj : Reg)
  /-- `iocsrrd.w`, R819. -/
  | iocsrrdW (rd : Reg) (rj : Reg)
  /-- `iocsrrd.d`, R820. -/
  | iocsrrdD (rd : Reg) (rj : Reg)
  /-- `iocsrwr.b`, R821. -/
  | iocsrwrB (rd : Reg) (rj : Reg)
  /-- `iocsrwr.h`, R822. -/
  | iocsrwrH (rd : Reg) (rj : Reg)
  /-- `iocsrwr.w`, R824. -/
  | iocsrwrW (rd : Reg) (rj : Reg)
  /-- `iocsrwr.d`, R825. -/
  | iocsrwrD (rd : Reg) (rj : Reg)
  /-- `tlbclr`, R835. -/
  | tlbclr
  /-- `tlbflush`, R836. -/
  | tlbflush
  /-- `tlbsrch`, R831. -/
  | tlbsrch
  /-- `tlbrd`, R832. -/
  | tlbrd
  /-- `tlbwr`, R834. -/
  | tlbwr
  /-- `tlbfill`, R833. -/
  | tlbfill
  /-- `ertn`, R845. -/
  | ertn
  /-- `idle`, R849. -/
  | idle (hint : BitVec 15)
  /-- `invtlb`, R838. -/
  | invtlb (op : BitVec 5) (rj : Reg) (rk : Reg)
  /-- `fmadd.s`, R645. -/
  | fmaddS (fd : FReg) (fj : FReg) (fk : FReg) (fa : FReg)
  /-- `fmadd.d`, R646. -/
  | fmaddD (fd : FReg) (fj : FReg) (fk : FReg) (fa : FReg)
  /-- `fmsub.s`, R647. -/
  | fmsubS (fd : FReg) (fj : FReg) (fk : FReg) (fa : FReg)
  /-- `fmsub.d`, R648. -/
  | fmsubD (fd : FReg) (fj : FReg) (fk : FReg) (fa : FReg)
  /-- `fnmadd.s`, R649. -/
  | fnmaddS (fd : FReg) (fj : FReg) (fk : FReg) (fa : FReg)
  /-- `fnmadd.d`, R650. -/
  | fnmaddD (fd : FReg) (fj : FReg) (fk : FReg) (fa : FReg)
  /-- `fnmsub.s`, R651. -/
  | fnmsubS (fd : FReg) (fj : FReg) (fk : FReg) (fa : FReg)
  /-- `fnmsub.d`, R652. -/
  | fnmsubD (fd : FReg) (fj : FReg) (fk : FReg) (fa : FReg)
  /-- `fcmp.caf.s`, R702. -/
  | fcmpCafS (cd : CReg) (fj : FReg) (fk : FReg)
  /-- `fcmp.saf.s`, R713. -/
  | fcmpSafS (cd : CReg) (fj : FReg) (fk : FReg)
  /-- `fcmp.clt.s`, R706. -/
  | fcmpCltS (cd : CReg) (fj : FReg) (fk : FReg)
  /-- `fcmp.slt.s`, R717. -/
  | fcmpSltS (cd : CReg) (fj : FReg) (fk : FReg)
  /-- `fcmp.ceq.s`, R704. -/
  | fcmpCeqS (cd : CReg) (fj : FReg) (fk : FReg)
  /-- `fcmp.seq.s`, R715. -/
  | fcmpSeqS (cd : CReg) (fj : FReg) (fk : FReg)
  /-- `fcmp.cle.s`, R708. -/
  | fcmpCleS (cd : CReg) (fj : FReg) (fk : FReg)
  /-- `fcmp.sle.s`, R719. -/
  | fcmpSleS (cd : CReg) (fj : FReg) (fk : FReg)
  /-- `fcmp.cun.s`, R703. -/
  | fcmpCunS (cd : CReg) (fj : FReg) (fk : FReg)
  /-- `fcmp.sun.s`, R714. -/
  | fcmpSunS (cd : CReg) (fj : FReg) (fk : FReg)
  /-- `fcmp.cult.s`, R707. -/
  | fcmpCultS (cd : CReg) (fj : FReg) (fk : FReg)
  /-- `fcmp.sult.s`, R718. -/
  | fcmpSultS (cd : CReg) (fj : FReg) (fk : FReg)
  /-- `fcmp.cueq.s`, R705. -/
  | fcmpCueqS (cd : CReg) (fj : FReg) (fk : FReg)
  /-- `fcmp.sueq.s`, R716. -/
  | fcmpSueqS (cd : CReg) (fj : FReg) (fk : FReg)
  /-- `fcmp.cule.s`, R709. -/
  | fcmpCuleS (cd : CReg) (fj : FReg) (fk : FReg)
  /-- `fcmp.sule.s`, R720. -/
  | fcmpSuleS (cd : CReg) (fj : FReg) (fk : FReg)
  /-- `fcmp.cne.s`, R710. -/
  | fcmpCneS (cd : CReg) (fj : FReg) (fk : FReg)
  /-- `fcmp.sne.s`, R721. -/
  | fcmpSneS (cd : CReg) (fj : FReg) (fk : FReg)
  /-- `fcmp.cor.s`, R711. -/
  | fcmpCorS (cd : CReg) (fj : FReg) (fk : FReg)
  /-- `fcmp.sor.s`, R722. -/
  | fcmpSorS (cd : CReg) (fj : FReg) (fk : FReg)
  /-- `fcmp.cune.s`, R712. -/
  | fcmpCuneS (cd : CReg) (fj : FReg) (fk : FReg)
  /-- `fcmp.sune.s`, R723. -/
  | fcmpSuneS (cd : CReg) (fj : FReg) (fk : FReg)
  /-- `fcmp.caf.d`, R976. -/
  | fcmpCafD (cd : CReg) (fj : FReg) (fk : FReg)
  /-- `fcmp.saf.d`, R987. -/
  | fcmpSafD (cd : CReg) (fj : FReg) (fk : FReg)
  /-- `fcmp.clt.d`, R980. -/
  | fcmpCltD (cd : CReg) (fj : FReg) (fk : FReg)
  /-- `fcmp.slt.d`, R991. -/
  | fcmpSltD (cd : CReg) (fj : FReg) (fk : FReg)
  /-- `fcmp.ceq.d`, R978. -/
  | fcmpCeqD (cd : CReg) (fj : FReg) (fk : FReg)
  /-- `fcmp.seq.d`, R989. -/
  | fcmpSeqD (cd : CReg) (fj : FReg) (fk : FReg)
  /-- `fcmp.cle.d`, R982. -/
  | fcmpCleD (cd : CReg) (fj : FReg) (fk : FReg)
  /-- `fcmp.sle.d`, R993. -/
  | fcmpSleD (cd : CReg) (fj : FReg) (fk : FReg)
  /-- `fcmp.cun.d`, R977. -/
  | fcmpCunD (cd : CReg) (fj : FReg) (fk : FReg)
  /-- `fcmp.sun.d`, R988. -/
  | fcmpSunD (cd : CReg) (fj : FReg) (fk : FReg)
  /-- `fcmp.cult.d`, R981. -/
  | fcmpCultD (cd : CReg) (fj : FReg) (fk : FReg)
  /-- `fcmp.sult.d`, R992. -/
  | fcmpSultD (cd : CReg) (fj : FReg) (fk : FReg)
  /-- `fcmp.cueq.d`, R979. -/
  | fcmpCueqD (cd : CReg) (fj : FReg) (fk : FReg)
  /-- `fcmp.sueq.d`, R990. -/
  | fcmpSueqD (cd : CReg) (fj : FReg) (fk : FReg)
  /-- `fcmp.cule.d`, R983. -/
  | fcmpCuleD (cd : CReg) (fj : FReg) (fk : FReg)
  /-- `fcmp.sule.d`, R994. -/
  | fcmpSuleD (cd : CReg) (fj : FReg) (fk : FReg)
  /-- `fcmp.cne.d`, R984. -/
  | fcmpCneD (cd : CReg) (fj : FReg) (fk : FReg)
  /-- `fcmp.sne.d`, R995. -/
  | fcmpSneD (cd : CReg) (fj : FReg) (fk : FReg)
  /-- `fcmp.cor.d`, R985. -/
  | fcmpCorD (cd : CReg) (fj : FReg) (fk : FReg)
  /-- `fcmp.sor.d`, R996. -/
  | fcmpSorD (cd : CReg) (fj : FReg) (fk : FReg)
  /-- `fcmp.cune.d`, R986. -/
  | fcmpCuneD (cd : CReg) (fj : FReg) (fk : FReg)
  /-- `fcmp.sune.d`, R997. -/
  | fcmpSuneD (cd : CReg) (fj : FReg) (fk : FReg)
  /-- `fsel`, R763. -/
  | fsel (fd : FReg) (fj : FReg) (fk : FReg) (ca : CReg)
  /-- `addu16i.d`, R347. -/
  | addu16iD (rd : Reg) (rj : Reg) (si16 : BitVec 16)
  /-- `lu12i.w`, R351. -/
  | lu12iW (rd : Reg) (si20 : BitVec 20)
  /-- `lu32i.d`, R352. -/
  | lu32iD (rd : Reg) (si20 : BitVec 20)
  /-- `pcaddi`, R358. -/
  | pcaddi (rd : Reg) (si20 : BitVec 20)
  /-- `pcalau12i`, R361. -/
  | pcalau12i (rd : Reg) (si20 : BitVec 20)
  /-- `pcaddu12i`, R359. -/
  | pcaddu12i (rd : Reg) (si20 : BitVec 20)
  /-- `pcaddu18i`, R360. -/
  | pcaddu18i (rd : Reg) (si20 : BitVec 20)
  /-- `ll.w`, R571. -/
  | llW (rd : Reg) (rj : Reg) (si14 : BitVec 14)
  /-- `sc.w`, R573. -/
  | scW (rd : Reg) (rj : Reg) (si14 : BitVec 14)
  /-- `ll.d`, R572. -/
  | llD (rd : Reg) (rj : Reg) (si14 : BitVec 14)
  /-- `sc.d`, R574. -/
  | scD (rd : Reg) (rj : Reg) (si14 : BitVec 14)
  /-- `ldptr.w`, R501. -/
  | ldptrW (rd : Reg) (rj : Reg) (si14 : BitVec 14)
  /-- `stptr.w`, R503. -/
  | stptrW (rd : Reg) (rj : Reg) (si14 : BitVec 14)
  /-- `ldptr.d`, R502. -/
  | ldptrD (rd : Reg) (rj : Reg) (si14 : BitVec 14)
  /-- `stptr.d`, R504. -/
  | stptrD (rd : Reg) (rj : Reg) (si14 : BitVec 14)
  /-- `ld.b`, R483. -/
  | ldB (rd : Reg) (rj : Reg) (si12 : BitVec 12)
  /-- `ld.h`, R484. -/
  | ldH (rd : Reg) (rj : Reg) (si12 : BitVec 12)
  /-- `ld.w`, R485. -/
  | ldW (rd : Reg) (rj : Reg) (si12 : BitVec 12)
  /-- `ld.d`, R486. -/
  | ldD (rd : Reg) (rj : Reg) (si12 : BitVec 12)
  /-- `st.b`, R490. -/
  | stB (rd : Reg) (rj : Reg) (si12 : BitVec 12)
  /-- `st.h`, R491. -/
  | stH (rd : Reg) (rj : Reg) (si12 : BitVec 12)
  /-- `st.w`, R492. -/
  | stW (rd : Reg) (rj : Reg) (si12 : BitVec 12)
  /-- `st.d`, R493. -/
  | stD (rd : Reg) (rj : Reg) (si12 : BitVec 12)
  /-- `ld.bu`, R487. -/
  | ldBu (rd : Reg) (rj : Reg) (si12 : BitVec 12)
  /-- `ld.hu`, R488. -/
  | ldHu (rd : Reg) (rj : Reg) (si12 : BitVec 12)
  /-- `ld.wu`, R489. -/
  | ldWu (rd : Reg) (rj : Reg) (si12 : BitVec 12)
  /-- `preld`, R510. -/
  | preld (hint : BitVec 5) (rj : Reg) (si12 : BitVec 12)
  /-- `fld.s`, R784. -/
  | fldS (fd : FReg) (rj : Reg) (si12 : BitVec 12)
  /-- `fst.s`, R786. -/
  | fstS (fd : FReg) (rj : Reg) (si12 : BitVec 12)
  /-- `fld.d`, R785. -/
  | fldD (fd : FReg) (rj : Reg) (si12 : BitVec 12)
  /-- `fst.d`, R787. -/
  | fstD (fd : FReg) (rj : Reg) (si12 : BitVec 12)
  /-- `ldx.b`, R494. -/
  | ldxB (rd : Reg) (rj : Reg) (rk : Reg)
  /-- `ldx.h`, R495. -/
  | ldxH (rd : Reg) (rj : Reg) (rk : Reg)
  /-- `ldx.w`, R496. -/
  | ldxW (rd : Reg) (rj : Reg) (rk : Reg)
  /-- `ldx.d`, R497. -/
  | ldxD (rd : Reg) (rj : Reg) (rk : Reg)
  /-- `stx.b`, R506. -/
  | stxB (rd : Reg) (rj : Reg) (rk : Reg)
  /-- `stx.h`, R507. -/
  | stxH (rd : Reg) (rj : Reg) (rk : Reg)
  /-- `stx.w`, R508. -/
  | stxW (rd : Reg) (rj : Reg) (rk : Reg)
  /-- `stx.d`, R509. -/
  | stxD (rd : Reg) (rj : Reg) (rk : Reg)
  /-- `ldx.bu`, R498. -/
  | ldxBu (rd : Reg) (rj : Reg) (rk : Reg)
  /-- `ldx.hu`, R499. -/
  | ldxHu (rd : Reg) (rj : Reg) (rk : Reg)
  /-- `ldx.wu`, R505. -/
  | ldxWu (rd : Reg) (rj : Reg) (rk : Reg)
  /-- `preldx`, R511. -/
  | preldx (hint : BitVec 5) (rj : Reg) (rk : Reg)
  /-- `fldx.s`, R788. -/
  | fldxS (fd : FReg) (rj : Reg) (rk : Reg)
  /-- `fldx.d`, R789. -/
  | fldxD (fd : FReg) (rj : Reg) (rk : Reg)
  /-- `fstx.s`, R790. -/
  | fstxS (fd : FReg) (rj : Reg) (rk : Reg)
  /-- `fstx.d`, R791. -/
  | fstxD (fd : FReg) (rj : Reg) (rk : Reg)
  /-- `sc.q`, R575. -/
  | scQ (rd : Reg) (rj : Reg) (rk : Reg)
  /-- `llacq.w`, R576. -/
  | llacqW (rd : Reg) (rj : Reg)
  /-- `screl.w`, R578. -/
  | screlW (rd : Reg) (rj : Reg)
  /-- `llacq.d`, R577. -/
  | llacqD (rd : Reg) (rj : Reg)
  /-- `screl.d`, R579. -/
  | screlD (rd : Reg) (rj : Reg)
  /-- `amcas.b`, R584. -/
  | amcasB (rd : Reg) (rj : Reg) (rk : Reg)
  /-- `amcas.h`, R585. -/
  | amcasH (rd : Reg) (rj : Reg) (rk : Reg)
  /-- `amcas.w`, R586. -/
  | amcasW (rd : Reg) (rj : Reg) (rk : Reg)
  /-- `amcas.d`, R587. -/
  | amcasD (rd : Reg) (rj : Reg) (rk : Reg)
  /-- `amcas_db.b`, R972. -/
  | amcasDbB (rd : Reg) (rj : Reg) (rk : Reg)
  /-- `amcas_db.h`, R973. -/
  | amcasDbH (rd : Reg) (rj : Reg) (rk : Reg)
  /-- `amcas_db.w`, R974. -/
  | amcasDbW (rd : Reg) (rj : Reg) (rk : Reg)
  /-- `amcas_db.d`, R975. -/
  | amcasDbD (rd : Reg) (rj : Reg) (rk : Reg)
  /-- `amswap.b`, R566. -/
  | amswapB (rd : Reg) (rj : Reg) (rk : Reg)
  /-- `amswap.h`, R567. -/
  | amswapH (rd : Reg) (rj : Reg) (rk : Reg)
  /-- `amadd.b`, R568. -/
  | amaddB (rd : Reg) (rj : Reg) (rk : Reg)
  /-- `amadd.h`, R569. -/
  | amaddH (rd : Reg) (rj : Reg) (rk : Reg)
  /-- `amswap_db.b`, R968. -/
  | amswapDbB (rd : Reg) (rj : Reg) (rk : Reg)
  /-- `amswap_db.h`, R969. -/
  | amswapDbH (rd : Reg) (rj : Reg) (rk : Reg)
  /-- `amadd_db.b`, R970. -/
  | amaddDbB (rd : Reg) (rj : Reg) (rk : Reg)
  /-- `amadd_db.h`, R971. -/
  | amaddDbH (rd : Reg) (rj : Reg) (rk : Reg)
  /-- `amswap.w`, R547. -/
  | amswapW (rd : Reg) (rj : Reg) (rk : Reg)
  /-- `amswap.d`, R548. -/
  | amswapD (rd : Reg) (rj : Reg) (rk : Reg)
  /-- `amadd.w`, R549. -/
  | amaddW (rd : Reg) (rj : Reg) (rk : Reg)
  /-- `amadd.d`, R550. -/
  | amaddD (rd : Reg) (rj : Reg) (rk : Reg)
  /-- `amand.w`, R551. -/
  | amandW (rd : Reg) (rj : Reg) (rk : Reg)
  /-- `amand.d`, R552. -/
  | amandD (rd : Reg) (rj : Reg) (rk : Reg)
  /-- `amor.w`, R553. -/
  | amorW (rd : Reg) (rj : Reg) (rk : Reg)
  /-- `amor.d`, R554. -/
  | amorD (rd : Reg) (rj : Reg) (rk : Reg)
  /-- `amxor.w`, R555. -/
  | amxorW (rd : Reg) (rj : Reg) (rk : Reg)
  /-- `amxor.d`, R556. -/
  | amxorD (rd : Reg) (rj : Reg) (rk : Reg)
  /-- `ammax.w`, R557. -/
  | ammaxW (rd : Reg) (rj : Reg) (rk : Reg)
  /-- `ammax.d`, R558. -/
  | ammaxD (rd : Reg) (rj : Reg) (rk : Reg)
  /-- `ammin.w`, R559. -/
  | amminW (rd : Reg) (rj : Reg) (rk : Reg)
  /-- `ammin.d`, R560. -/
  | amminD (rd : Reg) (rj : Reg) (rk : Reg)
  /-- `ammax.wu`, R561. -/
  | ammaxWu (rd : Reg) (rj : Reg) (rk : Reg)
  /-- `ammax.du`, R562. -/
  | ammaxDu (rd : Reg) (rj : Reg) (rk : Reg)
  /-- `ammin.wu`, R563. -/
  | amminWu (rd : Reg) (rj : Reg) (rk : Reg)
  /-- `ammin.du`, R564. -/
  | amminDu (rd : Reg) (rj : Reg) (rk : Reg)
  /-- `amswap_db.w`, R950. -/
  | amswapDbW (rd : Reg) (rj : Reg) (rk : Reg)
  /-- `amswap_db.d`, R951. -/
  | amswapDbD (rd : Reg) (rj : Reg) (rk : Reg)
  /-- `amadd_db.w`, R952. -/
  | amaddDbW (rd : Reg) (rj : Reg) (rk : Reg)
  /-- `amadd_db.d`, R953. -/
  | amaddDbD (rd : Reg) (rj : Reg) (rk : Reg)
  /-- `amand_db.w`, R954. -/
  | amandDbW (rd : Reg) (rj : Reg) (rk : Reg)
  /-- `amand_db.d`, R955. -/
  | amandDbD (rd : Reg) (rj : Reg) (rk : Reg)
  /-- `amor_db.w`, R956. -/
  | amorDbW (rd : Reg) (rj : Reg) (rk : Reg)
  /-- `amor_db.d`, R957. -/
  | amorDbD (rd : Reg) (rj : Reg) (rk : Reg)
  /-- `amxor_db.w`, R958. -/
  | amxorDbW (rd : Reg) (rj : Reg) (rk : Reg)
  /-- `amxor_db.d`, R959. -/
  | amxorDbD (rd : Reg) (rj : Reg) (rk : Reg)
  /-- `ammax_db.w`, R960. -/
  | ammaxDbW (rd : Reg) (rj : Reg) (rk : Reg)
  /-- `ammax_db.d`, R961. -/
  | ammaxDbD (rd : Reg) (rj : Reg) (rk : Reg)
  /-- `ammin_db.w`, R962. -/
  | amminDbW (rd : Reg) (rj : Reg) (rk : Reg)
  /-- `ammin_db.d`, R963. -/
  | amminDbD (rd : Reg) (rj : Reg) (rk : Reg)
  /-- `ammax_db.wu`, R964. -/
  | ammaxDbWu (rd : Reg) (rj : Reg) (rk : Reg)
  /-- `ammax_db.du`, R965. -/
  | ammaxDbDu (rd : Reg) (rj : Reg) (rk : Reg)
  /-- `ammin_db.wu`, R966. -/
  | amminDbWu (rd : Reg) (rj : Reg) (rk : Reg)
  /-- `ammin_db.du`, R967. -/
  | amminDbDu (rd : Reg) (rj : Reg) (rk : Reg)
  /-- `dbar`, R591. -/
  | dbar (hint : BitVec 15)
  /-- `ibar`, R592. -/
  | ibar (hint : BitVec 15)
  /-- `fldgt.s`, R793. -/
  | fldgtS (fd : FReg) (rj : Reg) (rk : Reg)
  /-- `fldgt.d`, R794. -/
  | fldgtD (fd : FReg) (rj : Reg) (rk : Reg)
  /-- `fldle.s`, R795. -/
  | fldleS (fd : FReg) (rj : Reg) (rk : Reg)
  /-- `fldle.d`, R796. -/
  | fldleD (fd : FReg) (rj : Reg) (rk : Reg)
  /-- `fstgt.s`, R797. -/
  | fstgtS (fd : FReg) (rj : Reg) (rk : Reg)
  /-- `fstgt.d`, R798. -/
  | fstgtD (fd : FReg) (rj : Reg) (rk : Reg)
  /-- `fstle.s`, R799. -/
  | fstleS (fd : FReg) (rj : Reg) (rk : Reg)
  /-- `fstle.d`, R800. -/
  | fstleD (fd : FReg) (rj : Reg) (rk : Reg)
  /-- `ldgt.b`, R513. -/
  | ldgtB (rd : Reg) (rj : Reg) (rk : Reg)
  /-- `ldgt.h`, R514. -/
  | ldgtH (rd : Reg) (rj : Reg) (rk : Reg)
  /-- `ldgt.w`, R515. -/
  | ldgtW (rd : Reg) (rj : Reg) (rk : Reg)
  /-- `ldgt.d`, R516. -/
  | ldgtD (rd : Reg) (rj : Reg) (rk : Reg)
  /-- `ldle.b`, R517. -/
  | ldleB (rd : Reg) (rj : Reg) (rk : Reg)
  /-- `ldle.h`, R518. -/
  | ldleH (rd : Reg) (rj : Reg) (rk : Reg)
  /-- `ldle.w`, R519. -/
  | ldleW (rd : Reg) (rj : Reg) (rk : Reg)
  /-- `ldle.d`, R520. -/
  | ldleD (rd : Reg) (rj : Reg) (rk : Reg)
  /-- `stgt.b`, R521. -/
  | stgtB (rd : Reg) (rj : Reg) (rk : Reg)
  /-- `stgt.h`, R522. -/
  | stgtH (rd : Reg) (rj : Reg) (rk : Reg)
  /-- `stgt.w`, R523. -/
  | stgtW (rd : Reg) (rj : Reg) (rk : Reg)
  /-- `stgt.d`, R524. -/
  | stgtD (rd : Reg) (rj : Reg) (rk : Reg)
  /-- `stle.b`, R525. -/
  | stleB (rd : Reg) (rj : Reg) (rk : Reg)
  /-- `stle.h`, R526. -/
  | stleH (rd : Reg) (rj : Reg) (rk : Reg)
  /-- `stle.w`, R527. -/
  | stleW (rd : Reg) (rj : Reg) (rk : Reg)
  /-- `stle.d`, R528. -/
  | stleD (rd : Reg) (rj : Reg) (rk : Reg)
  /-- `beqz`, R468. -/
  | beqz (rj : Reg) (offs21 : BitVec 21)
  /-- `bnez`, R469. -/
  | bnez (rj : Reg) (offs21 : BitVec 21)
  /-- `bceqz`, R781. -/
  | bceqz (cj : CReg) (offs21 : BitVec 21)
  /-- `bcnez`, R782. -/
  | bcnez (cj : CReg) (offs21 : BitVec 21)
  /-- `jirl`, R471. -/
  | jirl (rd : Reg) (rj : Reg) (offs16 : BitVec 16)
  /-- `b`, R470. -/
  | b (offs26 : BitVec 26)
  /-- `bl`, R472. -/
  | bl (offs26 : BitVec 26)
  /-- `beq`, R462. -/
  | beq (rj : Reg) (rd : Reg) (offs16 : BitVec 16)
  /-- `bne`, R463. -/
  | bne (rj : Reg) (rd : Reg) (offs16 : BitVec 16)
  /-- `blt`, R464. -/
  | blt (rj : Reg) (rd : Reg) (offs16 : BitVec 16)
  /-- `bge`, R465. -/
  | bge (rj : Reg) (rd : Reg) (offs16 : BitVec 16)
  /-- `bltu`, R466. -/
  | bltu (rj : Reg) (rd : Reg) (offs16 : BitVec 16)
  /-- `bgeu`, R467. -/
  | bgeu (rj : Reg) (rd : Reg) (offs16 : BitVec 16)
deriving DecidableEq, Repr

end Sys2Proof
end

