-- ==== Sys2Proof/Decode.lean ====
section
/-! DEFINITION. The decoder, row by row from spec/opcode_table.json (30_encoding.md R320), and after it the encoder,
written from the same rows.  The rows are in the table's order, so that CSRRD and CSRWR come before CSRXCHG, whose
pattern they are special cases of (R311).  What builds an `Instr` is marked noncomputable, because Lean's compiler has
no room for a constructor with fields past the 245th; the kernel evaluates it all. -/

namespace Sys2Proof

/-- The field of `n` bits from bit `lo` up (00_scope.md R10). -/
def fld (w : BitVec 32) (lo n : Nat) : BitVec n := w.extractLsb' lo n

/-- One row of the opcode table: a word `w` is the row's instruction when `w &&& mask = bits` (30_encoding.md R320). -/
structure Row where
  mask : BitVec 32
  bits : BitVec 32
  build : BitVec 32 → Instr


/-- Rows 1 to 50 of spec/opcode_table.json. -/
def rows1 : List Row := [
  ⟨0xfffffc00#32, 0x00001000#32, fun w => .cloW (fld w 0 5) (fld w 5 5)⟩,
  ⟨0xfffffc00#32, 0x00001400#32, fun w => .clzW (fld w 0 5) (fld w 5 5)⟩,
  ⟨0xfffffc00#32, 0x00001800#32, fun w => .ctoW (fld w 0 5) (fld w 5 5)⟩,
  ⟨0xfffffc00#32, 0x00001c00#32, fun w => .ctzW (fld w 0 5) (fld w 5 5)⟩,
  ⟨0xfffffc00#32, 0x00002000#32, fun w => .cloD (fld w 0 5) (fld w 5 5)⟩,
  ⟨0xfffffc00#32, 0x00002400#32, fun w => .clzD (fld w 0 5) (fld w 5 5)⟩,
  ⟨0xfffffc00#32, 0x00002800#32, fun w => .ctoD (fld w 0 5) (fld w 5 5)⟩,
  ⟨0xfffffc00#32, 0x00002c00#32, fun w => .ctzD (fld w 0 5) (fld w 5 5)⟩,
  ⟨0xfffffc00#32, 0x00003000#32, fun w => .revb2H (fld w 0 5) (fld w 5 5)⟩,
  ⟨0xfffffc00#32, 0x00003400#32, fun w => .revb4H (fld w 0 5) (fld w 5 5)⟩,
  ⟨0xfffffc00#32, 0x00003800#32, fun w => .revb2W (fld w 0 5) (fld w 5 5)⟩,
  ⟨0xfffffc00#32, 0x00003c00#32, fun w => .revbD (fld w 0 5) (fld w 5 5)⟩,
  ⟨0xfffffc00#32, 0x00004000#32, fun w => .revh2W (fld w 0 5) (fld w 5 5)⟩,
  ⟨0xfffffc00#32, 0x00004400#32, fun w => .revhD (fld w 0 5) (fld w 5 5)⟩,
  ⟨0xfffffc00#32, 0x00004800#32, fun w => .bitrev4B (fld w 0 5) (fld w 5 5)⟩,
  ⟨0xfffffc00#32, 0x00004c00#32, fun w => .bitrev8B (fld w 0 5) (fld w 5 5)⟩,
  ⟨0xfffffc00#32, 0x00005000#32, fun w => .bitrevW (fld w 0 5) (fld w 5 5)⟩,
  ⟨0xfffffc00#32, 0x00005400#32, fun w => .bitrevD (fld w 0 5) (fld w 5 5)⟩,
  ⟨0xfffffc00#32, 0x00005800#32, fun w => .extWH (fld w 0 5) (fld w 5 5)⟩,
  ⟨0xfffffc00#32, 0x00005c00#32, fun w => .extWB (fld w 0 5) (fld w 5 5)⟩,
  ⟨0xfffffc00#32, 0x00006000#32, fun w => .rdtimelW (fld w 0 5) (fld w 5 5)⟩,
  ⟨0xfffffc00#32, 0x00006400#32, fun w => .rdtimehW (fld w 0 5) (fld w 5 5)⟩,
  ⟨0xfffffc00#32, 0x00006800#32, fun w => .rdtimeD (fld w 0 5) (fld w 5 5)⟩,
  ⟨0xfffffc00#32, 0x00006c00#32, fun w => .cpucfg (fld w 0 5) (fld w 5 5)⟩,
  ⟨0xffff801f#32, 0x00010000#32, fun w => .asrtleD (fld w 5 5) (fld w 10 5)⟩,
  ⟨0xffff801f#32, 0x00018000#32, fun w => .asrtgtD (fld w 5 5) (fld w 10 5)⟩,
  ⟨0xfffe0000#32, 0x00040000#32, fun w => .alslW (fld w 0 5) (fld w 5 5) (fld w 10 5) (fld w 15 2)⟩,
  ⟨0xfffe0000#32, 0x00060000#32, fun w => .alslWu (fld w 0 5) (fld w 5 5) (fld w 10 5) (fld w 15 2)⟩,
  ⟨0xfffe0000#32, 0x00080000#32, fun w => .bytepickW (fld w 0 5) (fld w 5 5) (fld w 10 5) (fld w 15 2)⟩,
  ⟨0xfffc0000#32, 0x000c0000#32, fun w => .bytepickD (fld w 0 5) (fld w 5 5) (fld w 10 5) (fld w 15 3)⟩,
  ⟨0xffff8000#32, 0x00100000#32, fun w => .addW (fld w 0 5) (fld w 5 5) (fld w 10 5)⟩,
  ⟨0xffff8000#32, 0x00108000#32, fun w => .addD (fld w 0 5) (fld w 5 5) (fld w 10 5)⟩,
  ⟨0xffff8000#32, 0x00110000#32, fun w => .subW (fld w 0 5) (fld w 5 5) (fld w 10 5)⟩,
  ⟨0xffff8000#32, 0x00118000#32, fun w => .subD (fld w 0 5) (fld w 5 5) (fld w 10 5)⟩,
  ⟨0xffff8000#32, 0x00120000#32, fun w => .slt (fld w 0 5) (fld w 5 5) (fld w 10 5)⟩,
  ⟨0xffff8000#32, 0x00128000#32, fun w => .sltu (fld w 0 5) (fld w 5 5) (fld w 10 5)⟩,
  ⟨0xffff8000#32, 0x00130000#32, fun w => .maskeqz (fld w 0 5) (fld w 5 5) (fld w 10 5)⟩,
  ⟨0xffff8000#32, 0x00138000#32, fun w => .masknez (fld w 0 5) (fld w 5 5) (fld w 10 5)⟩,
  ⟨0xffff8000#32, 0x00140000#32, fun w => .nor (fld w 0 5) (fld w 5 5) (fld w 10 5)⟩,
  ⟨0xffff8000#32, 0x00148000#32, fun w => .and (fld w 0 5) (fld w 5 5) (fld w 10 5)⟩,
  ⟨0xffff8000#32, 0x00150000#32, fun w => .or (fld w 0 5) (fld w 5 5) (fld w 10 5)⟩,
  ⟨0xffff8000#32, 0x00158000#32, fun w => .xor (fld w 0 5) (fld w 5 5) (fld w 10 5)⟩,
  ⟨0xffff8000#32, 0x00160000#32, fun w => .orn (fld w 0 5) (fld w 5 5) (fld w 10 5)⟩,
  ⟨0xffff8000#32, 0x00168000#32, fun w => .andn (fld w 0 5) (fld w 5 5) (fld w 10 5)⟩,
  ⟨0xffff8000#32, 0x00170000#32, fun w => .sllW (fld w 0 5) (fld w 5 5) (fld w 10 5)⟩,
  ⟨0xffff8000#32, 0x00178000#32, fun w => .srlW (fld w 0 5) (fld w 5 5) (fld w 10 5)⟩,
  ⟨0xffff8000#32, 0x00180000#32, fun w => .sraW (fld w 0 5) (fld w 5 5) (fld w 10 5)⟩,
  ⟨0xffff8000#32, 0x00188000#32, fun w => .sllD (fld w 0 5) (fld w 5 5) (fld w 10 5)⟩,
  ⟨0xffff8000#32, 0x00190000#32, fun w => .srlD (fld w 0 5) (fld w 5 5) (fld w 10 5)⟩,
  ⟨0xffff8000#32, 0x00198000#32, fun w => .sraD (fld w 0 5) (fld w 5 5) (fld w 10 5)⟩]

/-- Rows 51 to 100 of spec/opcode_table.json. -/
def rows2 : List Row := [
  ⟨0xffff8000#32, 0x001b0000#32, fun w => .rotrW (fld w 0 5) (fld w 5 5) (fld w 10 5)⟩,
  ⟨0xffff8000#32, 0x001b8000#32, fun w => .rotrD (fld w 0 5) (fld w 5 5) (fld w 10 5)⟩,
  ⟨0xffff8000#32, 0x001c0000#32, fun w => .mulW (fld w 0 5) (fld w 5 5) (fld w 10 5)⟩,
  ⟨0xffff8000#32, 0x001c8000#32, fun w => .mulhW (fld w 0 5) (fld w 5 5) (fld w 10 5)⟩,
  ⟨0xffff8000#32, 0x001d0000#32, fun w => .mulhWu (fld w 0 5) (fld w 5 5) (fld w 10 5)⟩,
  ⟨0xffff8000#32, 0x001d8000#32, fun w => .mulD (fld w 0 5) (fld w 5 5) (fld w 10 5)⟩,
  ⟨0xffff8000#32, 0x001e0000#32, fun w => .mulhD (fld w 0 5) (fld w 5 5) (fld w 10 5)⟩,
  ⟨0xffff8000#32, 0x001e8000#32, fun w => .mulhDu (fld w 0 5) (fld w 5 5) (fld w 10 5)⟩,
  ⟨0xffff8000#32, 0x001f0000#32, fun w => .mulwDW (fld w 0 5) (fld w 5 5) (fld w 10 5)⟩,
  ⟨0xffff8000#32, 0x001f8000#32, fun w => .mulwDWu (fld w 0 5) (fld w 5 5) (fld w 10 5)⟩,
  ⟨0xffff8000#32, 0x00200000#32, fun w => .divW (fld w 0 5) (fld w 5 5) (fld w 10 5)⟩,
  ⟨0xffff8000#32, 0x00208000#32, fun w => .modW (fld w 0 5) (fld w 5 5) (fld w 10 5)⟩,
  ⟨0xffff8000#32, 0x00210000#32, fun w => .divWu (fld w 0 5) (fld w 5 5) (fld w 10 5)⟩,
  ⟨0xffff8000#32, 0x00218000#32, fun w => .modWu (fld w 0 5) (fld w 5 5) (fld w 10 5)⟩,
  ⟨0xffff8000#32, 0x00220000#32, fun w => .divD (fld w 0 5) (fld w 5 5) (fld w 10 5)⟩,
  ⟨0xffff8000#32, 0x00228000#32, fun w => .modD (fld w 0 5) (fld w 5 5) (fld w 10 5)⟩,
  ⟨0xffff8000#32, 0x00230000#32, fun w => .divDu (fld w 0 5) (fld w 5 5) (fld w 10 5)⟩,
  ⟨0xffff8000#32, 0x00238000#32, fun w => .modDu (fld w 0 5) (fld w 5 5) (fld w 10 5)⟩,
  ⟨0xffff8000#32, 0x00240000#32, fun w => .crcWBW (fld w 0 5) (fld w 5 5) (fld w 10 5)⟩,
  ⟨0xffff8000#32, 0x00248000#32, fun w => .crcWHW (fld w 0 5) (fld w 5 5) (fld w 10 5)⟩,
  ⟨0xffff8000#32, 0x00250000#32, fun w => .crcWWW (fld w 0 5) (fld w 5 5) (fld w 10 5)⟩,
  ⟨0xffff8000#32, 0x00258000#32, fun w => .crcWDW (fld w 0 5) (fld w 5 5) (fld w 10 5)⟩,
  ⟨0xffff8000#32, 0x00260000#32, fun w => .crccWBW (fld w 0 5) (fld w 5 5) (fld w 10 5)⟩,
  ⟨0xffff8000#32, 0x00268000#32, fun w => .crccWHW (fld w 0 5) (fld w 5 5) (fld w 10 5)⟩,
  ⟨0xffff8000#32, 0x00270000#32, fun w => .crccWWW (fld w 0 5) (fld w 5 5) (fld w 10 5)⟩,
  ⟨0xffff8000#32, 0x00278000#32, fun w => .crccWDW (fld w 0 5) (fld w 5 5) (fld w 10 5)⟩,
  ⟨0xffff8000#32, 0x002a0000#32, fun w => .brk (fld w 0 15)⟩,
  ⟨0xffff8000#32, 0x002a8000#32, fun w => .dbcl (fld w 0 15)⟩,
  ⟨0xffff8000#32, 0x002b0000#32, fun w => .syscall (fld w 0 15)⟩,
  ⟨0xfffe0000#32, 0x002c0000#32, fun w => .alslD (fld w 0 5) (fld w 5 5) (fld w 10 5) (fld w 15 2)⟩,
  ⟨0xffff8000#32, 0x00408000#32, fun w => .slliW (fld w 0 5) (fld w 5 5) (fld w 10 5)⟩,
  ⟨0xffff0000#32, 0x00410000#32, fun w => .slliD (fld w 0 5) (fld w 5 5) (fld w 10 6)⟩,
  ⟨0xffff8000#32, 0x00448000#32, fun w => .srliW (fld w 0 5) (fld w 5 5) (fld w 10 5)⟩,
  ⟨0xffff0000#32, 0x00450000#32, fun w => .srliD (fld w 0 5) (fld w 5 5) (fld w 10 6)⟩,
  ⟨0xffff8000#32, 0x00488000#32, fun w => .sraiW (fld w 0 5) (fld w 5 5) (fld w 10 5)⟩,
  ⟨0xffff0000#32, 0x00490000#32, fun w => .sraiD (fld w 0 5) (fld w 5 5) (fld w 10 6)⟩,
  ⟨0xffff8000#32, 0x004c8000#32, fun w => .rotriW (fld w 0 5) (fld w 5 5) (fld w 10 5)⟩,
  ⟨0xffff0000#32, 0x004d0000#32, fun w => .rotriD (fld w 0 5) (fld w 5 5) (fld w 10 6)⟩,
  ⟨0xffe08000#32, 0x00600000#32, fun w => .bstrinsW (fld w 0 5) (fld w 5 5) (fld w 16 5) (fld w 10 5)⟩,
  ⟨0xffe08000#32, 0x00608000#32, fun w => .bstrpickW (fld w 0 5) (fld w 5 5) (fld w 16 5) (fld w 10 5)⟩,
  ⟨0xffc00000#32, 0x00800000#32, fun w => .bstrinsD (fld w 0 5) (fld w 5 5) (fld w 16 6) (fld w 10 6)⟩,
  ⟨0xffc00000#32, 0x00c00000#32, fun w => .bstrpickD (fld w 0 5) (fld w 5 5) (fld w 16 6) (fld w 10 6)⟩,
  ⟨0xffff8000#32, 0x01008000#32, fun w => .faddS (fld w 0 5) (fld w 5 5) (fld w 10 5)⟩,
  ⟨0xffff8000#32, 0x01010000#32, fun w => .faddD (fld w 0 5) (fld w 5 5) (fld w 10 5)⟩,
  ⟨0xffff8000#32, 0x01028000#32, fun w => .fsubS (fld w 0 5) (fld w 5 5) (fld w 10 5)⟩,
  ⟨0xffff8000#32, 0x01030000#32, fun w => .fsubD (fld w 0 5) (fld w 5 5) (fld w 10 5)⟩,
  ⟨0xffff8000#32, 0x01048000#32, fun w => .fmulS (fld w 0 5) (fld w 5 5) (fld w 10 5)⟩,
  ⟨0xffff8000#32, 0x01050000#32, fun w => .fmulD (fld w 0 5) (fld w 5 5) (fld w 10 5)⟩,
  ⟨0xffff8000#32, 0x01068000#32, fun w => .fdivS (fld w 0 5) (fld w 5 5) (fld w 10 5)⟩,
  ⟨0xffff8000#32, 0x01070000#32, fun w => .fdivD (fld w 0 5) (fld w 5 5) (fld w 10 5)⟩]

/-- Rows 101 to 150 of spec/opcode_table.json. -/
def rows3 : List Row := [
  ⟨0xffff8000#32, 0x01088000#32, fun w => .fmaxS (fld w 0 5) (fld w 5 5) (fld w 10 5)⟩,
  ⟨0xffff8000#32, 0x01090000#32, fun w => .fmaxD (fld w 0 5) (fld w 5 5) (fld w 10 5)⟩,
  ⟨0xffff8000#32, 0x010a8000#32, fun w => .fminS (fld w 0 5) (fld w 5 5) (fld w 10 5)⟩,
  ⟨0xffff8000#32, 0x010b0000#32, fun w => .fminD (fld w 0 5) (fld w 5 5) (fld w 10 5)⟩,
  ⟨0xffff8000#32, 0x010c8000#32, fun w => .fmaxaS (fld w 0 5) (fld w 5 5) (fld w 10 5)⟩,
  ⟨0xffff8000#32, 0x010d0000#32, fun w => .fmaxaD (fld w 0 5) (fld w 5 5) (fld w 10 5)⟩,
  ⟨0xffff8000#32, 0x010e8000#32, fun w => .fminaS (fld w 0 5) (fld w 5 5) (fld w 10 5)⟩,
  ⟨0xffff8000#32, 0x010f0000#32, fun w => .fminaD (fld w 0 5) (fld w 5 5) (fld w 10 5)⟩,
  ⟨0xffff8000#32, 0x01108000#32, fun w => .fscalebS (fld w 0 5) (fld w 5 5) (fld w 10 5)⟩,
  ⟨0xffff8000#32, 0x01110000#32, fun w => .fscalebD (fld w 0 5) (fld w 5 5) (fld w 10 5)⟩,
  ⟨0xffff8000#32, 0x01128000#32, fun w => .fcopysignS (fld w 0 5) (fld w 5 5) (fld w 10 5)⟩,
  ⟨0xffff8000#32, 0x01130000#32, fun w => .fcopysignD (fld w 0 5) (fld w 5 5) (fld w 10 5)⟩,
  ⟨0xfffffc00#32, 0x01140400#32, fun w => .fabsS (fld w 0 5) (fld w 5 5)⟩,
  ⟨0xfffffc00#32, 0x01140800#32, fun w => .fabsD (fld w 0 5) (fld w 5 5)⟩,
  ⟨0xfffffc00#32, 0x01141400#32, fun w => .fnegS (fld w 0 5) (fld w 5 5)⟩,
  ⟨0xfffffc00#32, 0x01141800#32, fun w => .fnegD (fld w 0 5) (fld w 5 5)⟩,
  ⟨0xfffffc00#32, 0x01142400#32, fun w => .flogbS (fld w 0 5) (fld w 5 5)⟩,
  ⟨0xfffffc00#32, 0x01142800#32, fun w => .flogbD (fld w 0 5) (fld w 5 5)⟩,
  ⟨0xfffffc00#32, 0x01143400#32, fun w => .fclassS (fld w 0 5) (fld w 5 5)⟩,
  ⟨0xfffffc00#32, 0x01143800#32, fun w => .fclassD (fld w 0 5) (fld w 5 5)⟩,
  ⟨0xfffffc00#32, 0x01144400#32, fun w => .fsqrtS (fld w 0 5) (fld w 5 5)⟩,
  ⟨0xfffffc00#32, 0x01144800#32, fun w => .fsqrtD (fld w 0 5) (fld w 5 5)⟩,
  ⟨0xfffffc00#32, 0x01145400#32, fun w => .frecipS (fld w 0 5) (fld w 5 5)⟩,
  ⟨0xfffffc00#32, 0x01145800#32, fun w => .frecipD (fld w 0 5) (fld w 5 5)⟩,
  ⟨0xfffffc00#32, 0x01146400#32, fun w => .frsqrtS (fld w 0 5) (fld w 5 5)⟩,
  ⟨0xfffffc00#32, 0x01146800#32, fun w => .frsqrtD (fld w 0 5) (fld w 5 5)⟩,
  ⟨0xfffffc00#32, 0x01147400#32, fun w => .frecipeS (fld w 0 5) (fld w 5 5)⟩,
  ⟨0xfffffc00#32, 0x01147800#32, fun w => .frecipeD (fld w 0 5) (fld w 5 5)⟩,
  ⟨0xfffffc00#32, 0x01148400#32, fun w => .frsqrteS (fld w 0 5) (fld w 5 5)⟩,
  ⟨0xfffffc00#32, 0x01148800#32, fun w => .frsqrteD (fld w 0 5) (fld w 5 5)⟩,
  ⟨0xfffffc00#32, 0x01149400#32, fun w => .fmovS (fld w 0 5) (fld w 5 5)⟩,
  ⟨0xfffffc00#32, 0x01149800#32, fun w => .fmovD (fld w 0 5) (fld w 5 5)⟩,
  ⟨0xfffffc00#32, 0x0114a400#32, fun w => .movgr2frW (fld w 0 5) (fld w 5 5)⟩,
  ⟨0xfffffc00#32, 0x0114a800#32, fun w => .movgr2frD (fld w 0 5) (fld w 5 5)⟩,
  ⟨0xfffffc00#32, 0x0114ac00#32, fun w => .movgr2frhW (fld w 0 5) (fld w 5 5)⟩,
  ⟨0xfffffc00#32, 0x0114b400#32, fun w => .movfr2grS (fld w 0 5) (fld w 5 5)⟩,
  ⟨0xfffffc00#32, 0x0114b800#32, fun w => .movfr2grD (fld w 0 5) (fld w 5 5)⟩,
  ⟨0xfffffc00#32, 0x0114bc00#32, fun w => .movfrh2grS (fld w 0 5) (fld w 5 5)⟩,
  ⟨0xfffffc00#32, 0x0114c000#32, fun w => .movgr2fcsr (fld w 0 5) (fld w 5 5)⟩,
  ⟨0xfffffc00#32, 0x0114c800#32, fun w => .movfcsr2gr (fld w 0 5) (fld w 5 5)⟩,
  ⟨0xfffffc18#32, 0x0114d000#32, fun w => .movfr2cf (fld w 0 3) (fld w 5 5)⟩,
  ⟨0xffffff00#32, 0x0114d400#32, fun w => .movcf2fr (fld w 0 5) (fld w 5 3)⟩,
  ⟨0xfffffc18#32, 0x0114d800#32, fun w => .movgr2cf (fld w 0 3) (fld w 5 5)⟩,
  ⟨0xffffff00#32, 0x0114dc00#32, fun w => .movcf2gr (fld w 0 5) (fld w 5 3)⟩,
  ⟨0xfffffc00#32, 0x01191800#32, fun w => .fcvtSD (fld w 0 5) (fld w 5 5)⟩,
  ⟨0xfffffc00#32, 0x01192400#32, fun w => .fcvtDS (fld w 0 5) (fld w 5 5)⟩,
  ⟨0xfffffc00#32, 0x011a0400#32, fun w => .ftintrmWS (fld w 0 5) (fld w 5 5)⟩,
  ⟨0xfffffc00#32, 0x011a0800#32, fun w => .ftintrmWD (fld w 0 5) (fld w 5 5)⟩,
  ⟨0xfffffc00#32, 0x011a2400#32, fun w => .ftintrmLS (fld w 0 5) (fld w 5 5)⟩,
  ⟨0xfffffc00#32, 0x011a2800#32, fun w => .ftintrmLD (fld w 0 5) (fld w 5 5)⟩]

/-- Rows 151 to 200 of spec/opcode_table.json. -/
def rows4 : List Row := [
  ⟨0xfffffc00#32, 0x011a4400#32, fun w => .ftintrpWS (fld w 0 5) (fld w 5 5)⟩,
  ⟨0xfffffc00#32, 0x011a4800#32, fun w => .ftintrpWD (fld w 0 5) (fld w 5 5)⟩,
  ⟨0xfffffc00#32, 0x011a6400#32, fun w => .ftintrpLS (fld w 0 5) (fld w 5 5)⟩,
  ⟨0xfffffc00#32, 0x011a6800#32, fun w => .ftintrpLD (fld w 0 5) (fld w 5 5)⟩,
  ⟨0xfffffc00#32, 0x011a8400#32, fun w => .ftintrzWS (fld w 0 5) (fld w 5 5)⟩,
  ⟨0xfffffc00#32, 0x011a8800#32, fun w => .ftintrzWD (fld w 0 5) (fld w 5 5)⟩,
  ⟨0xfffffc00#32, 0x011aa400#32, fun w => .ftintrzLS (fld w 0 5) (fld w 5 5)⟩,
  ⟨0xfffffc00#32, 0x011aa800#32, fun w => .ftintrzLD (fld w 0 5) (fld w 5 5)⟩,
  ⟨0xfffffc00#32, 0x011ac400#32, fun w => .ftintrneWS (fld w 0 5) (fld w 5 5)⟩,
  ⟨0xfffffc00#32, 0x011ac800#32, fun w => .ftintrneWD (fld w 0 5) (fld w 5 5)⟩,
  ⟨0xfffffc00#32, 0x011ae400#32, fun w => .ftintrneLS (fld w 0 5) (fld w 5 5)⟩,
  ⟨0xfffffc00#32, 0x011ae800#32, fun w => .ftintrneLD (fld w 0 5) (fld w 5 5)⟩,
  ⟨0xfffffc00#32, 0x011b0400#32, fun w => .ftintWS (fld w 0 5) (fld w 5 5)⟩,
  ⟨0xfffffc00#32, 0x011b0800#32, fun w => .ftintWD (fld w 0 5) (fld w 5 5)⟩,
  ⟨0xfffffc00#32, 0x011b2400#32, fun w => .ftintLS (fld w 0 5) (fld w 5 5)⟩,
  ⟨0xfffffc00#32, 0x011b2800#32, fun w => .ftintLD (fld w 0 5) (fld w 5 5)⟩,
  ⟨0xfffffc00#32, 0x011d1000#32, fun w => .ffintSW (fld w 0 5) (fld w 5 5)⟩,
  ⟨0xfffffc00#32, 0x011d1800#32, fun w => .ffintSL (fld w 0 5) (fld w 5 5)⟩,
  ⟨0xfffffc00#32, 0x011d2000#32, fun w => .ffintDW (fld w 0 5) (fld w 5 5)⟩,
  ⟨0xfffffc00#32, 0x011d2800#32, fun w => .ffintDL (fld w 0 5) (fld w 5 5)⟩,
  ⟨0xfffffc00#32, 0x011e4400#32, fun w => .frintS (fld w 0 5) (fld w 5 5)⟩,
  ⟨0xfffffc00#32, 0x011e4800#32, fun w => .frintD (fld w 0 5) (fld w 5 5)⟩,
  ⟨0xffc00000#32, 0x02000000#32, fun w => .slti (fld w 0 5) (fld w 5 5) (fld w 10 12)⟩,
  ⟨0xffc00000#32, 0x02400000#32, fun w => .sltui (fld w 0 5) (fld w 5 5) (fld w 10 12)⟩,
  ⟨0xffc00000#32, 0x02800000#32, fun w => .addiW (fld w 0 5) (fld w 5 5) (fld w 10 12)⟩,
  ⟨0xffc00000#32, 0x02c00000#32, fun w => .addiD (fld w 0 5) (fld w 5 5) (fld w 10 12)⟩,
  ⟨0xffc00000#32, 0x03000000#32, fun w => .lu52iD (fld w 0 5) (fld w 5 5) (fld w 10 12)⟩,
  ⟨0xffc00000#32, 0x03400000#32, fun w => .andi (fld w 0 5) (fld w 5 5) (fld w 10 12)⟩,
  ⟨0xffc00000#32, 0x03800000#32, fun w => .ori (fld w 0 5) (fld w 5 5) (fld w 10 12)⟩,
  ⟨0xffc00000#32, 0x03c00000#32, fun w => .xori (fld w 0 5) (fld w 5 5) (fld w 10 12)⟩,
  ⟨0xff0003e0#32, 0x04000000#32, fun w => .csrrd (fld w 0 5) (fld w 10 14)⟩,
  ⟨0xff0003e0#32, 0x04000020#32, fun w => .csrwr (fld w 0 5) (fld w 10 14)⟩,
  ⟨0xff000000#32, 0x04000000#32, fun w => .csrxchg (fld w 0 5) (fld w 5 5) (fld w 10 14)⟩,
  ⟨0xffc00000#32, 0x06000000#32, fun w => .cacop (fld w 0 5) (fld w 5 5) (fld w 10 12)⟩,
  ⟨0xfffc0000#32, 0x06400000#32, fun w => .lddir (fld w 0 5) (fld w 5 5) (fld w 10 8)⟩,
  ⟨0xfffc001f#32, 0x06440000#32, fun w => .ldpte (fld w 5 5) (fld w 10 8)⟩,
  ⟨0xfffffc00#32, 0x06480000#32, fun w => .iocsrrdB (fld w 0 5) (fld w 5 5)⟩,
  ⟨0xfffffc00#32, 0x06480400#32, fun w => .iocsrrdH (fld w 0 5) (fld w 5 5)⟩,
  ⟨0xfffffc00#32, 0x06480800#32, fun w => .iocsrrdW (fld w 0 5) (fld w 5 5)⟩,
  ⟨0xfffffc00#32, 0x06480c00#32, fun w => .iocsrrdD (fld w 0 5) (fld w 5 5)⟩,
  ⟨0xfffffc00#32, 0x06481000#32, fun w => .iocsrwrB (fld w 0 5) (fld w 5 5)⟩,
  ⟨0xfffffc00#32, 0x06481400#32, fun w => .iocsrwrH (fld w 0 5) (fld w 5 5)⟩,
  ⟨0xfffffc00#32, 0x06481800#32, fun w => .iocsrwrW (fld w 0 5) (fld w 5 5)⟩,
  ⟨0xfffffc00#32, 0x06481c00#32, fun w => .iocsrwrD (fld w 0 5) (fld w 5 5)⟩,
  ⟨0xffffffff#32, 0x06482000#32, fun _ => .tlbclr⟩,
  ⟨0xffffffff#32, 0x06482400#32, fun _ => .tlbflush⟩,
  ⟨0xffffffff#32, 0x06482800#32, fun _ => .tlbsrch⟩,
  ⟨0xffffffff#32, 0x06482c00#32, fun _ => .tlbrd⟩,
  ⟨0xffffffff#32, 0x06483000#32, fun _ => .tlbwr⟩,
  ⟨0xffffffff#32, 0x06483400#32, fun _ => .tlbfill⟩]

/-- Rows 201 to 250 of spec/opcode_table.json. -/
noncomputable def rows5 : List Row := [
  ⟨0xffffffff#32, 0x06483800#32, fun _ => .ertn⟩,
  ⟨0xffff8000#32, 0x06488000#32, fun w => .idle (fld w 0 15)⟩,
  ⟨0xffff8000#32, 0x06498000#32, fun w => .invtlb (fld w 0 5) (fld w 5 5) (fld w 10 5)⟩,
  ⟨0xfff00000#32, 0x08100000#32, fun w => .fmaddS (fld w 0 5) (fld w 5 5) (fld w 10 5) (fld w 15 5)⟩,
  ⟨0xfff00000#32, 0x08200000#32, fun w => .fmaddD (fld w 0 5) (fld w 5 5) (fld w 10 5) (fld w 15 5)⟩,
  ⟨0xfff00000#32, 0x08500000#32, fun w => .fmsubS (fld w 0 5) (fld w 5 5) (fld w 10 5) (fld w 15 5)⟩,
  ⟨0xfff00000#32, 0x08600000#32, fun w => .fmsubD (fld w 0 5) (fld w 5 5) (fld w 10 5) (fld w 15 5)⟩,
  ⟨0xfff00000#32, 0x08900000#32, fun w => .fnmaddS (fld w 0 5) (fld w 5 5) (fld w 10 5) (fld w 15 5)⟩,
  ⟨0xfff00000#32, 0x08a00000#32, fun w => .fnmaddD (fld w 0 5) (fld w 5 5) (fld w 10 5) (fld w 15 5)⟩,
  ⟨0xfff00000#32, 0x08d00000#32, fun w => .fnmsubS (fld w 0 5) (fld w 5 5) (fld w 10 5) (fld w 15 5)⟩,
  ⟨0xfff00000#32, 0x08e00000#32, fun w => .fnmsubD (fld w 0 5) (fld w 5 5) (fld w 10 5) (fld w 15 5)⟩,
  ⟨0xffff8018#32, 0x0c100000#32, fun w => .fcmpCafS (fld w 0 3) (fld w 5 5) (fld w 10 5)⟩,
  ⟨0xffff8018#32, 0x0c108000#32, fun w => .fcmpSafS (fld w 0 3) (fld w 5 5) (fld w 10 5)⟩,
  ⟨0xffff8018#32, 0x0c110000#32, fun w => .fcmpCltS (fld w 0 3) (fld w 5 5) (fld w 10 5)⟩,
  ⟨0xffff8018#32, 0x0c118000#32, fun w => .fcmpSltS (fld w 0 3) (fld w 5 5) (fld w 10 5)⟩,
  ⟨0xffff8018#32, 0x0c120000#32, fun w => .fcmpCeqS (fld w 0 3) (fld w 5 5) (fld w 10 5)⟩,
  ⟨0xffff8018#32, 0x0c128000#32, fun w => .fcmpSeqS (fld w 0 3) (fld w 5 5) (fld w 10 5)⟩,
  ⟨0xffff8018#32, 0x0c130000#32, fun w => .fcmpCleS (fld w 0 3) (fld w 5 5) (fld w 10 5)⟩,
  ⟨0xffff8018#32, 0x0c138000#32, fun w => .fcmpSleS (fld w 0 3) (fld w 5 5) (fld w 10 5)⟩,
  ⟨0xffff8018#32, 0x0c140000#32, fun w => .fcmpCunS (fld w 0 3) (fld w 5 5) (fld w 10 5)⟩,
  ⟨0xffff8018#32, 0x0c148000#32, fun w => .fcmpSunS (fld w 0 3) (fld w 5 5) (fld w 10 5)⟩,
  ⟨0xffff8018#32, 0x0c150000#32, fun w => .fcmpCultS (fld w 0 3) (fld w 5 5) (fld w 10 5)⟩,
  ⟨0xffff8018#32, 0x0c158000#32, fun w => .fcmpSultS (fld w 0 3) (fld w 5 5) (fld w 10 5)⟩,
  ⟨0xffff8018#32, 0x0c160000#32, fun w => .fcmpCueqS (fld w 0 3) (fld w 5 5) (fld w 10 5)⟩,
  ⟨0xffff8018#32, 0x0c168000#32, fun w => .fcmpSueqS (fld w 0 3) (fld w 5 5) (fld w 10 5)⟩,
  ⟨0xffff8018#32, 0x0c170000#32, fun w => .fcmpCuleS (fld w 0 3) (fld w 5 5) (fld w 10 5)⟩,
  ⟨0xffff8018#32, 0x0c178000#32, fun w => .fcmpSuleS (fld w 0 3) (fld w 5 5) (fld w 10 5)⟩,
  ⟨0xffff8018#32, 0x0c180000#32, fun w => .fcmpCneS (fld w 0 3) (fld w 5 5) (fld w 10 5)⟩,
  ⟨0xffff8018#32, 0x0c188000#32, fun w => .fcmpSneS (fld w 0 3) (fld w 5 5) (fld w 10 5)⟩,
  ⟨0xffff8018#32, 0x0c1a0000#32, fun w => .fcmpCorS (fld w 0 3) (fld w 5 5) (fld w 10 5)⟩,
  ⟨0xffff8018#32, 0x0c1a8000#32, fun w => .fcmpSorS (fld w 0 3) (fld w 5 5) (fld w 10 5)⟩,
  ⟨0xffff8018#32, 0x0c1c0000#32, fun w => .fcmpCuneS (fld w 0 3) (fld w 5 5) (fld w 10 5)⟩,
  ⟨0xffff8018#32, 0x0c1c8000#32, fun w => .fcmpSuneS (fld w 0 3) (fld w 5 5) (fld w 10 5)⟩,
  ⟨0xffff8018#32, 0x0c200000#32, fun w => .fcmpCafD (fld w 0 3) (fld w 5 5) (fld w 10 5)⟩,
  ⟨0xffff8018#32, 0x0c208000#32, fun w => .fcmpSafD (fld w 0 3) (fld w 5 5) (fld w 10 5)⟩,
  ⟨0xffff8018#32, 0x0c210000#32, fun w => .fcmpCltD (fld w 0 3) (fld w 5 5) (fld w 10 5)⟩,
  ⟨0xffff8018#32, 0x0c218000#32, fun w => .fcmpSltD (fld w 0 3) (fld w 5 5) (fld w 10 5)⟩,
  ⟨0xffff8018#32, 0x0c220000#32, fun w => .fcmpCeqD (fld w 0 3) (fld w 5 5) (fld w 10 5)⟩,
  ⟨0xffff8018#32, 0x0c228000#32, fun w => .fcmpSeqD (fld w 0 3) (fld w 5 5) (fld w 10 5)⟩,
  ⟨0xffff8018#32, 0x0c230000#32, fun w => .fcmpCleD (fld w 0 3) (fld w 5 5) (fld w 10 5)⟩,
  ⟨0xffff8018#32, 0x0c238000#32, fun w => .fcmpSleD (fld w 0 3) (fld w 5 5) (fld w 10 5)⟩,
  ⟨0xffff8018#32, 0x0c240000#32, fun w => .fcmpCunD (fld w 0 3) (fld w 5 5) (fld w 10 5)⟩,
  ⟨0xffff8018#32, 0x0c248000#32, fun w => .fcmpSunD (fld w 0 3) (fld w 5 5) (fld w 10 5)⟩,
  ⟨0xffff8018#32, 0x0c250000#32, fun w => .fcmpCultD (fld w 0 3) (fld w 5 5) (fld w 10 5)⟩,
  ⟨0xffff8018#32, 0x0c258000#32, fun w => .fcmpSultD (fld w 0 3) (fld w 5 5) (fld w 10 5)⟩,
  ⟨0xffff8018#32, 0x0c260000#32, fun w => .fcmpCueqD (fld w 0 3) (fld w 5 5) (fld w 10 5)⟩,
  ⟨0xffff8018#32, 0x0c268000#32, fun w => .fcmpSueqD (fld w 0 3) (fld w 5 5) (fld w 10 5)⟩,
  ⟨0xffff8018#32, 0x0c270000#32, fun w => .fcmpCuleD (fld w 0 3) (fld w 5 5) (fld w 10 5)⟩,
  ⟨0xffff8018#32, 0x0c278000#32, fun w => .fcmpSuleD (fld w 0 3) (fld w 5 5) (fld w 10 5)⟩,
  ⟨0xffff8018#32, 0x0c280000#32, fun w => .fcmpCneD (fld w 0 3) (fld w 5 5) (fld w 10 5)⟩]

/-- Rows 251 to 300 of spec/opcode_table.json. -/
noncomputable def rows6 : List Row := [
  ⟨0xffff8018#32, 0x0c288000#32, fun w => .fcmpSneD (fld w 0 3) (fld w 5 5) (fld w 10 5)⟩,
  ⟨0xffff8018#32, 0x0c2a0000#32, fun w => .fcmpCorD (fld w 0 3) (fld w 5 5) (fld w 10 5)⟩,
  ⟨0xffff8018#32, 0x0c2a8000#32, fun w => .fcmpSorD (fld w 0 3) (fld w 5 5) (fld w 10 5)⟩,
  ⟨0xffff8018#32, 0x0c2c0000#32, fun w => .fcmpCuneD (fld w 0 3) (fld w 5 5) (fld w 10 5)⟩,
  ⟨0xffff8018#32, 0x0c2c8000#32, fun w => .fcmpSuneD (fld w 0 3) (fld w 5 5) (fld w 10 5)⟩,
  ⟨0xfffc0000#32, 0x0d000000#32, fun w => .fsel (fld w 0 5) (fld w 5 5) (fld w 10 5) (fld w 15 3)⟩,
  ⟨0xfc000000#32, 0x10000000#32, fun w => .addu16iD (fld w 0 5) (fld w 5 5) (fld w 10 16)⟩,
  ⟨0xfe000000#32, 0x14000000#32, fun w => .lu12iW (fld w 0 5) (fld w 5 20)⟩,
  ⟨0xfe000000#32, 0x16000000#32, fun w => .lu32iD (fld w 0 5) (fld w 5 20)⟩,
  ⟨0xfe000000#32, 0x18000000#32, fun w => .pcaddi (fld w 0 5) (fld w 5 20)⟩,
  ⟨0xfe000000#32, 0x1a000000#32, fun w => .pcalau12i (fld w 0 5) (fld w 5 20)⟩,
  ⟨0xfe000000#32, 0x1c000000#32, fun w => .pcaddu12i (fld w 0 5) (fld w 5 20)⟩,
  ⟨0xfe000000#32, 0x1e000000#32, fun w => .pcaddu18i (fld w 0 5) (fld w 5 20)⟩,
  ⟨0xff000000#32, 0x20000000#32, fun w => .llW (fld w 0 5) (fld w 5 5) (fld w 10 14)⟩,
  ⟨0xff000000#32, 0x21000000#32, fun w => .scW (fld w 0 5) (fld w 5 5) (fld w 10 14)⟩,
  ⟨0xff000000#32, 0x22000000#32, fun w => .llD (fld w 0 5) (fld w 5 5) (fld w 10 14)⟩,
  ⟨0xff000000#32, 0x23000000#32, fun w => .scD (fld w 0 5) (fld w 5 5) (fld w 10 14)⟩,
  ⟨0xff000000#32, 0x24000000#32, fun w => .ldptrW (fld w 0 5) (fld w 5 5) (fld w 10 14)⟩,
  ⟨0xff000000#32, 0x25000000#32, fun w => .stptrW (fld w 0 5) (fld w 5 5) (fld w 10 14)⟩,
  ⟨0xff000000#32, 0x26000000#32, fun w => .ldptrD (fld w 0 5) (fld w 5 5) (fld w 10 14)⟩,
  ⟨0xff000000#32, 0x27000000#32, fun w => .stptrD (fld w 0 5) (fld w 5 5) (fld w 10 14)⟩,
  ⟨0xffc00000#32, 0x28000000#32, fun w => .ldB (fld w 0 5) (fld w 5 5) (fld w 10 12)⟩,
  ⟨0xffc00000#32, 0x28400000#32, fun w => .ldH (fld w 0 5) (fld w 5 5) (fld w 10 12)⟩,
  ⟨0xffc00000#32, 0x28800000#32, fun w => .ldW (fld w 0 5) (fld w 5 5) (fld w 10 12)⟩,
  ⟨0xffc00000#32, 0x28c00000#32, fun w => .ldD (fld w 0 5) (fld w 5 5) (fld w 10 12)⟩,
  ⟨0xffc00000#32, 0x29000000#32, fun w => .stB (fld w 0 5) (fld w 5 5) (fld w 10 12)⟩,
  ⟨0xffc00000#32, 0x29400000#32, fun w => .stH (fld w 0 5) (fld w 5 5) (fld w 10 12)⟩,
  ⟨0xffc00000#32, 0x29800000#32, fun w => .stW (fld w 0 5) (fld w 5 5) (fld w 10 12)⟩,
  ⟨0xffc00000#32, 0x29c00000#32, fun w => .stD (fld w 0 5) (fld w 5 5) (fld w 10 12)⟩,
  ⟨0xffc00000#32, 0x2a000000#32, fun w => .ldBu (fld w 0 5) (fld w 5 5) (fld w 10 12)⟩,
  ⟨0xffc00000#32, 0x2a400000#32, fun w => .ldHu (fld w 0 5) (fld w 5 5) (fld w 10 12)⟩,
  ⟨0xffc00000#32, 0x2a800000#32, fun w => .ldWu (fld w 0 5) (fld w 5 5) (fld w 10 12)⟩,
  ⟨0xffc00000#32, 0x2ac00000#32, fun w => .preld (fld w 0 5) (fld w 5 5) (fld w 10 12)⟩,
  ⟨0xffc00000#32, 0x2b000000#32, fun w => .fldS (fld w 0 5) (fld w 5 5) (fld w 10 12)⟩,
  ⟨0xffc00000#32, 0x2b400000#32, fun w => .fstS (fld w 0 5) (fld w 5 5) (fld w 10 12)⟩,
  ⟨0xffc00000#32, 0x2b800000#32, fun w => .fldD (fld w 0 5) (fld w 5 5) (fld w 10 12)⟩,
  ⟨0xffc00000#32, 0x2bc00000#32, fun w => .fstD (fld w 0 5) (fld w 5 5) (fld w 10 12)⟩,
  ⟨0xffff8000#32, 0x38000000#32, fun w => .ldxB (fld w 0 5) (fld w 5 5) (fld w 10 5)⟩,
  ⟨0xffff8000#32, 0x38040000#32, fun w => .ldxH (fld w 0 5) (fld w 5 5) (fld w 10 5)⟩,
  ⟨0xffff8000#32, 0x38080000#32, fun w => .ldxW (fld w 0 5) (fld w 5 5) (fld w 10 5)⟩,
  ⟨0xffff8000#32, 0x380c0000#32, fun w => .ldxD (fld w 0 5) (fld w 5 5) (fld w 10 5)⟩,
  ⟨0xffff8000#32, 0x38100000#32, fun w => .stxB (fld w 0 5) (fld w 5 5) (fld w 10 5)⟩,
  ⟨0xffff8000#32, 0x38140000#32, fun w => .stxH (fld w 0 5) (fld w 5 5) (fld w 10 5)⟩,
  ⟨0xffff8000#32, 0x38180000#32, fun w => .stxW (fld w 0 5) (fld w 5 5) (fld w 10 5)⟩,
  ⟨0xffff8000#32, 0x381c0000#32, fun w => .stxD (fld w 0 5) (fld w 5 5) (fld w 10 5)⟩,
  ⟨0xffff8000#32, 0x38200000#32, fun w => .ldxBu (fld w 0 5) (fld w 5 5) (fld w 10 5)⟩,
  ⟨0xffff8000#32, 0x38240000#32, fun w => .ldxHu (fld w 0 5) (fld w 5 5) (fld w 10 5)⟩,
  ⟨0xffff8000#32, 0x38280000#32, fun w => .ldxWu (fld w 0 5) (fld w 5 5) (fld w 10 5)⟩,
  ⟨0xffff8000#32, 0x382c0000#32, fun w => .preldx (fld w 0 5) (fld w 5 5) (fld w 10 5)⟩,
  ⟨0xffff8000#32, 0x38300000#32, fun w => .fldxS (fld w 0 5) (fld w 5 5) (fld w 10 5)⟩]

/-- Rows 301 to 350 of spec/opcode_table.json. -/
noncomputable def rows7 : List Row := [
  ⟨0xffff8000#32, 0x38340000#32, fun w => .fldxD (fld w 0 5) (fld w 5 5) (fld w 10 5)⟩,
  ⟨0xffff8000#32, 0x38380000#32, fun w => .fstxS (fld w 0 5) (fld w 5 5) (fld w 10 5)⟩,
  ⟨0xffff8000#32, 0x383c0000#32, fun w => .fstxD (fld w 0 5) (fld w 5 5) (fld w 10 5)⟩,
  ⟨0xffff8000#32, 0x38570000#32, fun w => .scQ (fld w 0 5) (fld w 5 5) (fld w 10 5)⟩,
  ⟨0xfffffc00#32, 0x38578000#32, fun w => .llacqW (fld w 0 5) (fld w 5 5)⟩,
  ⟨0xfffffc00#32, 0x38578400#32, fun w => .screlW (fld w 0 5) (fld w 5 5)⟩,
  ⟨0xfffffc00#32, 0x38578800#32, fun w => .llacqD (fld w 0 5) (fld w 5 5)⟩,
  ⟨0xfffffc00#32, 0x38578c00#32, fun w => .screlD (fld w 0 5) (fld w 5 5)⟩,
  ⟨0xffff8000#32, 0x38580000#32, fun w => .amcasB (fld w 0 5) (fld w 5 5) (fld w 10 5)⟩,
  ⟨0xffff8000#32, 0x38588000#32, fun w => .amcasH (fld w 0 5) (fld w 5 5) (fld w 10 5)⟩,
  ⟨0xffff8000#32, 0x38590000#32, fun w => .amcasW (fld w 0 5) (fld w 5 5) (fld w 10 5)⟩,
  ⟨0xffff8000#32, 0x38598000#32, fun w => .amcasD (fld w 0 5) (fld w 5 5) (fld w 10 5)⟩,
  ⟨0xffff8000#32, 0x385a0000#32, fun w => .amcasDbB (fld w 0 5) (fld w 5 5) (fld w 10 5)⟩,
  ⟨0xffff8000#32, 0x385a8000#32, fun w => .amcasDbH (fld w 0 5) (fld w 5 5) (fld w 10 5)⟩,
  ⟨0xffff8000#32, 0x385b0000#32, fun w => .amcasDbW (fld w 0 5) (fld w 5 5) (fld w 10 5)⟩,
  ⟨0xffff8000#32, 0x385b8000#32, fun w => .amcasDbD (fld w 0 5) (fld w 5 5) (fld w 10 5)⟩,
  ⟨0xffff8000#32, 0x385c0000#32, fun w => .amswapB (fld w 0 5) (fld w 5 5) (fld w 10 5)⟩,
  ⟨0xffff8000#32, 0x385c8000#32, fun w => .amswapH (fld w 0 5) (fld w 5 5) (fld w 10 5)⟩,
  ⟨0xffff8000#32, 0x385d0000#32, fun w => .amaddB (fld w 0 5) (fld w 5 5) (fld w 10 5)⟩,
  ⟨0xffff8000#32, 0x385d8000#32, fun w => .amaddH (fld w 0 5) (fld w 5 5) (fld w 10 5)⟩,
  ⟨0xffff8000#32, 0x385e0000#32, fun w => .amswapDbB (fld w 0 5) (fld w 5 5) (fld w 10 5)⟩,
  ⟨0xffff8000#32, 0x385e8000#32, fun w => .amswapDbH (fld w 0 5) (fld w 5 5) (fld w 10 5)⟩,
  ⟨0xffff8000#32, 0x385f0000#32, fun w => .amaddDbB (fld w 0 5) (fld w 5 5) (fld w 10 5)⟩,
  ⟨0xffff8000#32, 0x385f8000#32, fun w => .amaddDbH (fld w 0 5) (fld w 5 5) (fld w 10 5)⟩,
  ⟨0xffff8000#32, 0x38600000#32, fun w => .amswapW (fld w 0 5) (fld w 5 5) (fld w 10 5)⟩,
  ⟨0xffff8000#32, 0x38608000#32, fun w => .amswapD (fld w 0 5) (fld w 5 5) (fld w 10 5)⟩,
  ⟨0xffff8000#32, 0x38610000#32, fun w => .amaddW (fld w 0 5) (fld w 5 5) (fld w 10 5)⟩,
  ⟨0xffff8000#32, 0x38618000#32, fun w => .amaddD (fld w 0 5) (fld w 5 5) (fld w 10 5)⟩,
  ⟨0xffff8000#32, 0x38620000#32, fun w => .amandW (fld w 0 5) (fld w 5 5) (fld w 10 5)⟩,
  ⟨0xffff8000#32, 0x38628000#32, fun w => .amandD (fld w 0 5) (fld w 5 5) (fld w 10 5)⟩,
  ⟨0xffff8000#32, 0x38630000#32, fun w => .amorW (fld w 0 5) (fld w 5 5) (fld w 10 5)⟩,
  ⟨0xffff8000#32, 0x38638000#32, fun w => .amorD (fld w 0 5) (fld w 5 5) (fld w 10 5)⟩,
  ⟨0xffff8000#32, 0x38640000#32, fun w => .amxorW (fld w 0 5) (fld w 5 5) (fld w 10 5)⟩,
  ⟨0xffff8000#32, 0x38648000#32, fun w => .amxorD (fld w 0 5) (fld w 5 5) (fld w 10 5)⟩,
  ⟨0xffff8000#32, 0x38650000#32, fun w => .ammaxW (fld w 0 5) (fld w 5 5) (fld w 10 5)⟩,
  ⟨0xffff8000#32, 0x38658000#32, fun w => .ammaxD (fld w 0 5) (fld w 5 5) (fld w 10 5)⟩,
  ⟨0xffff8000#32, 0x38660000#32, fun w => .amminW (fld w 0 5) (fld w 5 5) (fld w 10 5)⟩,
  ⟨0xffff8000#32, 0x38668000#32, fun w => .amminD (fld w 0 5) (fld w 5 5) (fld w 10 5)⟩,
  ⟨0xffff8000#32, 0x38670000#32, fun w => .ammaxWu (fld w 0 5) (fld w 5 5) (fld w 10 5)⟩,
  ⟨0xffff8000#32, 0x38678000#32, fun w => .ammaxDu (fld w 0 5) (fld w 5 5) (fld w 10 5)⟩,
  ⟨0xffff8000#32, 0x38680000#32, fun w => .amminWu (fld w 0 5) (fld w 5 5) (fld w 10 5)⟩,
  ⟨0xffff8000#32, 0x38688000#32, fun w => .amminDu (fld w 0 5) (fld w 5 5) (fld w 10 5)⟩,
  ⟨0xffff8000#32, 0x38690000#32, fun w => .amswapDbW (fld w 0 5) (fld w 5 5) (fld w 10 5)⟩,
  ⟨0xffff8000#32, 0x38698000#32, fun w => .amswapDbD (fld w 0 5) (fld w 5 5) (fld w 10 5)⟩,
  ⟨0xffff8000#32, 0x386a0000#32, fun w => .amaddDbW (fld w 0 5) (fld w 5 5) (fld w 10 5)⟩,
  ⟨0xffff8000#32, 0x386a8000#32, fun w => .amaddDbD (fld w 0 5) (fld w 5 5) (fld w 10 5)⟩,
  ⟨0xffff8000#32, 0x386b0000#32, fun w => .amandDbW (fld w 0 5) (fld w 5 5) (fld w 10 5)⟩,
  ⟨0xffff8000#32, 0x386b8000#32, fun w => .amandDbD (fld w 0 5) (fld w 5 5) (fld w 10 5)⟩,
  ⟨0xffff8000#32, 0x386c0000#32, fun w => .amorDbW (fld w 0 5) (fld w 5 5) (fld w 10 5)⟩,
  ⟨0xffff8000#32, 0x386c8000#32, fun w => .amorDbD (fld w 0 5) (fld w 5 5) (fld w 10 5)⟩]

/-- Rows 351 to 399 of spec/opcode_table.json. -/
noncomputable def rows8 : List Row := [
  ⟨0xffff8000#32, 0x386d0000#32, fun w => .amxorDbW (fld w 0 5) (fld w 5 5) (fld w 10 5)⟩,
  ⟨0xffff8000#32, 0x386d8000#32, fun w => .amxorDbD (fld w 0 5) (fld w 5 5) (fld w 10 5)⟩,
  ⟨0xffff8000#32, 0x386e0000#32, fun w => .ammaxDbW (fld w 0 5) (fld w 5 5) (fld w 10 5)⟩,
  ⟨0xffff8000#32, 0x386e8000#32, fun w => .ammaxDbD (fld w 0 5) (fld w 5 5) (fld w 10 5)⟩,
  ⟨0xffff8000#32, 0x386f0000#32, fun w => .amminDbW (fld w 0 5) (fld w 5 5) (fld w 10 5)⟩,
  ⟨0xffff8000#32, 0x386f8000#32, fun w => .amminDbD (fld w 0 5) (fld w 5 5) (fld w 10 5)⟩,
  ⟨0xffff8000#32, 0x38700000#32, fun w => .ammaxDbWu (fld w 0 5) (fld w 5 5) (fld w 10 5)⟩,
  ⟨0xffff8000#32, 0x38708000#32, fun w => .ammaxDbDu (fld w 0 5) (fld w 5 5) (fld w 10 5)⟩,
  ⟨0xffff8000#32, 0x38710000#32, fun w => .amminDbWu (fld w 0 5) (fld w 5 5) (fld w 10 5)⟩,
  ⟨0xffff8000#32, 0x38718000#32, fun w => .amminDbDu (fld w 0 5) (fld w 5 5) (fld w 10 5)⟩,
  ⟨0xffff8000#32, 0x38720000#32, fun w => .dbar (fld w 0 15)⟩,
  ⟨0xffff8000#32, 0x38728000#32, fun w => .ibar (fld w 0 15)⟩,
  ⟨0xffff8000#32, 0x38740000#32, fun w => .fldgtS (fld w 0 5) (fld w 5 5) (fld w 10 5)⟩,
  ⟨0xffff8000#32, 0x38748000#32, fun w => .fldgtD (fld w 0 5) (fld w 5 5) (fld w 10 5)⟩,
  ⟨0xffff8000#32, 0x38750000#32, fun w => .fldleS (fld w 0 5) (fld w 5 5) (fld w 10 5)⟩,
  ⟨0xffff8000#32, 0x38758000#32, fun w => .fldleD (fld w 0 5) (fld w 5 5) (fld w 10 5)⟩,
  ⟨0xffff8000#32, 0x38760000#32, fun w => .fstgtS (fld w 0 5) (fld w 5 5) (fld w 10 5)⟩,
  ⟨0xffff8000#32, 0x38768000#32, fun w => .fstgtD (fld w 0 5) (fld w 5 5) (fld w 10 5)⟩,
  ⟨0xffff8000#32, 0x38770000#32, fun w => .fstleS (fld w 0 5) (fld w 5 5) (fld w 10 5)⟩,
  ⟨0xffff8000#32, 0x38778000#32, fun w => .fstleD (fld w 0 5) (fld w 5 5) (fld w 10 5)⟩,
  ⟨0xffff8000#32, 0x38780000#32, fun w => .ldgtB (fld w 0 5) (fld w 5 5) (fld w 10 5)⟩,
  ⟨0xffff8000#32, 0x38788000#32, fun w => .ldgtH (fld w 0 5) (fld w 5 5) (fld w 10 5)⟩,
  ⟨0xffff8000#32, 0x38790000#32, fun w => .ldgtW (fld w 0 5) (fld w 5 5) (fld w 10 5)⟩,
  ⟨0xffff8000#32, 0x38798000#32, fun w => .ldgtD (fld w 0 5) (fld w 5 5) (fld w 10 5)⟩,
  ⟨0xffff8000#32, 0x387a0000#32, fun w => .ldleB (fld w 0 5) (fld w 5 5) (fld w 10 5)⟩,
  ⟨0xffff8000#32, 0x387a8000#32, fun w => .ldleH (fld w 0 5) (fld w 5 5) (fld w 10 5)⟩,
  ⟨0xffff8000#32, 0x387b0000#32, fun w => .ldleW (fld w 0 5) (fld w 5 5) (fld w 10 5)⟩,
  ⟨0xffff8000#32, 0x387b8000#32, fun w => .ldleD (fld w 0 5) (fld w 5 5) (fld w 10 5)⟩,
  ⟨0xffff8000#32, 0x387c0000#32, fun w => .stgtB (fld w 0 5) (fld w 5 5) (fld w 10 5)⟩,
  ⟨0xffff8000#32, 0x387c8000#32, fun w => .stgtH (fld w 0 5) (fld w 5 5) (fld w 10 5)⟩,
  ⟨0xffff8000#32, 0x387d0000#32, fun w => .stgtW (fld w 0 5) (fld w 5 5) (fld w 10 5)⟩,
  ⟨0xffff8000#32, 0x387d8000#32, fun w => .stgtD (fld w 0 5) (fld w 5 5) (fld w 10 5)⟩,
  ⟨0xffff8000#32, 0x387e0000#32, fun w => .stleB (fld w 0 5) (fld w 5 5) (fld w 10 5)⟩,
  ⟨0xffff8000#32, 0x387e8000#32, fun w => .stleH (fld w 0 5) (fld w 5 5) (fld w 10 5)⟩,
  ⟨0xffff8000#32, 0x387f0000#32, fun w => .stleW (fld w 0 5) (fld w 5 5) (fld w 10 5)⟩,
  ⟨0xffff8000#32, 0x387f8000#32, fun w => .stleD (fld w 0 5) (fld w 5 5) (fld w 10 5)⟩,
  ⟨0xfc000000#32, 0x40000000#32, fun w => .beqz (fld w 5 5) (fld w 0 5 ++ fld w 10 16)⟩,
  ⟨0xfc000000#32, 0x44000000#32, fun w => .bnez (fld w 5 5) (fld w 0 5 ++ fld w 10 16)⟩,
  ⟨0xfc000300#32, 0x48000000#32, fun w => .bceqz (fld w 5 3) (fld w 0 5 ++ fld w 10 16)⟩,
  ⟨0xfc000300#32, 0x48000100#32, fun w => .bcnez (fld w 5 3) (fld w 0 5 ++ fld w 10 16)⟩,
  ⟨0xfc000000#32, 0x4c000000#32, fun w => .jirl (fld w 0 5) (fld w 5 5) (fld w 10 16)⟩,
  ⟨0xfc000000#32, 0x50000000#32, fun w => .b (fld w 0 10 ++ fld w 10 16)⟩,
  ⟨0xfc000000#32, 0x54000000#32, fun w => .bl (fld w 0 10 ++ fld w 10 16)⟩,
  ⟨0xfc000000#32, 0x58000000#32, fun w => .beq (fld w 5 5) (fld w 0 5) (fld w 10 16)⟩,
  ⟨0xfc000000#32, 0x5c000000#32, fun w => .bne (fld w 5 5) (fld w 0 5) (fld w 10 16)⟩,
  ⟨0xfc000000#32, 0x60000000#32, fun w => .blt (fld w 5 5) (fld w 0 5) (fld w 10 16)⟩,
  ⟨0xfc000000#32, 0x64000000#32, fun w => .bge (fld w 5 5) (fld w 0 5) (fld w 10 16)⟩,
  ⟨0xfc000000#32, 0x68000000#32, fun w => .bltu (fld w 5 5) (fld w 0 5) (fld w 10 16)⟩,
  ⟨0xfc000000#32, 0x6c000000#32, fun w => .bgeu (fld w 5 5) (fld w 0 5) (fld w 10 16)⟩]

/-- All the rows, in the table's order. -/
noncomputable def opcodeRows : List Row :=
  rows1 ++ rows2 ++ rows3 ++ rows4 ++ rows5 ++ rows6 ++ rows7 ++ rows8

/-- Does the word match the row's pattern? -/
def Row.hits (r : Row) (w : BitVec 32) : Bool := w &&& r.mask == r.bits

/-- The instruction that a 32-bit word is, or none: an undefined word (30_encoding.md R320). -/
noncomputable def decode (w : BitVec 32) : Option Instr :=
  (opcodeRows.find? (·.hits w)).map (·.build w)

/-- The little-endian value of the first `n` bytes of a list; an absent byte is 0 (20_memory.md R203). -/
def leWord : Nat → List Byte → BitVec 32
  | 0, _ => 0
  | n + 1, bs => (leWord n bs.tail <<< 8) ||| (bs.headD 0).setWidth 32

/-- An instruction is the little-endian word of its four bytes (20_memory.md R205). -/
noncomputable def decodeBytes (bs : List Byte) : Option Instr := decode (leWord 4 bs)

/-- The `n` bytes of a value as the hardware stores them, lowest first (20_memory.md R203). -/
def leBytes : Nat → Nat → List Byte
  | 0, _ => []
  | n + 1, v => BitVec.ofNat 8 v :: leBytes n (v / 256)

/-- The instruction read from the bits `w` of a table row, numbered as spec/opcode_table.json numbers them: every
instruction is one 32-bit word (30_encoding.md R300), so bits above `nbits` read 0. -/
noncomputable def decodeTableWord (nbits w : Nat) : Option Instr :=
  decodeBytes (leBytes 4 (w % 2 ^ nbits))

/-! The layouts of 30_encoding.md R302 to R315: the fixed leading bits, then the fields from the highest bit down. -/

/-- Layout `2R`. -/
def enc2R (op : BitVec 22) (f1 : BitVec 5) (f2 : BitVec 5) : BitVec 32 := op ++ f1 ++ f2
/-- Layout `Asrt`. -/
def encAsrt (op : BitVec 17) (f1 : BitVec 5) (f2 : BitVec 5) : BitVec 32 := op ++ f1 ++ f2 ++ 0#5
/-- Layout `3RSA2`. -/
def enc3RSA2 (op : BitVec 15) (f1 : BitVec 2) (f2 : BitVec 5) (f3 : BitVec 5) (f4 : BitVec 5) : BitVec 32 := op ++ f1 ++ f2 ++ f3 ++ f4
/-- Layout `3RSA3`. -/
def enc3RSA3 (op : BitVec 14) (f1 : BitVec 3) (f2 : BitVec 5) (f3 : BitVec 5) (f4 : BitVec 5) : BitVec 32 := op ++ f1 ++ f2 ++ f3 ++ f4
/-- Layout `3R`. -/
def enc3R (op : BitVec 17) (f1 : BitVec 5) (f2 : BitVec 5) (f3 : BitVec 5) : BitVec 32 := op ++ f1 ++ f2 ++ f3
/-- Layout `Code15`. -/
def encCode15 (op : BitVec 17) (f1 : BitVec 15) : BitVec 32 := op ++ f1
/-- Layout `2RUI6`. -/
def enc2RUI6 (op : BitVec 16) (f1 : BitVec 6) (f2 : BitVec 5) (f3 : BitVec 5) : BitVec 32 := op ++ f1 ++ f2 ++ f3
/-- Layout `BstrinsW`. -/
def encBstrinsW (op : BitVec 11) (f1 : BitVec 5) (f2 : BitVec 5) (f3 : BitVec 5) (f4 : BitVec 5) : BitVec 32 := op ++ f1 ++ 0#1 ++ f2 ++ f3 ++ f4
/-- Layout `BstrpickW`. -/
def encBstrpickW (op : BitVec 11) (f1 : BitVec 5) (f2 : BitVec 5) (f3 : BitVec 5) (f4 : BitVec 5) : BitVec 32 := op ++ f1 ++ 1#1 ++ f2 ++ f3 ++ f4
/-- Layout `BstrD`. -/
def encBstrD (op : BitVec 10) (f1 : BitVec 6) (f2 : BitVec 6) (f3 : BitVec 5) (f4 : BitVec 5) : BitVec 32 := op ++ f1 ++ f2 ++ f3 ++ f4
/-- Layout `2RCd`. -/
def enc2RCd (op : BitVec 22) (f1 : BitVec 5) (f2 : BitVec 3) : BitVec 32 := op ++ f1 ++ 0#2 ++ f2
/-- Layout `2RCj`. -/
def enc2RCj (op : BitVec 24) (f1 : BitVec 3) (f2 : BitVec 5) : BitVec 32 := op ++ f1 ++ f2
/-- Layout `2RI12`. -/
def enc2RI12 (op : BitVec 10) (f1 : BitVec 12) (f2 : BitVec 5) (f3 : BitVec 5) : BitVec 32 := op ++ f1 ++ f2 ++ f3
/-- Layout `Csrrd`. -/
def encCsrrd (op : BitVec 8) (f1 : BitVec 14) (f2 : BitVec 5) : BitVec 32 := op ++ f1 ++ 0#5 ++ f2
/-- Layout `Csrwr`. -/
def encCsrwr (op : BitVec 8) (f1 : BitVec 14) (f2 : BitVec 5) : BitVec 32 := op ++ f1 ++ 1#5 ++ f2
/-- Layout `2RI14`. -/
def enc2RI14 (op : BitVec 8) (f1 : BitVec 14) (f2 : BitVec 5) (f3 : BitVec 5) : BitVec 32 := op ++ f1 ++ f2 ++ f3
/-- Layout `2RI8`. -/
def enc2RI8 (op : BitVec 14) (f1 : BitVec 8) (f2 : BitVec 5) (f3 : BitVec 5) : BitVec 32 := op ++ f1 ++ f2 ++ f3
/-- Layout `Ldpte`. -/
def encLdpte (op : BitVec 14) (f1 : BitVec 8) (f2 : BitVec 5) : BitVec 32 := op ++ f1 ++ f2 ++ 0#5
/-- Layout `None`. -/
def encNone (op : BitVec 32) : BitVec 32 := op
/-- Layout `4R`. -/
def enc4R (op : BitVec 12) (f1 : BitVec 5) (f2 : BitVec 5) (f3 : BitVec 5) (f4 : BitVec 5) : BitVec 32 := op ++ f1 ++ f2 ++ f3 ++ f4
/-- Layout `Fcmp`. -/
def encFcmp (op : BitVec 17) (f1 : BitVec 5) (f2 : BitVec 5) (f3 : BitVec 3) : BitVec 32 := op ++ f1 ++ f2 ++ 0#2 ++ f3
/-- Layout `2RI16`. -/
def enc2RI16 (op : BitVec 6) (f1 : BitVec 16) (f2 : BitVec 5) (f3 : BitVec 5) : BitVec 32 := op ++ f1 ++ f2 ++ f3
/-- Layout `1RI20`. -/
def enc1RI20 (op : BitVec 7) (f1 : BitVec 20) (f2 : BitVec 5) : BitVec 32 := op ++ f1 ++ f2
/-- Layout `Bceqz`. -/
def encBceqz (op : BitVec 6) (f1 : BitVec 16) (f2 : BitVec 3) (f3 : BitVec 5) : BitVec 32 := op ++ f1 ++ 0#2 ++ f2 ++ f3
/-- Layout `Bcnez`. -/
def encBcnez (op : BitVec 6) (f1 : BitVec 16) (f2 : BitVec 3) (f3 : BitVec 5) : BitVec 32 := op ++ f1 ++ 1#2 ++ f2 ++ f3
/-- Layout `I26`. -/
def encI26 (op : BitVec 6) (f1 : BitVec 16) (f2 : BitVec 10) : BitVec 32 := op ++ f1 ++ f2

/-- The word of an instruction (spec/opcode_table.json; 30_encoding.md R302 to R315). -/
def encode : Instr → BitVec 32
  | .cloW rd rj => enc2R 0x4#22 rj rd
  | .clzW rd rj => enc2R 0x5#22 rj rd
  | .ctoW rd rj => enc2R 0x6#22 rj rd
  | .ctzW rd rj => enc2R 0x7#22 rj rd
  | .cloD rd rj => enc2R 0x8#22 rj rd
  | .clzD rd rj => enc2R 0x9#22 rj rd
  | .ctoD rd rj => enc2R 0xa#22 rj rd
  | .ctzD rd rj => enc2R 0xb#22 rj rd
  | .revb2H rd rj => enc2R 0xc#22 rj rd
  | .revb4H rd rj => enc2R 0xd#22 rj rd
  | .revb2W rd rj => enc2R 0xe#22 rj rd
  | .revbD rd rj => enc2R 0xf#22 rj rd
  | .revh2W rd rj => enc2R 0x10#22 rj rd
  | .revhD rd rj => enc2R 0x11#22 rj rd
  | .bitrev4B rd rj => enc2R 0x12#22 rj rd
  | .bitrev8B rd rj => enc2R 0x13#22 rj rd
  | .bitrevW rd rj => enc2R 0x14#22 rj rd
  | .bitrevD rd rj => enc2R 0x15#22 rj rd
  | .extWH rd rj => enc2R 0x16#22 rj rd
  | .extWB rd rj => enc2R 0x17#22 rj rd
  | .rdtimelW rd rj => enc2R 0x18#22 rj rd
  | .rdtimehW rd rj => enc2R 0x19#22 rj rd
  | .rdtimeD rd rj => enc2R 0x1a#22 rj rd
  | .cpucfg rd rj => enc2R 0x1b#22 rj rd
  | .asrtleD rj rk => encAsrt 0x2#17 rk rj
  | .asrtgtD rj rk => encAsrt 0x3#17 rk rj
  | .alslW rd rj rk sa2 => enc3RSA2 0x2#15 sa2 rk rj rd
  | .alslWu rd rj rk sa2 => enc3RSA2 0x3#15 sa2 rk rj rd
  | .bytepickW rd rj rk sa2 => enc3RSA2 0x4#15 sa2 rk rj rd
  | .bytepickD rd rj rk sa3 => enc3RSA3 0x3#14 sa3 rk rj rd
  | .addW rd rj rk => enc3R 0x20#17 rk rj rd
  | .addD rd rj rk => enc3R 0x21#17 rk rj rd
  | .subW rd rj rk => enc3R 0x22#17 rk rj rd
  | .subD rd rj rk => enc3R 0x23#17 rk rj rd
  | .slt rd rj rk => enc3R 0x24#17 rk rj rd
  | .sltu rd rj rk => enc3R 0x25#17 rk rj rd
  | .maskeqz rd rj rk => enc3R 0x26#17 rk rj rd
  | .masknez rd rj rk => enc3R 0x27#17 rk rj rd
  | .nor rd rj rk => enc3R 0x28#17 rk rj rd
  | .and rd rj rk => enc3R 0x29#17 rk rj rd
  | .or rd rj rk => enc3R 0x2a#17 rk rj rd
  | .xor rd rj rk => enc3R 0x2b#17 rk rj rd
  | .orn rd rj rk => enc3R 0x2c#17 rk rj rd
  | .andn rd rj rk => enc3R 0x2d#17 rk rj rd
  | .sllW rd rj rk => enc3R 0x2e#17 rk rj rd
  | .srlW rd rj rk => enc3R 0x2f#17 rk rj rd
  | .sraW rd rj rk => enc3R 0x30#17 rk rj rd
  | .sllD rd rj rk => enc3R 0x31#17 rk rj rd
  | .srlD rd rj rk => enc3R 0x32#17 rk rj rd
  | .sraD rd rj rk => enc3R 0x33#17 rk rj rd
  | .rotrW rd rj rk => enc3R 0x36#17 rk rj rd
  | .rotrD rd rj rk => enc3R 0x37#17 rk rj rd
  | .mulW rd rj rk => enc3R 0x38#17 rk rj rd
  | .mulhW rd rj rk => enc3R 0x39#17 rk rj rd
  | .mulhWu rd rj rk => enc3R 0x3a#17 rk rj rd
  | .mulD rd rj rk => enc3R 0x3b#17 rk rj rd
  | .mulhD rd rj rk => enc3R 0x3c#17 rk rj rd
  | .mulhDu rd rj rk => enc3R 0x3d#17 rk rj rd
  | .mulwDW rd rj rk => enc3R 0x3e#17 rk rj rd
  | .mulwDWu rd rj rk => enc3R 0x3f#17 rk rj rd
  | .divW rd rj rk => enc3R 0x40#17 rk rj rd
  | .modW rd rj rk => enc3R 0x41#17 rk rj rd
  | .divWu rd rj rk => enc3R 0x42#17 rk rj rd
  | .modWu rd rj rk => enc3R 0x43#17 rk rj rd
  | .divD rd rj rk => enc3R 0x44#17 rk rj rd
  | .modD rd rj rk => enc3R 0x45#17 rk rj rd
  | .divDu rd rj rk => enc3R 0x46#17 rk rj rd
  | .modDu rd rj rk => enc3R 0x47#17 rk rj rd
  | .crcWBW rd rj rk => enc3R 0x48#17 rk rj rd
  | .crcWHW rd rj rk => enc3R 0x49#17 rk rj rd
  | .crcWWW rd rj rk => enc3R 0x4a#17 rk rj rd
  | .crcWDW rd rj rk => enc3R 0x4b#17 rk rj rd
  | .crccWBW rd rj rk => enc3R 0x4c#17 rk rj rd
  | .crccWHW rd rj rk => enc3R 0x4d#17 rk rj rd
  | .crccWWW rd rj rk => enc3R 0x4e#17 rk rj rd
  | .crccWDW rd rj rk => enc3R 0x4f#17 rk rj rd
  | .brk code => encCode15 0x54#17 code
  | .dbcl code => encCode15 0x55#17 code
  | .syscall code => encCode15 0x56#17 code
  | .alslD rd rj rk sa2 => enc3RSA2 0x16#15 sa2 rk rj rd
  | .slliW rd rj ui5 => enc3R 0x81#17 ui5 rj rd
  | .slliD rd rj ui6 => enc2RUI6 0x41#16 ui6 rj rd
  | .srliW rd rj ui5 => enc3R 0x89#17 ui5 rj rd
  | .srliD rd rj ui6 => enc2RUI6 0x45#16 ui6 rj rd
  | .sraiW rd rj ui5 => enc3R 0x91#17 ui5 rj rd
  | .sraiD rd rj ui6 => enc2RUI6 0x49#16 ui6 rj rd
  | .rotriW rd rj ui5 => enc3R 0x99#17 ui5 rj rd
  | .rotriD rd rj ui6 => enc2RUI6 0x4d#16 ui6 rj rd
  | .bstrinsW rd rj msbw lsbw => encBstrinsW 0x3#11 msbw lsbw rj rd
  | .bstrpickW rd rj msbw lsbw => encBstrpickW 0x3#11 msbw lsbw rj rd
  | .bstrinsD rd rj msbd lsbd => encBstrD 0x2#10 msbd lsbd rj rd
  | .bstrpickD rd rj msbd lsbd => encBstrD 0x3#10 msbd lsbd rj rd
  | .faddS fd fj fk => enc3R 0x201#17 fk fj fd
  | .faddD fd fj fk => enc3R 0x202#17 fk fj fd
  | .fsubS fd fj fk => enc3R 0x205#17 fk fj fd
  | .fsubD fd fj fk => enc3R 0x206#17 fk fj fd
  | .fmulS fd fj fk => enc3R 0x209#17 fk fj fd
  | .fmulD fd fj fk => enc3R 0x20a#17 fk fj fd
  | .fdivS fd fj fk => enc3R 0x20d#17 fk fj fd
  | .fdivD fd fj fk => enc3R 0x20e#17 fk fj fd
  | .fmaxS fd fj fk => enc3R 0x211#17 fk fj fd
  | .fmaxD fd fj fk => enc3R 0x212#17 fk fj fd
  | .fminS fd fj fk => enc3R 0x215#17 fk fj fd
  | .fminD fd fj fk => enc3R 0x216#17 fk fj fd
  | .fmaxaS fd fj fk => enc3R 0x219#17 fk fj fd
  | .fmaxaD fd fj fk => enc3R 0x21a#17 fk fj fd
  | .fminaS fd fj fk => enc3R 0x21d#17 fk fj fd
  | .fminaD fd fj fk => enc3R 0x21e#17 fk fj fd
  | .fscalebS fd fj fk => enc3R 0x221#17 fk fj fd
  | .fscalebD fd fj fk => enc3R 0x222#17 fk fj fd
  | .fcopysignS fd fj fk => enc3R 0x225#17 fk fj fd
  | .fcopysignD fd fj fk => enc3R 0x226#17 fk fj fd
  | .fabsS fd fj => enc2R 0x4501#22 fj fd
  | .fabsD fd fj => enc2R 0x4502#22 fj fd
  | .fnegS fd fj => enc2R 0x4505#22 fj fd
  | .fnegD fd fj => enc2R 0x4506#22 fj fd
  | .flogbS fd fj => enc2R 0x4509#22 fj fd
  | .flogbD fd fj => enc2R 0x450a#22 fj fd
  | .fclassS fd fj => enc2R 0x450d#22 fj fd
  | .fclassD fd fj => enc2R 0x450e#22 fj fd
  | .fsqrtS fd fj => enc2R 0x4511#22 fj fd
  | .fsqrtD fd fj => enc2R 0x4512#22 fj fd
  | .frecipS fd fj => enc2R 0x4515#22 fj fd
  | .frecipD fd fj => enc2R 0x4516#22 fj fd
  | .frsqrtS fd fj => enc2R 0x4519#22 fj fd
  | .frsqrtD fd fj => enc2R 0x451a#22 fj fd
  | .frecipeS fd fj => enc2R 0x451d#22 fj fd
  | .frecipeD fd fj => enc2R 0x451e#22 fj fd
  | .frsqrteS fd fj => enc2R 0x4521#22 fj fd
  | .frsqrteD fd fj => enc2R 0x4522#22 fj fd
  | .fmovS fd fj => enc2R 0x4525#22 fj fd
  | .fmovD fd fj => enc2R 0x4526#22 fj fd
  | .movgr2frW fd rj => enc2R 0x4529#22 rj fd
  | .movgr2frD fd rj => enc2R 0x452a#22 rj fd
  | .movgr2frhW fd rj => enc2R 0x452b#22 rj fd
  | .movfr2grS rd fj => enc2R 0x452d#22 fj rd
  | .movfr2grD rd fj => enc2R 0x452e#22 fj rd
  | .movfrh2grS rd fj => enc2R 0x452f#22 fj rd
  | .movgr2fcsr fcsr rj => enc2R 0x4530#22 rj fcsr
  | .movfcsr2gr rd fcsr => enc2R 0x4532#22 fcsr rd
  | .movfr2cf cd fj => enc2RCd 0x4534#22 fj cd
  | .movcf2fr fd cj => enc2RCj 0x114d4#24 cj fd
  | .movgr2cf cd rj => enc2RCd 0x4536#22 rj cd
  | .movcf2gr rd cj => enc2RCj 0x114dc#24 cj rd
  | .fcvtSD fd fj => enc2R 0x4646#22 fj fd
  | .fcvtDS fd fj => enc2R 0x4649#22 fj fd
  | .ftintrmWS fd fj => enc2R 0x4681#22 fj fd
  | .ftintrmWD fd fj => enc2R 0x4682#22 fj fd
  | .ftintrmLS fd fj => enc2R 0x4689#22 fj fd
  | .ftintrmLD fd fj => enc2R 0x468a#22 fj fd
  | .ftintrpWS fd fj => enc2R 0x4691#22 fj fd
  | .ftintrpWD fd fj => enc2R 0x4692#22 fj fd
  | .ftintrpLS fd fj => enc2R 0x4699#22 fj fd
  | .ftintrpLD fd fj => enc2R 0x469a#22 fj fd
  | .ftintrzWS fd fj => enc2R 0x46a1#22 fj fd
  | .ftintrzWD fd fj => enc2R 0x46a2#22 fj fd
  | .ftintrzLS fd fj => enc2R 0x46a9#22 fj fd
  | .ftintrzLD fd fj => enc2R 0x46aa#22 fj fd
  | .ftintrneWS fd fj => enc2R 0x46b1#22 fj fd
  | .ftintrneWD fd fj => enc2R 0x46b2#22 fj fd
  | .ftintrneLS fd fj => enc2R 0x46b9#22 fj fd
  | .ftintrneLD fd fj => enc2R 0x46ba#22 fj fd
  | .ftintWS fd fj => enc2R 0x46c1#22 fj fd
  | .ftintWD fd fj => enc2R 0x46c2#22 fj fd
  | .ftintLS fd fj => enc2R 0x46c9#22 fj fd
  | .ftintLD fd fj => enc2R 0x46ca#22 fj fd
  | .ffintSW fd fj => enc2R 0x4744#22 fj fd
  | .ffintSL fd fj => enc2R 0x4746#22 fj fd
  | .ffintDW fd fj => enc2R 0x4748#22 fj fd
  | .ffintDL fd fj => enc2R 0x474a#22 fj fd
  | .frintS fd fj => enc2R 0x4791#22 fj fd
  | .frintD fd fj => enc2R 0x4792#22 fj fd
  | .slti rd rj si12 => enc2RI12 0x8#10 si12 rj rd
  | .sltui rd rj si12 => enc2RI12 0x9#10 si12 rj rd
  | .addiW rd rj si12 => enc2RI12 0xa#10 si12 rj rd
  | .addiD rd rj si12 => enc2RI12 0xb#10 si12 rj rd
  | .lu52iD rd rj si12 => enc2RI12 0xc#10 si12 rj rd
  | .andi rd rj ui12 => enc2RI12 0xd#10 ui12 rj rd
  | .ori rd rj ui12 => enc2RI12 0xe#10 ui12 rj rd
  | .xori rd rj ui12 => enc2RI12 0xf#10 ui12 rj rd
  | .csrrd rd csr => encCsrrd 0x4#8 csr rd
  | .csrwr rd csr => encCsrwr 0x4#8 csr rd
  | .csrxchg rd rj csr => enc2RI14 0x4#8 csr rj rd
  | .cacop op rj si12 => enc2RI12 0x18#10 si12 rj op
  | .lddir rd rj level => enc2RI8 0x190#14 level rj rd
  | .ldpte rj seq => encLdpte 0x191#14 seq rj
  | .iocsrrdB rd rj => enc2R 0x19200#22 rj rd
  | .iocsrrdH rd rj => enc2R 0x19201#22 rj rd
  | .iocsrrdW rd rj => enc2R 0x19202#22 rj rd
  | .iocsrrdD rd rj => enc2R 0x19203#22 rj rd
  | .iocsrwrB rd rj => enc2R 0x19204#22 rj rd
  | .iocsrwrH rd rj => enc2R 0x19205#22 rj rd
  | .iocsrwrW rd rj => enc2R 0x19206#22 rj rd
  | .iocsrwrD rd rj => enc2R 0x19207#22 rj rd
  | .tlbclr => encNone 0x6482000#32
  | .tlbflush => encNone 0x6482400#32
  | .tlbsrch => encNone 0x6482800#32
  | .tlbrd => encNone 0x6482c00#32
  | .tlbwr => encNone 0x6483000#32
  | .tlbfill => encNone 0x6483400#32
  | .ertn => encNone 0x6483800#32
  | .idle hint => encCode15 0xc91#17 hint
  | .invtlb op rj rk => enc3R 0xc93#17 rk rj op
  | .fmaddS fd fj fk fa => enc4R 0x81#12 fa fk fj fd
  | .fmaddD fd fj fk fa => enc4R 0x82#12 fa fk fj fd
  | .fmsubS fd fj fk fa => enc4R 0x85#12 fa fk fj fd
  | .fmsubD fd fj fk fa => enc4R 0x86#12 fa fk fj fd
  | .fnmaddS fd fj fk fa => enc4R 0x89#12 fa fk fj fd
  | .fnmaddD fd fj fk fa => enc4R 0x8a#12 fa fk fj fd
  | .fnmsubS fd fj fk fa => enc4R 0x8d#12 fa fk fj fd
  | .fnmsubD fd fj fk fa => enc4R 0x8e#12 fa fk fj fd
  | .fcmpCafS cd fj fk => encFcmp 0x1820#17 fk fj cd
  | .fcmpSafS cd fj fk => encFcmp 0x1821#17 fk fj cd
  | .fcmpCltS cd fj fk => encFcmp 0x1822#17 fk fj cd
  | .fcmpSltS cd fj fk => encFcmp 0x1823#17 fk fj cd
  | .fcmpCeqS cd fj fk => encFcmp 0x1824#17 fk fj cd
  | .fcmpSeqS cd fj fk => encFcmp 0x1825#17 fk fj cd
  | .fcmpCleS cd fj fk => encFcmp 0x1826#17 fk fj cd
  | .fcmpSleS cd fj fk => encFcmp 0x1827#17 fk fj cd
  | .fcmpCunS cd fj fk => encFcmp 0x1828#17 fk fj cd
  | .fcmpSunS cd fj fk => encFcmp 0x1829#17 fk fj cd
  | .fcmpCultS cd fj fk => encFcmp 0x182a#17 fk fj cd
  | .fcmpSultS cd fj fk => encFcmp 0x182b#17 fk fj cd
  | .fcmpCueqS cd fj fk => encFcmp 0x182c#17 fk fj cd
  | .fcmpSueqS cd fj fk => encFcmp 0x182d#17 fk fj cd
  | .fcmpCuleS cd fj fk => encFcmp 0x182e#17 fk fj cd
  | .fcmpSuleS cd fj fk => encFcmp 0x182f#17 fk fj cd
  | .fcmpCneS cd fj fk => encFcmp 0x1830#17 fk fj cd
  | .fcmpSneS cd fj fk => encFcmp 0x1831#17 fk fj cd
  | .fcmpCorS cd fj fk => encFcmp 0x1834#17 fk fj cd
  | .fcmpSorS cd fj fk => encFcmp 0x1835#17 fk fj cd
  | .fcmpCuneS cd fj fk => encFcmp 0x1838#17 fk fj cd
  | .fcmpSuneS cd fj fk => encFcmp 0x1839#17 fk fj cd
  | .fcmpCafD cd fj fk => encFcmp 0x1840#17 fk fj cd
  | .fcmpSafD cd fj fk => encFcmp 0x1841#17 fk fj cd
  | .fcmpCltD cd fj fk => encFcmp 0x1842#17 fk fj cd
  | .fcmpSltD cd fj fk => encFcmp 0x1843#17 fk fj cd
  | .fcmpCeqD cd fj fk => encFcmp 0x1844#17 fk fj cd
  | .fcmpSeqD cd fj fk => encFcmp 0x1845#17 fk fj cd
  | .fcmpCleD cd fj fk => encFcmp 0x1846#17 fk fj cd
  | .fcmpSleD cd fj fk => encFcmp 0x1847#17 fk fj cd
  | .fcmpCunD cd fj fk => encFcmp 0x1848#17 fk fj cd
  | .fcmpSunD cd fj fk => encFcmp 0x1849#17 fk fj cd
  | .fcmpCultD cd fj fk => encFcmp 0x184a#17 fk fj cd
  | .fcmpSultD cd fj fk => encFcmp 0x184b#17 fk fj cd
  | .fcmpCueqD cd fj fk => encFcmp 0x184c#17 fk fj cd
  | .fcmpSueqD cd fj fk => encFcmp 0x184d#17 fk fj cd
  | .fcmpCuleD cd fj fk => encFcmp 0x184e#17 fk fj cd
  | .fcmpSuleD cd fj fk => encFcmp 0x184f#17 fk fj cd
  | .fcmpCneD cd fj fk => encFcmp 0x1850#17 fk fj cd
  | .fcmpSneD cd fj fk => encFcmp 0x1851#17 fk fj cd
  | .fcmpCorD cd fj fk => encFcmp 0x1854#17 fk fj cd
  | .fcmpSorD cd fj fk => encFcmp 0x1855#17 fk fj cd
  | .fcmpCuneD cd fj fk => encFcmp 0x1858#17 fk fj cd
  | .fcmpSuneD cd fj fk => encFcmp 0x1859#17 fk fj cd
  | .fsel fd fj fk ca => enc3RSA3 0x340#14 ca fk fj fd
  | .addu16iD rd rj si16 => enc2RI16 0x4#6 si16 rj rd
  | .lu12iW rd si20 => enc1RI20 0xa#7 si20 rd
  | .lu32iD rd si20 => enc1RI20 0xb#7 si20 rd
  | .pcaddi rd si20 => enc1RI20 0xc#7 si20 rd
  | .pcalau12i rd si20 => enc1RI20 0xd#7 si20 rd
  | .pcaddu12i rd si20 => enc1RI20 0xe#7 si20 rd
  | .pcaddu18i rd si20 => enc1RI20 0xf#7 si20 rd
  | .llW rd rj si14 => enc2RI14 0x20#8 si14 rj rd
  | .scW rd rj si14 => enc2RI14 0x21#8 si14 rj rd
  | .llD rd rj si14 => enc2RI14 0x22#8 si14 rj rd
  | .scD rd rj si14 => enc2RI14 0x23#8 si14 rj rd
  | .ldptrW rd rj si14 => enc2RI14 0x24#8 si14 rj rd
  | .stptrW rd rj si14 => enc2RI14 0x25#8 si14 rj rd
  | .ldptrD rd rj si14 => enc2RI14 0x26#8 si14 rj rd
  | .stptrD rd rj si14 => enc2RI14 0x27#8 si14 rj rd
  | .ldB rd rj si12 => enc2RI12 0xa0#10 si12 rj rd
  | .ldH rd rj si12 => enc2RI12 0xa1#10 si12 rj rd
  | .ldW rd rj si12 => enc2RI12 0xa2#10 si12 rj rd
  | .ldD rd rj si12 => enc2RI12 0xa3#10 si12 rj rd
  | .stB rd rj si12 => enc2RI12 0xa4#10 si12 rj rd
  | .stH rd rj si12 => enc2RI12 0xa5#10 si12 rj rd
  | .stW rd rj si12 => enc2RI12 0xa6#10 si12 rj rd
  | .stD rd rj si12 => enc2RI12 0xa7#10 si12 rj rd
  | .ldBu rd rj si12 => enc2RI12 0xa8#10 si12 rj rd
  | .ldHu rd rj si12 => enc2RI12 0xa9#10 si12 rj rd
  | .ldWu rd rj si12 => enc2RI12 0xaa#10 si12 rj rd
  | .preld hint rj si12 => enc2RI12 0xab#10 si12 rj hint
  | .fldS fd rj si12 => enc2RI12 0xac#10 si12 rj fd
  | .fstS fd rj si12 => enc2RI12 0xad#10 si12 rj fd
  | .fldD fd rj si12 => enc2RI12 0xae#10 si12 rj fd
  | .fstD fd rj si12 => enc2RI12 0xaf#10 si12 rj fd
  | .ldxB rd rj rk => enc3R 0x7000#17 rk rj rd
  | .ldxH rd rj rk => enc3R 0x7008#17 rk rj rd
  | .ldxW rd rj rk => enc3R 0x7010#17 rk rj rd
  | .ldxD rd rj rk => enc3R 0x7018#17 rk rj rd
  | .stxB rd rj rk => enc3R 0x7020#17 rk rj rd
  | .stxH rd rj rk => enc3R 0x7028#17 rk rj rd
  | .stxW rd rj rk => enc3R 0x7030#17 rk rj rd
  | .stxD rd rj rk => enc3R 0x7038#17 rk rj rd
  | .ldxBu rd rj rk => enc3R 0x7040#17 rk rj rd
  | .ldxHu rd rj rk => enc3R 0x7048#17 rk rj rd
  | .ldxWu rd rj rk => enc3R 0x7050#17 rk rj rd
  | .preldx hint rj rk => enc3R 0x7058#17 rk rj hint
  | .fldxS fd rj rk => enc3R 0x7060#17 rk rj fd
  | .fldxD fd rj rk => enc3R 0x7068#17 rk rj fd
  | .fstxS fd rj rk => enc3R 0x7070#17 rk rj fd
  | .fstxD fd rj rk => enc3R 0x7078#17 rk rj fd
  | .scQ rd rj rk => enc3R 0x70ae#17 rk rj rd
  | .llacqW rd rj => enc2R 0xe15e0#22 rj rd
  | .screlW rd rj => enc2R 0xe15e1#22 rj rd
  | .llacqD rd rj => enc2R 0xe15e2#22 rj rd
  | .screlD rd rj => enc2R 0xe15e3#22 rj rd
  | .amcasB rd rj rk => enc3R 0x70b0#17 rk rj rd
  | .amcasH rd rj rk => enc3R 0x70b1#17 rk rj rd
  | .amcasW rd rj rk => enc3R 0x70b2#17 rk rj rd
  | .amcasD rd rj rk => enc3R 0x70b3#17 rk rj rd
  | .amcasDbB rd rj rk => enc3R 0x70b4#17 rk rj rd
  | .amcasDbH rd rj rk => enc3R 0x70b5#17 rk rj rd
  | .amcasDbW rd rj rk => enc3R 0x70b6#17 rk rj rd
  | .amcasDbD rd rj rk => enc3R 0x70b7#17 rk rj rd
  | .amswapB rd rj rk => enc3R 0x70b8#17 rk rj rd
  | .amswapH rd rj rk => enc3R 0x70b9#17 rk rj rd
  | .amaddB rd rj rk => enc3R 0x70ba#17 rk rj rd
  | .amaddH rd rj rk => enc3R 0x70bb#17 rk rj rd
  | .amswapDbB rd rj rk => enc3R 0x70bc#17 rk rj rd
  | .amswapDbH rd rj rk => enc3R 0x70bd#17 rk rj rd
  | .amaddDbB rd rj rk => enc3R 0x70be#17 rk rj rd
  | .amaddDbH rd rj rk => enc3R 0x70bf#17 rk rj rd
  | .amswapW rd rj rk => enc3R 0x70c0#17 rk rj rd
  | .amswapD rd rj rk => enc3R 0x70c1#17 rk rj rd
  | .amaddW rd rj rk => enc3R 0x70c2#17 rk rj rd
  | .amaddD rd rj rk => enc3R 0x70c3#17 rk rj rd
  | .amandW rd rj rk => enc3R 0x70c4#17 rk rj rd
  | .amandD rd rj rk => enc3R 0x70c5#17 rk rj rd
  | .amorW rd rj rk => enc3R 0x70c6#17 rk rj rd
  | .amorD rd rj rk => enc3R 0x70c7#17 rk rj rd
  | .amxorW rd rj rk => enc3R 0x70c8#17 rk rj rd
  | .amxorD rd rj rk => enc3R 0x70c9#17 rk rj rd
  | .ammaxW rd rj rk => enc3R 0x70ca#17 rk rj rd
  | .ammaxD rd rj rk => enc3R 0x70cb#17 rk rj rd
  | .amminW rd rj rk => enc3R 0x70cc#17 rk rj rd
  | .amminD rd rj rk => enc3R 0x70cd#17 rk rj rd
  | .ammaxWu rd rj rk => enc3R 0x70ce#17 rk rj rd
  | .ammaxDu rd rj rk => enc3R 0x70cf#17 rk rj rd
  | .amminWu rd rj rk => enc3R 0x70d0#17 rk rj rd
  | .amminDu rd rj rk => enc3R 0x70d1#17 rk rj rd
  | .amswapDbW rd rj rk => enc3R 0x70d2#17 rk rj rd
  | .amswapDbD rd rj rk => enc3R 0x70d3#17 rk rj rd
  | .amaddDbW rd rj rk => enc3R 0x70d4#17 rk rj rd
  | .amaddDbD rd rj rk => enc3R 0x70d5#17 rk rj rd
  | .amandDbW rd rj rk => enc3R 0x70d6#17 rk rj rd
  | .amandDbD rd rj rk => enc3R 0x70d7#17 rk rj rd
  | .amorDbW rd rj rk => enc3R 0x70d8#17 rk rj rd
  | .amorDbD rd rj rk => enc3R 0x70d9#17 rk rj rd
  | .amxorDbW rd rj rk => enc3R 0x70da#17 rk rj rd
  | .amxorDbD rd rj rk => enc3R 0x70db#17 rk rj rd
  | .ammaxDbW rd rj rk => enc3R 0x70dc#17 rk rj rd
  | .ammaxDbD rd rj rk => enc3R 0x70dd#17 rk rj rd
  | .amminDbW rd rj rk => enc3R 0x70de#17 rk rj rd
  | .amminDbD rd rj rk => enc3R 0x70df#17 rk rj rd
  | .ammaxDbWu rd rj rk => enc3R 0x70e0#17 rk rj rd
  | .ammaxDbDu rd rj rk => enc3R 0x70e1#17 rk rj rd
  | .amminDbWu rd rj rk => enc3R 0x70e2#17 rk rj rd
  | .amminDbDu rd rj rk => enc3R 0x70e3#17 rk rj rd
  | .dbar hint => encCode15 0x70e4#17 hint
  | .ibar hint => encCode15 0x70e5#17 hint
  | .fldgtS fd rj rk => enc3R 0x70e8#17 rk rj fd
  | .fldgtD fd rj rk => enc3R 0x70e9#17 rk rj fd
  | .fldleS fd rj rk => enc3R 0x70ea#17 rk rj fd
  | .fldleD fd rj rk => enc3R 0x70eb#17 rk rj fd
  | .fstgtS fd rj rk => enc3R 0x70ec#17 rk rj fd
  | .fstgtD fd rj rk => enc3R 0x70ed#17 rk rj fd
  | .fstleS fd rj rk => enc3R 0x70ee#17 rk rj fd
  | .fstleD fd rj rk => enc3R 0x70ef#17 rk rj fd
  | .ldgtB rd rj rk => enc3R 0x70f0#17 rk rj rd
  | .ldgtH rd rj rk => enc3R 0x70f1#17 rk rj rd
  | .ldgtW rd rj rk => enc3R 0x70f2#17 rk rj rd
  | .ldgtD rd rj rk => enc3R 0x70f3#17 rk rj rd
  | .ldleB rd rj rk => enc3R 0x70f4#17 rk rj rd
  | .ldleH rd rj rk => enc3R 0x70f5#17 rk rj rd
  | .ldleW rd rj rk => enc3R 0x70f6#17 rk rj rd
  | .ldleD rd rj rk => enc3R 0x70f7#17 rk rj rd
  | .stgtB rd rj rk => enc3R 0x70f8#17 rk rj rd
  | .stgtH rd rj rk => enc3R 0x70f9#17 rk rj rd
  | .stgtW rd rj rk => enc3R 0x70fa#17 rk rj rd
  | .stgtD rd rj rk => enc3R 0x70fb#17 rk rj rd
  | .stleB rd rj rk => enc3R 0x70fc#17 rk rj rd
  | .stleH rd rj rk => enc3R 0x70fd#17 rk rj rd
  | .stleW rd rj rk => enc3R 0x70fe#17 rk rj rd
  | .stleD rd rj rk => enc3R 0x70ff#17 rk rj rd
  | .beqz rj offs21 => enc2RI16 0x10#6 (BitVec.extractLsb' 0 16 offs21) rj (BitVec.extractLsb' 16 5 offs21)
  | .bnez rj offs21 => enc2RI16 0x11#6 (BitVec.extractLsb' 0 16 offs21) rj (BitVec.extractLsb' 16 5 offs21)
  | .bceqz cj offs21 => encBceqz 0x12#6 (BitVec.extractLsb' 0 16 offs21) cj (BitVec.extractLsb' 16 5 offs21)
  | .bcnez cj offs21 => encBcnez 0x12#6 (BitVec.extractLsb' 0 16 offs21) cj (BitVec.extractLsb' 16 5 offs21)
  | .jirl rd rj offs16 => enc2RI16 0x13#6 offs16 rj rd
  | .b offs26 => encI26 0x14#6 (BitVec.extractLsb' 0 16 offs26) (BitVec.extractLsb' 16 10 offs26)
  | .bl offs26 => encI26 0x15#6 (BitVec.extractLsb' 0 16 offs26) (BitVec.extractLsb' 16 10 offs26)
  | .beq rj rd offs16 => enc2RI16 0x16#6 offs16 rj rd
  | .bne rj rd offs16 => enc2RI16 0x17#6 offs16 rj rd
  | .blt rj rd offs16 => enc2RI16 0x18#6 offs16 rj rd
  | .bge rj rd offs16 => enc2RI16 0x19#6 offs16 rj rd
  | .bltu rj rd offs16 => enc2RI16 0x1a#6 offs16 rj rd
  | .bgeu rj rd offs16 => enc2RI16 0x1b#6 offs16 rj rd

end Sys2Proof
end

