-- ==== Sys2Proof/Config.lean ====
section
/-! DEFINITION. What the implementation fixes, and the free values.  The parameters of 00_scope.md R9 are those of the
reference configuration of 92_eei_decisions.md D1 (log 1).  An `opaque` constant has no body: nothing can be proved of
its value, so a theorem holds whatever it is (log 12). -/

namespace Sys2Proof.Config

/-! ## Parameters of the core (R9; reference values D1) -/

/-- GRLEN, the width of a general register: an LA64 core.  `Word` is that wide (log 1). -/
abbrev grlen : Nat := 64
/-- ARCH: 2 is LA64 (R9). -/
def arch : BitVec 2 := if grlen = 64 then 2 else 1
/-- PRID, the processor identity. -/
def prid : BitVec 32 := 0
/-- CoreID, the core number (R85). -/
def coreId : BitVec 9 := 0
/-- VALEN, the number of valid virtual-address bits. -/
abbrev valen : Nat := 48
/-- PALEN, the number of physical-address bits (R250). -/
abbrev palen : Nat := 48
/-- HAS_PGMMU: the MMU supports page mapping. -/
def hasPgmmu : Bool := true
/-- HAS_IOCSR: the IOCSR instructions exist. -/
def hasIocsr : Bool := true
/-- UAL: non-aligned accesses are supported, so that MISC.ALCL may be written (R76, R213). -/
def ual : Bool := true
/-- RI: the page attribute NR exists. -/
def ri : Bool := true
/-- EP: the page attribute NX exists. -/
def ep : Bool := true
/-- RPLV: the page attribute RPLV exists. -/
def rplv : Bool := true
/-- HP: huge pages are supported. -/
def hp : Bool := true
/-- HAS_CRC: the CRC instructions exist. -/
def hasCrc : Bool := true
/-- MSG_INT: message interrupts are not implemented (D48; log 38). -/
def msgInt : Bool := false
/-- FP: the basic floating-point instructions exist. -/
def fp : Bool := true
/-- FP_SP: single precision. -/
def fpSp : Bool := true
/-- FP_DP: double precision. -/
def fpDp : Bool := true
/-- FP_ver: IEEE 754-2008. -/
def fpVer : Nat := 1
/-- LSX, LASX, COMPLEX, CRYPTO, LVZ and LBT_*, one bit each as in CPUCFG.2: the base has none (00_scope.md R6). -/
def extensions : BitVec 32 := 0
/-- LLFTP: the constant-frequency counter and timer exist. -/
def llftp : Bool := true
/-- LLFTP_ver. -/
def llftpVer : Nat := 1
/-- LSPW: LDDIR and LDPTE exist. -/
def lspw : Bool := true
/-- LAM: AM* on words and doublewords exist. -/
def lam : Bool := true
/-- LAM_BH: AMSWAP and AMADD on bytes and halfwords exist. -/
def lamBh : Bool := true
/-- LAMCAS: AMCAS exists. -/
def lamcas : Bool := true
/-- LLACQ_SCREL: LLACQ and SCREL exist. -/
def llacqScrel : Bool := true
/-- SCQ: SC.Q exists. -/
def scq : Bool := true
/-- HPTW: there is no hardware page table walker (D8; log 67). -/
def hptw : Bool := false
/-- FRECIPE: the estimates exist. -/
def frecipe : Bool := true
/-- DIV32: DIV.W[U] and MOD.W[U] use the low words of their operands alone (R380). -/
def div32 : Bool := true
/-- SPW_LVL: directory levels of the page walk (R616). -/
def spwLvl : Nat := 4
/-- SPW_HP_HF: LDPTE fills half of a huge page (R616, R842). -/
def spwHpHf : Bool := true
/-- RVA: CSR.RVACFG exists (R616). -/
def rva : Bool := true
/-- RVAMAX: the largest reduction of the virtual address (R616). -/
abbrev rvaMax : Nat := 8
/-- CC_FREQ, the crystal frequency (R615). -/
def ccFreq : BitVec 32 := 0
/-- CC_MUL, the multiplication factor of the clock. -/
def ccMul : BitVec 16 := 0
/-- CC_DIV, the division factor of the clock. -/
def ccDiv : BitVec 16 := 0
/-- PMVER: the version of the performance events. -/
def pmVer : Nat := 1
/-- PMNUM + 1, the number of performance monitors (R170). -/
abbrev pmNum : Nat := 4
/-- PMBITS + 1, the width of a performance counter (R171). -/
abbrev pmBits : Nat := 64
/-- UPM: user-mode access to the performance counters. -/
def upm : Bool := false
/-- SAVENum, the number of SAVE registers (R86, R89). -/
abbrev saveNum : Nat := 8
/-- TimerBits + 1, the number of valid bits of the timer (R86, R151). -/
abbrev timerBits : Nat := 48
/-- VMax, the largest legal ECFG.VS (R86). -/
def vMax : Nat := 7
/-- PSAVL: the page sizes 2^12 to 2^30 (R87). -/
def psavl : Word := 0x000000007FFFF000#64
/-- TLBType 2: an MTLB and an STLB (R88). -/
def tlbType : Nat := 2
/-- Number of MTLB entries, PRCFG3.MTLBEntries + 1 (R88). -/
abbrev mtlbEntries : Nat := 64
/-- Number of STLB ways, PRCFG3.STLBWays + 1 (R88). -/
abbrev stlbWays : Nat := 8
/-- log2 of the number of sets of the STLB, PRCFG3.STLBSets (R88). -/
abbrev stlbIndexBits : Nat := 8
/-- TLB_INDEX_BITS, the width of TLBIDX.Index (R110). -/
abbrev tlbIndexBits : Nat := 12
/-- ASIDBITS, the width of an ASID (R114). -/
abbrev asidBits : Nat := 10
/-- NUM_DMW, the number of direct mapping windows (R128). -/
abbrev numDmw : Nat := 4
/-- MWP_NUM, the number of load/store watchpoints (R180). -/
abbrev mwpNum : Nat := 4
/-- FWP_NUM, the number of fetch watchpoints (R186). -/
abbrev fwpNum : Nat := 4
/-- IOCSR_ADDR_BITS, the number of significant IOCSR address bits (D1). -/
abbrev iocsrAddrBits : Nat := 32
/-- The caches present, CPUCFG word 0x10: none is described (R616, D1). -/
def caches : BitVec 32 := 0
/-- The geometry of each cache, CPUCFG words 0x11 to 0x14 (R616, D1). -/
def cacheGeometry : BitVec 2 → BitVec 32 := fun _ => 0

/-! ## Counts and widths that follow -/

/-- Number of sets of the STLB. -/
abbrev stlbSets : Nat := 2 ^ stlbIndexBits
/-- Number of STLB entries; MTLB entries are numbered after them (R830). -/
abbrev stlbEntries : Nat := stlbWays * stlbSets
/-- Number of TLB entries of both parts. -/
abbrev tlbEntries : Nat := stlbEntries + mtlbEntries
/-- Width of VPPN, bits [VALEN-1:13] (R111, R260). -/
abbrev vppnBits : Nat := valen - 13
/-- Width of PPN, bits [PALEN-1:12] (R112, R260). -/
abbrev ppnBits : Nat := palen - 12

/-! ## Read-only configuration registers (R85 to R88, R180, R186) -/

/-- The value `v` as the field that starts at bit `lo`. -/
def field (lo v : Nat) : BitVec 32 := BitVec.ofNat 32 v <<< lo
/-- A flag at bit `i`. -/
def flag (i : Nat) (b : Bool) : BitVec 32 := field i b.toNat

/-- CPUID: CoreID (R85). -/
def cpuid : BitVec 32 := coreId.setWidth 32
/-- PRCFG1: SAVENum, TimerBits, VMax (R86). -/
def prcfg1 : BitVec 32 := field 0 saveNum ||| field 4 (timerBits - 1) ||| field 12 vMax
/-- PRCFG2: PSAVL (R87). -/
def prcfg2 : Word := psavl
/-- PRCFG3: TLBType, MTLBEntries, STLBWays, STLBSets (R88). -/
def prcfg3 : BitVec 32 :=
  field 0 tlbType ||| field 4 (mtlbEntries - 1) ||| field 12 (stlbWays - 1) ||| field 20 stlbIndexBits
/-- MWPC.Num (R180). -/
def mwpc : BitVec 32 := field 0 mwpNum
/-- FWPC.Num (R186). -/
def fwpc : BitVec 32 := field 0 fwpNum

/-! ## CPUCFG words (R616, D1) -/

/-- CPUCFG word 1. -/
def cpucfg1 : BitVec 32 :=
  field 0 arch.toNat ||| flag 2 hasPgmmu ||| flag 3 hasIocsr ||| field 4 (palen - 1) ||| field 12 (valen - 1) |||
    flag 20 ual ||| flag 21 ri ||| flag 22 ep ||| flag 23 rplv ||| flag 24 hp ||| flag 25 hasCrc ||| flag 26 msgInt
/-- CPUCFG word 2. -/
def cpucfg2 : BitVec 32 :=
  flag 0 fp ||| flag 1 fpSp ||| flag 2 fpDp ||| field 3 fpVer ||| extensions ||| flag 14 llftp ||| field 15 llftpVer |||
    flag 21 lspw ||| flag 22 lam ||| flag 24 hptw ||| flag 25 frecipe ||| flag 26 div32 ||| flag 27 lamBh |||
    flag 28 lamcas ||| flag 29 llacqScrel ||| flag 30 scq
/-- CPUCFG word 3. -/
def cpucfg3 : BitVec 32 := field 8 spwLvl ||| flag 11 spwHpHf ||| flag 12 rva ||| field 13 (rvaMax - 1)
/-- CPUCFG word 5. -/
def cpucfg5 : BitVec 32 := ccDiv ++ ccMul
/-- CPUCFG word 6; PMP is 1, since there are monitors. -/
def cpucfg6 : BitVec 32 :=
  flag 0 (pmNum != 0) ||| field 1 pmVer ||| field 4 (pmNum - 1) ||| field 8 (pmBits - 1) ||| flag 14 upm

/-- The configuration word of a number; an undefined word reads 0, and so do here the undefined fields (R616; log 32). -/
def cpucfg (n : Word) : BitVec 32 :=
  if n = 0 then prid
  else if n = 1 then cpucfg1
  else if n = 2 then cpucfg2
  else if n = 3 then cpucfg3
  else if n = 4 then ccFreq
  else if n = 5 then cpucfg5
  else if n = 6 then cpucfg6
  else if n = 0x10 then caches
  else if 0x10 < n ∧ n ≤ 0x14 then cacheGeometry ((n - 0x11).setWidth 2)
  else 0

/-- The presence bits of the caches in word 0x10, in its order (R616). -/
def cachePresence : List Nat := [0, 2, 3, 7, 10, 14]

/-- `op[2:0]` names a cache: it is below the number of the caches that word 0x10 says are present (R823). -/
def cacheNamed (cache : BitVec 3) : Bool := decide (cache.toNat < (cachePresence.filter caches.getLsbD).length)

/-! ## Free values -/

/-- The value of the n-th draw of an `any value` of 93_implementation_defined.md (log 12). -/
opaque freeValue : Nat → BitVec 64

/-- The address at which execution goes on in debug mode, the parameter DEBUG_ENTRY (D23, #35; log 37). -/
opaque debugEntry : Word

/-- The implementation's estimate for FRECIPE.S, the parameter recip_estimate (R680, #33; log 31). -/
opaque recipEstimateS : BitVec 32 → BitVec 32
/-- The implementation's estimate for FRECIPE.D (R680, #33; log 31). -/
opaque recipEstimateD : BitVec 64 → BitVec 64
/-- The implementation's estimate for FRSQRTE.S, the parameter rsqrt_estimate (R680, #33; log 31). -/
opaque rsqrtEstimateS : BitVec 32 → BitVec 32
/-- The implementation's estimate for FRSQRTE.D (R680, #33; log 31). -/
opaque rsqrtEstimateD : BitVec 64 → BitVec 64

end Sys2Proof.Config
end

