-- ==== Sys2Proof/Machine/State.lean ====
section
/-! DEFINITION. The state of the machine as plain data: every register, counter, buffer and memory that spec/ gives
the core (10_state.md), the inputs the environment has in store, and the counter that numbers the free values.  The
reserved and read-only bits of a control register are stored as 0; Machine/Ops.lean reads and writes the registers. -/

namespace Sys2Proof.Machine

/-- The basic control and status registers (11_csr_basic.md). -/
structure BasicCsrs where
  /-- CRMD 0x0, current mode (R70). -/
  crmd : BitVec 32
  /-- PRMD 0x1, pre-exception mode (R72). -/
  prmd : BitVec 32
  /-- EUEN 0x2, extended unit enables (R74). -/
  euen : BitVec 32
  /-- MISC 0x3, miscellaneous control (R75). -/
  misc : BitVec 32
  /-- ECFG 0x4, exception configuration (R77). -/
  ecfg : BitVec 32
  /-- ESTAT 0x5: IS[1:0], the timer flag IS[11], Ecode, EsubCode; the other IS bits follow their sources (R78). -/
  estat : BitVec 32
  /-- ERA 0x6, exception return address (R80). -/
  era : Word
  /-- BADV 0x7, bad virtual address (R81). -/
  badv : Word
  /-- BADI 0x8, bad instruction (R82). -/
  badi : BitVec 32
  /-- EENTRY 0xC, exception entry base (R83). -/
  eentry : Word
  /-- RVACFG 0x1F, reduced virtual address configuration (R84). -/
  rvacfg : BitVec 32
  /-- SAVE0 to SAVE7, 0x30 to 0x37 (R89). -/
  save : Vector Word Config.saveNum
  /-- LLBCTL 0x60: KLO; ROLLB is a view of `llbit` (R90). -/
  llbctl : BitVec 32
  /-- CTAG 0x98, cache tag (R92; log 9). -/
  ctag : Word
deriving DecidableEq, Repr

/-- The registers of mapped address translation (12_csr_mmu.md). -/
structure MmuCsrs where
  /-- TLBIDX 0x10 (R110). -/
  tlbidx : BitVec 32
  /-- TLBEHI 0x11 (R111). -/
  tlbehi : Word
  /-- TLBELO0 0x12 (R112). -/
  tlbelo0 : Word
  /-- TLBELO1 0x13 (R112). -/
  tlbelo1 : Word
  /-- ASID 0x18, the field ASID; ASIDBITS is a constant (R114). -/
  asid : BitVec 32
  /-- PGDL 0x19 (R115). -/
  pgdl : Word
  /-- PGDH 0x1A (R116). -/
  pgdh : Word
  /-- PWCL 0x1C (R118). -/
  pwcl : BitVec 32
  /-- PWCH 0x1D (R119). -/
  pwch : BitVec 32
  /-- STLBPS 0x1E (R120). -/
  stlbps : BitVec 32
  /-- DMW0 to DMW3, 0x180 to 0x183 (R128). -/
  dmw : Vector Word Config.numDmw
deriving DecidableEq, Repr

/-- The TLB refill exception registers (12_csr_mmu.md R121 to R127). -/
structure RefillCsrs where
  /-- TLBRENTRY 0x88 (R121). -/
  entry : Word
  /-- TLBRBADV 0x89 (R122). -/
  badv : Word
  /-- TLBRERA 0x8A: IsTLBR and PC (R123). -/
  era : Word
  /-- TLBRSAVE 0x8B (R124). -/
  save : Word
  /-- TLBRELO0 0x8C (R125). -/
  elo0 : Word
  /-- TLBRELO1 0x8D (R125). -/
  elo1 : Word
  /-- TLBREHI 0x8E (R126). -/
  ehi : Word
  /-- TLBRPRMD 0x8F (R127). -/
  prmd : BitVec 32
deriving DecidableEq, Repr

/-- The timer registers (13_csr_timer_ras_perf_watch_debug.md R150 to R153). -/
structure TimerCsrs where
  /-- TID 0x40 (R150). -/
  tid : BitVec 32
  /-- TCFG 0x41 (R151). -/
  tcfg : Word
  /-- TVAL 0x42: the count of the timer (R152, R155). -/
  tval : Word
  /-- CNTC 0x43 (R153). -/
  cntc : Word
deriving DecidableEq, Repr

/-- The machine error registers (13 R160 to R164). -/
structure MerrCsrs where
  /-- MERRCTL 0x90 (R160). -/
  ctl : BitVec 32
  /-- MERRINFO1 0x91 (R161; log 10). -/
  info1 : Word
  /-- MERRINFO2 0x92 (R161; log 10). -/
  info2 : Word
  /-- MERRENTRY 0x93 (R162). -/
  entry : Word
  /-- MERRERA 0x94 (R163). -/
  era : Word
  /-- MERRSAVE 0x95 (R164). -/
  save : Word
deriving DecidableEq, Repr

/-- The four performance monitors (13 R170, R171). -/
structure PerfCsrs where
  /-- PMCFG0 to PMCFG3, 0x200 + 2n (R170). -/
  cfg : Vector (BitVec 32) Config.pmNum
  /-- PMCNT0 to PMCNT3, 0x201 + 2n (R171). -/
  cnt : Vector Word Config.pmNum
deriving DecidableEq, Repr

/-- The four configuration registers of one watchpoint (13 R182 to R184, R188 to R190). -/
structure Watchpoint where
  /-- CFG1, the address compared. -/
  cfg1 : Word
  /-- CFG2, the address mask. -/
  cfg2 : Word
  /-- CFG3, the conditions. -/
  cfg3 : BitVec 32
  /-- CFG4, the ASID compared. -/
  cfg4 : BitVec 32
deriving DecidableEq, Repr

/-- The watchpoint registers (13 R180 to R190). -/
structure WatchCsrs where
  /-- MWPS 0x301 (R181). -/
  mwps : BitVec 32
  /-- The load/store watchpoints, 0x310 + 8n (R182). -/
  mwp : Vector Watchpoint Config.mwpNum
  /-- FWPS 0x381 (R187). -/
  fwps : BitVec 32
  /-- The fetch watchpoints, 0x390 + 8n (R188). -/
  fwp : Vector Watchpoint Config.fwpNum
deriving DecidableEq, Repr

/-- The debug registers (13 R193 to R195). -/
structure DebugCsrs where
  /-- DBG 0x500; DRev is a constant (R193). -/
  dbg : BitVec 32
  /-- DERA 0x501 (R194). -/
  dera : Word
  /-- DSAVE 0x502 (R195). -/
  dsave : Word
deriving DecidableEq, Repr

/-- The message interrupt registers (60_exceptions.md R886): not implemented in the reference configuration, used only
where `Config.msgInt` says so (log 38). -/
structure MsgCsrs where
  /-- MSGIS0 to MSGIS3: bit k is message k. -/
  msgis : BitVec 256
  /-- MSGIE.PT, the priority threshold. -/
  pt : BitVec 8
deriving DecidableEq, Repr

/-- All control and status registers (10_state.md R45). -/
structure Csrs where
  basic : BasicCsrs
  mmu : MmuCsrs
  refill : RefillCsrs
  timer : TimerCsrs
  merr : MerrCsrs
  perf : PerfCsrs
  watch : WatchCsrs
  dbgRegs : DebugCsrs
  msg : MsgCsrs
deriving DecidableEq, Repr

/-- One page of a TLB entry (21_address_translation.md R260). -/
structure TlbPage where
  v : Bool
  d : Bool
  plv : BitVec 2
  mat : BitVec 2
  ppn : BitVec Config.ppnBits
  nr : Bool
  nx : Bool
  rplv : Bool
deriving DecidableEq, Repr

/-- A TLB entry (21_address_translation.md R260).  The entry exists, E = 1, exactly when the TLB lists it.  `ps` is the
page size of an MTLB entry; an STLB entry has that of STLBPS and stores 0 here. -/
structure TlbEntry where
  asid : BitVec Config.asidBits
  g : Bool
  ps : BitVec 6
  vppn : BitVec Config.vppnBits
  page0 : TlbPage
  page1 : TlbPage
deriving DecidableEq, Repr

/-- A machine error that the hardware reports (60_exceptions.md R868; log 36). -/
structure MerrReport where
  cause : BitVec 8
  repairable : Bool
  info1 : Word
  info2 : Word
deriving DecidableEq, Repr

/-- What the environment does between two instructions (92_eei_decisions.md D6, D20, D35; log 34). -/
structure EnvInput where
  /-- Ticks of the constant-frequency clock (D20). -/
  ticks : Nat
  /-- The levels of HWI0 to HWI7 from now on (R880). -/
  hwi : BitVec 8
  /-- The level of the IPI line from now on (R880). -/
  ipi : Bool
  /-- Another agent stored to the line of the LL address (R580, D35). -/
  clearLL : Bool
  /-- A machine error is reported (R868). -/
  merr : Option MerrReport
  /-- Messages that arrive, when message interrupts are implemented (R886). -/
  msgs : List (BitVec 8)
  /-- Bytes that other bus masters write to physical memory (R849). -/
  memWrites : List Host.Cell
  /-- Bytes that the platform gives the IOCSR registers (R816). -/
  iocsrWrites : List Host.Cell
deriving DecidableEq, Repr

/-- The state of the core, its TLB, its memory and its environment (10_state.md). -/
structure State where
  /-- r0 to r31 (R20); the entry of r0 is never read. -/
  gpr : Vector Word 32
  /-- f0 to f31 (R25). -/
  fpr : Vector Word 32
  /-- fcc0 to fcc7 (R28). -/
  fcc : Vector Bool 8
  /-- fcsr0 (R29). -/
  fcsr0 : BitVec 32
  /-- The program counter (R23). -/
  pc : Word
  /-- The word of the instruction that is executing, which an exception records in BADI (R82; the model's own). -/
  ir : BitVec 32
  /-- The control and status registers (R45). -/
  csr : Csrs
  /-- LLbit (R33). -/
  llbit : Bool
  /-- The address that LL recorded (R33). -/
  llAddr : Word
  /-- The Stable Counter (R35). -/
  stable : Word
  /-- The TLB: its existing entries by index, in rising order (R37, R830). -/
  tlb : List (Nat × TlbEntry)
  /-- Physical memory in canonical form (R200). -/
  mem : List Host.Cell
  /-- Earlier values of bytes stored to since the last IBAR, which a fetch may still see (R221, R932). -/
  stale : List Host.Cell
  /-- The bytes of the IOCSR registers that exist (R816). -/
  iocsr : List Host.Cell
  /-- The levels of HWI0 to HWI7 (R880). -/
  hwi : BitVec 8
  /-- The level of the IPI line (R880). -/
  ipi : Bool
  /-- The core waits in IDLE (R849). -/
  waiting : Bool
  /-- A machine error reported and not yet taken (R868). -/
  merrPending : Option MerrReport
  /-- What the environment does before each coming step (the model's own; log 34). -/
  inputs : List EnvInput
  /-- How many free values have been drawn (the model's own; log 12). -/
  freeCtr : Nat
deriving DecidableEq, Repr

/-- Why the machine is stuck: spec/93_implementation_defined.md's treatment `stuck`, no further step. -/
inductive Fault where
  /-- A lookup or TLBSRCH matches more than one TLB entry (R263, #15).  Safe. -/
  | multipleTlbHits
  /-- TLBRD or TLBWR with an index beyond the TLB (R832, R834, #16, #17).  Safe. -/
  | tlbIndexOutOfRange
  /-- TLBWR to an STLB index that conflicts with the page size or, for each value of va[12], with the VPPN (R834, #17;
  log 39).  Safe. -/
  | stlbConflict
deriving DecidableEq, Repr

/-- Why the model gives a run no meaning: spec/93_implementation_defined.md's treatment `refuse`. -/
inductive Refusal where
  /-- The instruction has no meaning in the model yet; raised by exec's arms alone.  Safe. -/
  | notModelled (mnemonic : String)
  /-- CRMD.DA = CRMD.PG, raised by a step or an access in that mode (R73, R254, #13).  Safe. -/
  | translationModeUndefined
  /-- RVACFG.RBits above 8, raised by a step or an access with that setting (R84, #14).  Safe. -/
  | addressReductionUndefined
  /-- An access of the reserved memory access type 3 (R206, #42).  Safe. -/
  | memoryTypeReserved
  /-- A page size that PRCFG2 does not support: of a TLB entry where it is written, read or compared, of STLBPS where the
  TLB is looked up or placed by it (R120, #43; log 44).  Safe. -/
  | pageSizeUnsupported
deriving DecidableEq, Repr

/-- Four watchpoint registers of zeros (R921). -/
def Watchpoint.zero : Watchpoint := ⟨0, 0, 0, 0⟩

/-- The control and status registers after reset: R921 where it gives a value, else 0, and for STLBPS.PS the
smallest supported page size (log 4). -/
def Csrs.reset : Csrs where
  basic :=
    { crmd := 8, prmd := 0, euen := 0, misc := 0, ecfg := 0, estat := 0, era := 0, badv := 0, badi := 0, eentry := 0
      rvacfg := 0, save := Vector.replicate _ 0, llbctl := 0, ctag := 0 }
  mmu :=
    { tlbidx := 0, tlbehi := 0, tlbelo0 := 0, tlbelo1 := 0, asid := 0, pgdl := 0, pgdh := 0, pwcl := 0, pwch := 0
      stlbps := 0xC, dmw := Vector.replicate _ 0 }
  refill := { entry := 0, badv := 0, era := 0, save := 0, elo0 := 0, elo1 := 0, ehi := 0, prmd := 0 }
  timer := { tid := 0, tcfg := 0, tval := 0, cntc := 0 }
  merr := { ctl := 0, info1 := 0, info2 := 0, entry := 0, era := 0, save := 0 }
  perf := { cfg := Vector.replicate _ 0, cnt := Vector.replicate _ 0 }
  watch :=
    { mwps := 0, mwp := Vector.replicate _ Watchpoint.zero, fwps := 0, fwp := Vector.replicate _ Watchpoint.zero }
  dbgRegs := { dbg := 0, dera := 0, dsave := 0 }
  msg := { msgis := 0, pt := 0 }

/-- The machine right after reset (70_reset_and_hazards.md R920 to R924; 10_state.md R46; log 2 to 7). -/
def State.reset : State where
  gpr := Vector.replicate 32 0
  fpr := Vector.replicate 32 0
  fcc := Vector.replicate 8 false
  fcsr0 := 0
  pc := 0x1C000000
  ir := 0
  csr := Csrs.reset
  llbit := false
  llAddr := 0
  stable := 0
  tlb := []
  mem := []
  stale := []
  iocsr := []
  hwi := 0
  ipi := false
  waiting := false
  merrPending := none
  inputs := []
  freeCtr := 0

end Sys2Proof.Machine
end

