-- ==== Sys2Proof/Machine/Ops.lean ====
section
/-! DEFINITION. The named operations over registers, memory and modes, taking an exception, and returning from one.
Every meaning goes through them, so that r0, the free upper half of a floating-point register, byte order and the
entry sequences are each said once. -/

namespace Sys2Proof.Machine

/-- The outcome of an instruction or of a step. -/
abbrev Out := Host.Outcome State Fault Refusal

/-! ## Bit fields (00_scope.md R10) -/

/-- The field of `m` bits from bit `lo` up. -/
def bits {n : Nat} (w : BitVec n) (lo m : Nat) : BitVec m := w.extractLsb' lo m

/-- `w` with the field of `m` bits from bit `lo` up replaced by `v`. -/
def withBits {n m : Nat} (w : BitVec n) (lo : Nat) (v : BitVec m) : BitVec n :=
  (w &&& ~~~((BitVec.allOnes m).setWidth n <<< lo)) ||| (v.setWidth n <<< lo)

/-- `w` with bit `i` set to `b`. -/
def withBit {n : Nat} (w : BitVec n) (i : Nat) (b : Bool) : BitVec n := withBits w i (BitVec.ofBool b)

/-- The bits `lo` to `hi - 1`. -/
def maskOf {n : Nat} (lo hi : Nat) : BitVec n := BitVec.ofNat n (2 ^ hi - 2 ^ lo)

/-- Sign extension of the low 32 bits to GRLEN (10_state.md R22). -/
def sext32 (w : BitVec 32) : Word := w.signExtend 64

/-- The low 32 bits of a register. -/
def low32 (w : Word) : BitVec 32 := w.setWidth 32

/-! ## Free values (93_implementation_defined.md; log 12) -/

/-- The next free value. -/
def State.free (s : State) : Word := Config.freeValue s.freeCtr

/-- The state after one free value is drawn. -/
def State.drawn (s : State) : State := { s with freeCtr := s.freeCtr + 1 }

/-! ## General and floating-point registers, flags, pc -/

/-- `x[r]`: r0 reads 0 (10_state.md R20). -/
def State.x (s : State) (r : Reg) : Word := if r = 0 then 0 else s.gpr[r.toNat]'r.isLt

/-- `x[r] <- v`: a write of r0 is discarded (10_state.md R20). -/
def State.setX (s : State) (r : Reg) (v : Word) : State :=
  if r = 0 then s else { s with gpr := s.gpr.set r.toNat v r.isLt }

/-- `f[r]` (10_state.md R25). -/
def State.f (s : State) (r : FReg) : Word := s.fpr[r.toNat]'r.isLt

/-- `f[r] <- v`, all 64 bits. -/
def State.setF (s : State) (r : FReg) (v : Word) : State := { s with fpr := s.fpr.set r.toNat v r.isLt }

/-- The 32-bit datum in the low half of `f[r]` (10_state.md R26). -/
def State.fs (s : State) (r : FReg) : BitVec 32 := low32 (s.f r)

/-- A 32-bit result in `f[r]`: the upper half is left with any value (10_state.md R26, #1; log 13). -/
def State.setFS (s : State) (r : FReg) (v : BitVec 32) : State :=
  (s.setF r (bits s.free 32 32 ++ v)).drawn

/-- Condition flag register `c` (10_state.md R28). -/
def State.cc (s : State) (c : CReg) : Bool := s.fcc[c.toNat]'c.isLt

/-- Condition flag register `c` written. -/
def State.setCc (s : State) (c : CReg) (b : Bool) : State := { s with fcc := s.fcc.set c.toNat b c.isLt }

/-- The program counter written. -/
def State.setPc (s : State) (a : Word) : State := { s with pc := a }

/-- The next instruction in order: `pc + 4`, wrapping (10_state.md R23, D9). -/
def State.advance (s : State) : State := s.setPc (s.pc + 4)

/-- `x[rd] <- v`, and on to the next instruction. -/
def State.retire (s : State) (rd : Reg) (v : Word) : State := (s.setX rd v).advance

/-- fcsr0 written. -/
def State.setFcsr0 (s : State) (v : BitVec 32) : State := { s with fcsr0 := v }

/-- LLbit written. -/
def State.setLL (s : State) (b : Bool) : State := { s with llbit := b }

/-! ## Groups of control and status registers replaced -/

/-- The basic registers replaced. -/
def State.setBasic (s : State) (c : BasicCsrs) : State := { s with csr := { s.csr with basic := c } }
/-- The translation registers replaced. -/
def State.setMmu (s : State) (c : MmuCsrs) : State := { s with csr := { s.csr with mmu := c } }
/-- The TLB refill registers replaced. -/
def State.setRefill (s : State) (c : RefillCsrs) : State := { s with csr := { s.csr with refill := c } }
/-- The timer registers replaced. -/
def State.setTimer (s : State) (c : TimerCsrs) : State := { s with csr := { s.csr with timer := c } }
/-- The machine error registers replaced. -/
def State.setMerr (s : State) (c : MerrCsrs) : State := { s with csr := { s.csr with merr := c } }
/-- The performance monitors replaced. -/
def State.setPerf (s : State) (c : PerfCsrs) : State := { s with csr := { s.csr with perf := c } }
/-- The watchpoint registers replaced. -/
def State.setWatch (s : State) (c : WatchCsrs) : State := { s with csr := { s.csr with watch := c } }
/-- The debug registers replaced. -/
def State.setDebug (s : State) (c : DebugCsrs) : State := { s with csr := { s.csr with dbgRegs := c } }
/-- The message interrupt registers replaced. -/
def State.setMsg (s : State) (c : MsgCsrs) : State := { s with csr := { s.csr with msg := c } }
/-- CRMD replaced. -/
def State.setCrmd (s : State) (v : BitVec 32) : State := s.setBasic { s.csr.basic with crmd := v }
/-- The TLB replaced. -/
def State.setTlb (s : State) (t : List (Nat × TlbEntry)) : State := { s with tlb := t }

/-! ## Modes (10_state.md R34) -/

/-- CRMD.PLV, the privilege level (R70). -/
def State.plv (s : State) : BitVec 2 := bits s.csr.basic.crmd 0 2
/-- CRMD.IE (R70). -/
def State.ie (s : State) : Bool := s.csr.basic.crmd.getLsbD 2
/-- CRMD.DA (R70). -/
def State.da (s : State) : Bool := s.csr.basic.crmd.getLsbD 3
/-- CRMD.PG (R70). -/
def State.pg (s : State) : Bool := s.csr.basic.crmd.getLsbD 4
/-- CRMD.WE (R70). -/
def State.we (s : State) : Bool := s.csr.basic.crmd.getLsbD 9
/-- TLBRERA.IsTLBR (12_csr_mmu.md R123). -/
def State.isTlbr (s : State) : Bool := s.csr.refill.era.getLsbD 0
/-- MERRCTL.IsMERR (13 R160). -/
def State.isMerr (s : State) : Bool := s.csr.merr.ctl.getLsbD 0
/-- DBG.DST: debug mode (13 R193). -/
def State.inDebug (s : State) : Bool := s.csr.dbgRegs.dbg.getLsbD 0
/-- 32-bit address mode at the current privilege level (11_csr_basic.md R93): PLV0 has none. -/
def State.va32 (s : State) : Bool := s.plv != 0 && s.csr.basic.misc.getLsbD s.plv.toNat

/-- The virtual address of an access: bits 63:32 forced to 0 in 32-bit address mode (11_csr_basic.md R93, D24). -/
def State.effVa (s : State) (a : Word) : Word := if s.va32 then (low32 a).setWidth 64 else a

/-- The address a link register or a PCADD* result receives: 32 bits sign-extended in 32-bit address mode (R93). -/
def State.linkVal (s : State) (a : Word) : Word := if s.va32 then sext32 (low32 a) else a

/-! ## Memory (20_memory.md R200, R203) -/

/-- What a byte of memory that nothing has written reads as (log 7). -/
def Memory.unlisted : Byte := 0

/-- The byte at a physical address. -/
def Memory.read : List Host.Cell → Nat → Byte
  | [], _ => Memory.unlisted
  | (a, b) :: m, x => if x = a then b else if x < a then Memory.unlisted else Memory.read m x

/-- Writing one byte keeps the canonical form: writing what an unlisted byte reads as removes the entry. -/
def Memory.write : List Host.Cell → Nat → Byte → List Host.Cell
  | [], x, b => if b = Memory.unlisted then [] else [(x, b)]
  | (a, c) :: m, x, b =>
    if x < a then (if b = Memory.unlisted then (a, c) :: m else (x, b) :: (a, c) :: m)
    else if x = a then (if b = Memory.unlisted then m else (x, b) :: m)
    else (a, c) :: Memory.write m x b

/-- Addresses strictly rise from `lo` on, and no entry says what an unlisted byte says. -/
def Memory.wfFrom : Nat → List Host.Cell → Bool
  | _, [] => true
  | lo, (a, b) :: m => decide (lo ≤ a) && b != Memory.unlisted && Memory.wfFrom (a + 1) m

/-- The canonical form of memory. -/
def Memory.wf (m : List Host.Cell) : Bool := Memory.wfFrom 0 m

/-- The byte at physical address `a`. -/
def State.byteAt (s : State) (a : Nat) : Byte := Memory.read s.mem a

/-- A byte's earlier value joins those that a fetch may still see, once (R221, R932; log 33). -/
def addStale (l : List Host.Cell) (a : Nat) (old new : Byte) : List Host.Cell :=
  if old = new ∨ (a, old) ∈ l then l else (a, old) :: l

/-- One byte stored. -/
def State.storeByte (s : State) (a : Nat) (b : Byte) : State :=
  { s with mem := Memory.write s.mem a b, stale := addStale s.stale a (s.byteAt a) b }

/-- The little-endian value of the bytes at the given physical addresses, lowest first (20_memory.md R204). -/
def State.loadBytes (s : State) : List Nat → Word
  | [] => 0
  | a :: as => (s.loadBytes as <<< 8) ||| (s.byteAt a).setWidth 64

/-- The low bytes of `v` stored at the given physical addresses, lowest first (20_memory.md R204). -/
def State.storeBytes (s : State) : List Nat → Word → State
  | [], _ => s
  | a :: as, v => (s.storeByte a (v.setWidth 8)).storeBytes as (v >>> 8)

/-- The values that a fetch may see in a byte: the present one, and those stored over since the last IBAR
(20_memory.md R221, #30). -/
def State.fetchChoices (s : State) (a : Nat) : List Byte :=
  s.byteAt a :: (s.stale.filter (fun c => c.1 = a)).map (·.2)

/-- The byte a fetch sees; `pick` chooses where more than one is possible. -/
def State.fetchByte (s : State) (pick : Nat) (a : Nat) : Byte :=
  (s.fetchChoices a).getD (pick % (s.fetchChoices a).length) Memory.unlisted

/-- The word a fetch sees at four physical addresses, lowest byte first (20_memory.md R205). -/
def State.fetchBytes (s : State) (pick : Nat) : List Nat → BitVec 32
  | [] => 0
  | a :: as => (s.fetchBytes (pick / 65536) as <<< 8) ||| (s.fetchByte pick a).setWidth 32

/-! ## Interrupt status (11_csr_basic.md R78; 60_exceptions.md R880) -/

/-- The performance counter overflow interrupt: some enabled counter has its top bit set (13 R171). -/
def State.pmi (s : State) : Bool :=
  (s.csr.perf.cfg.toList.zip s.csr.perf.cnt.toList).any (fun p => p.1.getLsbD 20 && p.2.getLsbD (Config.pmBits - 1))

/-- ESTAT.IS[12:0]: software bits, HWI lines, PMI, TI, IPI (R78, R880). -/
def State.is (s : State) : BitVec 13 :=
  BitVec.ofBool s.ipi ++ bits s.csr.basic.estat 11 1 ++ BitVec.ofBool s.pmi ++ s.hwi ++ bits s.csr.basic.estat 0 2

/-- The pending and enabled line interrupts, int_vec (R882). -/
def State.intVec (s : State) : BitVec 13 := s.is &&& bits s.csr.basic.ecfg 0 13

/-- The highest-numbered bit that is set (R881). -/
def topBit : Nat → BitVec 13 → Nat
  | 0, _ => 0
  | n + 1, v => if v.getLsbD n then n else topBit n v

/-- The highest message at or above the threshold, when message interrupts are implemented (R886). -/
def topMsg (m : MsgCsrs) : Nat → Option Nat
  | 0 => none
  | n + 1 => if m.msgis.getLsbD n && decide (m.pt.toNat ≤ n) then some n else topMsg m n

/-- The message interrupt that is selected, if any (R886; log 38). -/
def State.msgSel (s : State) : Option Nat := if Config.msgInt then topMsg s.csr.msg 256 else none

/-! ## Exceptions (60_exceptions.md) -/

/-- The exceptions that this spec raises (60_exceptions.md R862), with the address that goes into BADV where one does
(R867).  `int` is an interrupt with its exception number (R864); `tlbr` the TLB refill exception (R866); `dbcl` the
debug call (49_privileged.md R848); a watchpoint exception says whether a debug-only watchpoint raised it (R870). -/
inductive Exc where
  | int (number : Nat)
  | pil (va : Word)
  | pis (va : Word)
  | pif (va : Word)
  | pme (va : Word)
  | pnr (va : Word)
  | pnx (va : Word)
  | ppi (va : Word)
  | adef (va : Word)
  | adem (va : Word)
  | ale (va : Word)
  | bce (va : Word)
  | sys
  | brk
  | ine
  | ipe
  | fpd
  | fpe
  | wpef (debugOnly : Bool)
  | wpem (debugOnly : Bool)
  | tlbr (va : Word)
  | dbcl
deriving DecidableEq, Repr

/-- Ecode (R862, R865); for TLBR and DBCL the codes that DBG.Ecode has for them (13 R193). -/
def Exc.ecode : Exc → BitVec 6
  | .int _ => 0x0
  | .pil _ => 0x1
  | .pis _ => 0x2
  | .pif _ => 0x3
  | .pme _ => 0x4
  | .pnr _ => 0x5
  | .pnx _ => 0x6
  | .ppi _ => 0x7
  | .adef _ => 0x8
  | .adem _ => 0x8
  | .ale _ => 0x9
  | .bce _ => 0xA
  | .sys => 0xB
  | .brk => 0xC
  | .ine => 0xD
  | .ipe => 0xE
  | .fpd => 0xF
  | .fpe => 0x12
  | .wpef _ => 0x13
  | .wpem _ => 0x13
  | .tlbr _ => 0x7
  | .dbcl => 0xC

/-- EsubCode (R862). -/
def Exc.esubcode : Exc → BitVec 9
  | .adem _ => 1
  | .wpem _ => 1
  | _ => 0

/-- The number N of the entry address: 64 + n for an interrupt, Ecode for an exception (R864, D46). -/
def Exc.number : Exc → Nat
  | .int n => n
  | e => e.ecode.toNat

/-- What BADV receives, where the exception records an address there (R867). -/
def Exc.badv : Exc → Option Word
  | .pil a | .pis a | .pif a | .pme a | .pnr a | .pnx a | .ppi a | .adef a | .adem a | .ale a | .bce a => some a
  | _ => none

/-- The page exceptions, which record the page number in TLBEHI.VPPN (R867). -/
def Exc.pageVa : Exc → Option Word
  | .pil a | .pis a | .pif a | .pme a | .pnr a | .pnx a | .ppi a => some a
  | _ => none

/-- An interrupt leaves BADI unchanged; every other exception here records the instruction word (R82, R867). -/
def Exc.recordsBadi : Exc → Bool
  | .int _ => false
  | _ => true

/-- The VPPN field [VALEN-1:13] of an address, sign-extended as TLBEHI and TLBREHI read (12_csr_mmu.md R111, R126). -/
def vppnImage (va : Word) : Word := (bits va 13 Config.vppnBits ++ 0#13).signExtend 64

/-- CRMD with PLV, IE and WE cleared, as on every exception entry (11_csr_basic.md R71). -/
def crmdEntered (crmd : BitVec 32) : BitVec 32 := withBit (withBit (withBits crmd 0 0#2) 2 false) 9 false

/-- PPLV, PIE and PWE, the latter at bit `we`, saved from CRMD (R863, R866). -/
def savedMode (crmd : BitVec 32) (we : Nat) : BitVec 32 :=
  withBit (withBit (withBits 0#32 0 (bits crmd 0 2)) 2 (crmd.getLsbD 2)) we (crmd.getLsbD 9)

/-- The entry of a general exception: EENTRY | offset (R864). -/
def State.entryAddr (s : State) (n : Nat) : Word :=
  s.csr.basic.eentry |||
    (if bits s.csr.basic.ecfg 16 3 = 0#3 then 0
     else BitVec.ofNat 64 (2 ^ ((bits s.csr.basic.ecfg 16 3).toNat + 2) * n))

/-- General exception entry (R863, R867). -/
def State.enterGeneral (s : State) (e : Exc) : State :=
  let b := s.csr.basic
  let s1 := s.setBasic
    { b with
      prmd := savedMode b.crmd 3
      crmd := crmdEntered b.crmd
      era := s.effVa s.pc
      estat := withBits (withBits b.estat 16 e.ecode) 22 e.esubcode
      badv := e.badv.getD b.badv
      badi := if e.recordsBadi then s.ir else b.badi }
  let s2 := match e.pageVa with
    | some a => s1.setMmu { s1.csr.mmu with tlbehi := vppnImage a }
    | none => s1
  s2.setPc (s.entryAddr e.number)

/-- TLB refill exception entry for the bad address `va` (R866, D14). -/
def State.enterRefill (s : State) (va : Word) : State :=
  let b := s.csr.basic
  let r := s.csr.refill
  ((s.setBasic
      { b with crmd := withBit (withBit (crmdEntered b.crmd) 3 true) 4 false, badi := s.ir }).setRefill
    { r with
      prmd := savedMode b.crmd 4
      era := bits s.pc 2 62 ++ 1#2
      badv := va
      ehi := withBits (vppnImage va) 0 (bits r.ehi 0 6) }).setPc r.entry

/-- DBG with its cause bits DEI, DCL, DFW, DMW, at 8 to 11, set to one cause (13 R193). -/
def dbgCause (dbg : BitVec 32) (cause : Nat) : BitVec 32 := withBit (withBits dbg 8 0#4) cause true

/-- A debug call from outside debug mode enters it (49_privileged.md R848; log 37). -/
def State.enterDebug (s : State) : State :=
  (s.setDebug
    { s.csr.dbgRegs with dbg := withBit (dbgCause s.csr.dbgRegs.dbg 9) 0 true, dera := s.pc }).setPc Config.debugEntry

/-- An exception inside debug mode: a debug-only watchpoint is reported by DFW or DMW, any other by DBG.Ecode
(R870, 13 R193; log 37).  DFW and DMW clear the other cause bits, as R848 has it for DBCL, and leave DBG.Ecode; any other
exception, DBCL among them, leaves the cause bits: the model's choice (log 37). -/
def State.enterInDebug (s : State) (e : Exc) : State :=
  let g := s.csr.dbgRegs
  let dbg := match e with
    | .wpef true => dbgCause g.dbg 10
    | .wpem true => dbgCause g.dbg 11
    | _ => withBits g.dbg 16 e.ecode
  (s.setDebug { g with dbg := dbg }).setPc Config.debugEntry

/-- Taking an exception: the one place where any instruction or the fetch does (60_exceptions.md section 3). -/
def State.raise (s : State) (e : Exc) : State :=
  if s.inDebug then s.enterInDebug e
  else match e with
    | .tlbr va => s.enterRefill va
    | .dbcl => s.enterDebug
    | _ => s.enterGeneral e

/-- Machine error exception entry (R868). -/
def State.enterMachineError (s : State) (r : MerrReport) : State :=
  let c := s.csr.basic.crmd
  let ctl : BitVec 32 :=
    0#8 ++ r.cause ++ 0#3 ++ bits c 7 2 ++ bits c 5 2 ++ bits c 4 1 ++ bits c 3 1 ++ bits c 9 1 ++ 0#1 ++
      bits c 2 1 ++ bits c 0 2 ++ BitVec.ofBool r.repairable ++ 1#1
  ((s.setCrmd 8).setMerr
    { s.csr.merr with ctl := ctl, info1 := r.info1, info2 := r.info2, era := s.pc }).setPc s.csr.merr.entry

/-- A machine error: inside debug mode only its code 0xE is recorded (13 R193; log 37). -/
def State.raiseMachineError (s : State) (r : MerrReport) : State :=
  if s.inDebug then
    (s.setDebug { s.csr.dbgRegs with dbg := withBits s.csr.dbgRegs.dbg 16 0xE#6 }).setPc Config.debugEntry
  else s.enterMachineError r

/-- PLV, IE and WE restored from a saved mode whose PWE is at bit `we` (R71). -/
def restoredMode (crmd saved : BitVec 32) (we : Nat) : BitVec 32 :=
  withBit (withBit (withBits crmd 0 (bits saved 0 2)) 2 (saved.getLsbD 2)) 9 (saved.getLsbD we)

/-- CRMD as MERRCTL saved it: PLV, IE, WE, DA, PG, DATF, DATM (R845). -/
def restoredFromMerr (crmd ctl : BitVec 32) : BitVec 32 :=
  withBits (withBits (withBits (withBits crmd 0 (bits ctl 2 2)) 2 (bits ctl 4 1)) 9 (bits ctl 6 1)) 3 (bits ctl 7 6)

/-- The context that ERTN returns from, tested in the order DST, IsMERR, IsTLBR (49_privileged.md R845). -/
def State.returnContext (s : State) : State :=
  if s.inDebug then
    (s.setDebug { s.csr.dbgRegs with dbg := withBit s.csr.dbgRegs.dbg 0 false }).setPc s.csr.dbgRegs.dera
  else if s.isMerr then
    ((s.setCrmd (restoredFromMerr s.csr.basic.crmd s.csr.merr.ctl)).setMerr
      { s.csr.merr with ctl := withBit s.csr.merr.ctl 0 false }).setPc s.csr.merr.era
  else if s.isTlbr then
    ((s.setCrmd (withBit (withBit (restoredMode s.csr.basic.crmd s.csr.refill.prmd 4) 3 false) 4 true)).setRefill
      { s.csr.refill with era := withBit s.csr.refill.era 0 false }).setPc (bits s.csr.refill.era 2 62 ++ 0#2)
  else (s.setCrmd (restoredMode s.csr.basic.crmd s.csr.basic.prmd 3)).setPc s.csr.basic.era

/-- LLBCTL.KLO (11_csr_basic.md R90). -/
def State.klo (s : State) : Bool := s.csr.basic.llbctl.getLsbD 2

/-- Returning from an exception: the context, then LLbit unless KLO keeps it once (49_privileged.md R845). -/
def State.returnFrom (s : State) : State :=
  let t := s.returnContext
  if s.klo then t.setBasic { t.csr.basic with llbctl := withBit t.csr.basic.llbctl 2 false } else t.setLL false

/-! ## Results that may raise or stop -/

/-- Why an operation has no effect to give: a fault or a refusal. -/
inductive Stop where
  | fault (f : Fault)
  | refuse (r : Refusal)
deriving DecidableEq, Repr

/-- The outcome of a stop. -/
def Stop.out : Stop → Out
  | .fault f => .fault f
  | .refuse r => .refused r

/-- A value, an exception to raise, or a stop. -/
inductive Res (α : Type) where
  | ok (a : α)
  | exc (e : Exc)
  | stop (r : Stop)
deriving DecidableEq, Repr

/-- Go on with the value; raise the exception; or stop. -/
def Res.run {α : Type} (r : Res α) (s : State) (k : α → Out) : Out :=
  match r with
  | .ok a => k a
  | .exc e => .next (s.raise e)
  | .stop t => t.out

/-- The value passed on. -/
def Res.bind {α β : Type} (r : Res α) (k : α → Res β) : Res β :=
  match r with
  | .ok a => k a
  | .exc e => .exc e
  | .stop t => .stop t

/-! ## The checks before an instruction executes (30_encoding.md R321, D27) -/

/-- A privileged instruction: IPE unless PLV is 0 (49_privileged.md R810). -/
def privileged (s : State) (k : Out) : Out := if s.plv = 0 then k else .next (s.raise .ipe)

/-- A floating-point instruction: FPD unless EUEN.FPE is 1 (46_fp_arith.md R630). -/
def floating (s : State) (k : Out) : Out := if s.csr.basic.euen.getLsbD 0 then k else .next (s.raise .fpd)

end Sys2Proof.Machine
end

