-- ==== Sys2Proof/Machine/Operands.lean ====
section
/-! DEFINITION. The operand forms: immediates, addresses, pc-relative targets, and the extensions of loaded data
(30_encoding.md R302 to R315). -/

namespace Sys2Proof.Machine

/-! ## Immediates -/

/-- `sext(si12)` (40_int_arith.md R345). -/
def simm12 (i : BitVec 12) : Word := i.signExtend 64

/-- `zext(ui12)` (40_int_arith.md R368). -/
def uimm12 (i : BitVec 12) : Word := i.setWidth 64

/-- `sext({si14, 2'b0})` (43_load_store.md R500; 44_atomic_barrier.md R570). -/
def simm14 (i : BitVec 14) : Word := (i ++ 0#2).signExtend 64

/-- `sext({si16, 16'b0})` (40_int_arith.md R347). -/
def simm16High (i : BitVec 16) : Word := (i ++ 0#16).signExtend 64

/-- `sext({si20, n zeros})` (40_int_arith.md R351, R358 to R361). -/
def simm20 (i : BitVec 20) (n : Nat) : Word := (i ++ 0#n).signExtend 64

/-- A branch offset: `sext({offs, 2'b0})` (42_branch.md R460). -/
def branchOffset {n : Nat} (o : BitVec n) : Word := (o ++ 0#2).signExtend 64

/-! ## Addresses -/

/-- `x[rj] + sext(si12)` (43_load_store.md section 2). -/
def State.addrSi12 (s : State) (rj : Reg) (i : BitVec 12) : Word := s.x rj + simm12 i

/-- `x[rj] + x[rk]` (43_load_store.md section 3). -/
def State.addrIndexed (s : State) (rj rk : Reg) : Word := s.x rj + s.x rk

/-- `x[rj] + sext({si14, 2'b0})` (43_load_store.md R500; 44_atomic_barrier.md R570). -/
def State.addrSi14 (s : State) (rj : Reg) (i : BitVec 14) : Word := s.x rj + simm14 i

/-- The target of a pc-relative branch (42_branch.md R460). -/
def State.target {n : Nat} (s : State) (o : BitVec n) : Word := s.pc + branchOffset o

/-! ## Extensions of loaded data (43_load_store.md R483 to R489) -/

/-- Sign extension from 8 bits. -/
def sextB (w : Word) : Word := (w.setWidth 8).signExtend 64
/-- Sign extension from 16 bits. -/
def sextH (w : Word) : Word := (w.setWidth 16).signExtend 64
/-- Sign extension from 32 bits. -/
def sextW (w : Word) : Word := (w.setWidth 32).signExtend 64
/-- Zero extension from 8 bits. -/
def zextB (w : Word) : Word := (w.setWidth 8).setWidth 64
/-- Zero extension from 16 bits. -/
def zextH (w : Word) : Word := (w.setWidth 16).setWidth 64
/-- Zero extension from 32 bits. -/
def zextW (w : Word) : Word := (w.setWidth 32).setWidth 64

/-- 1 or 0 in a general register (40_int_arith.md R354). -/
def boolWord (b : Bool) : Word := if b then 1 else 0

/-! ## The register shapes of the integer instructions -/

/-- `x[rd] <- f(x[rj], x[rk])`. -/
def op3 (f : Word → Word → Word) (rd rj rk : Reg) (s : State) : Out := .next (s.retire rd (f (s.x rj) (s.x rk)))

/-- `x[rd] <- f(x[rj])`. -/
def op2 (f : Word → Word) (rd rj : Reg) (s : State) : Out := .next (s.retire rd (f (s.x rj)))

/-- `x[rd]` receives any value, and the machine goes on (R380; log 14). -/
def State.retireAny (s : State) (rd : Reg) : State := ((s.setX rd s.free).drawn).advance

/-- The word form of a division: with DIV32 = 0 the result is any value also where an operand is no sign-extended word
(R380, #3, D28). -/
def opDivW (z : Word → Bool) (f : Word → Word → Word) (rd rj rk : Reg) (s : State) : Out :=
  .next (if z (s.x rk) || !(Config.div32 || (sextW (s.x rj) == s.x rj && sextW (s.x rk) == s.x rk)) then s.retireAny rd
    else s.retire rd (f (s.x rj) (s.x rk)))

/-- `x[rd] <- f(x[rj], x[rk])`, or any value where the divisor test `z` of `x[rk]` holds (R380). -/
def opDiv (z : Word → Bool) (f : Word → Word → Word) (rd rj rk : Reg) (s : State) : Out :=
  .next (if z (s.x rk) then s.retireAny rd else s.retire rd (f (s.x rj) (s.x rk)))

end Sys2Proof.Machine
end

