-- ==== Sys2Proof/Machine/Arith.lean ====
section
/-! DEFINITION. Integer arithmetic, logic, multiply and divide (40_int_arith.md). -/

namespace Sys2Proof.Machine

/-! ## The functions -/

/-- A 32-bit operation on the low words, its result sign-extended (R22, R340). -/
def onW (f : BitVec 32 → BitVec 32 → BitVec 32) (x y : Word) : Word := sext32 (f (low32 x) (low32 y))

/-- `(x[31:0] << (sa+1)) + y[31:0]` (R348, R349). -/
def shiftAdd32 (sa : BitVec 2) (x y : Word) : BitVec 32 := (low32 x <<< (sa.toNat + 1)) + low32 y

/-- The 64-bit signed product of the low words (R373, R378). -/
def mulSW (x y : Word) : Word := (low32 x).signExtend 64 * (low32 y).signExtend 64

/-- The 64-bit unsigned product of the low words (R374, R379). -/
def mulUW (x y : Word) : Word := (low32 x).setWidth 64 * (low32 y).setWidth 64

/-- Bits [127:64] of the signed product (R376). -/
def mulHighS (x y : Word) : Word := bits (x.signExtend 128 * y.signExtend 128) 64 64

/-- Bits [127:64] of the unsigned product (R377). -/
def mulHighU (x y : Word) : Word := bits (x.setWidth 128 * y.setWidth 128) 64 64

/-- The divisor of a .W form is 0 (R380). -/
def zeroW (y : Word) : Bool := low32 y == 0

/-- The divisor of a .D form is 0 (R380). -/
def zeroD (y : Word) : Bool := y == 0

/-! ## The meanings -/

/-- add.w, R341. -/
def execAddW (rd : Reg) (rj : Reg) (rk : Reg) (s : State) : Out := op3 (onW (· + ·)) rd rj rk s

/-- add.d, R342. -/
def execAddD (rd : Reg) (rj : Reg) (rk : Reg) (s : State) : Out := op3 (· + ·) rd rj rk s

/-- sub.w, R343. -/
def execSubW (rd : Reg) (rj : Reg) (rk : Reg) (s : State) : Out := op3 (onW (· - ·)) rd rj rk s

/-- sub.d, R344. -/
def execSubD (rd : Reg) (rj : Reg) (rk : Reg) (s : State) : Out := op3 (· - ·) rd rj rk s

/-- addi.w, R345. -/
def execAddiW (rd : Reg) (rj : Reg) (si12 : BitVec 12) (s : State) : Out :=
  op2 (fun x => onW (· + ·) x (simm12 si12)) rd rj s

/-- addi.d, R346. -/
def execAddiD (rd : Reg) (rj : Reg) (si12 : BitVec 12) (s : State) : Out := op2 (fun x => x + simm12 si12) rd rj s

/-- addu16i.d, R347. -/
def execAddu16iD (rd : Reg) (rj : Reg) (si16 : BitVec 16) (s : State) : Out :=
  op2 (fun x => x + simm16High si16) rd rj s

/-- alsl.w, R348. -/
def execAlslW (rd : Reg) (rj : Reg) (rk : Reg) (sa2 : BitVec 2) (s : State) : Out :=
  op3 (fun x y => sext32 (shiftAdd32 sa2 x y)) rd rj rk s

/-- alsl.wu, R349: zero-extended. -/
def execAlslWu (rd : Reg) (rj : Reg) (rk : Reg) (sa2 : BitVec 2) (s : State) : Out :=
  op3 (fun x y => (shiftAdd32 sa2 x y).setWidth 64) rd rj rk s

/-- alsl.d, R350. -/
def execAlslD (rd : Reg) (rj : Reg) (rk : Reg) (sa2 : BitVec 2) (s : State) : Out :=
  op3 (fun x y => (x <<< (sa2.toNat + 1)) + y) rd rj rk s

/-- lu12i.w, R351. -/
def execLu12iW (rd : Reg) (si20 : BitVec 20) (s : State) : Out := .next (s.retire rd (simm20 si20 12))

/-- lu32i.d, R352: bits 31:0 of rd are kept. -/
def execLu32iD (rd : Reg) (si20 : BitVec 20) (s : State) : Out :=
  .next (s.retire rd (si20.signExtend 32 ++ low32 (s.x rd)))

/-- lu52i.d, R353. -/
def execLu52iD (rd : Reg) (rj : Reg) (si12 : BitVec 12) (s : State) : Out :=
  op2 (fun x => si12 ++ bits x 0 52) rd rj s

/-- slt, R354. -/
def execSlt (rd : Reg) (rj : Reg) (rk : Reg) (s : State) : Out := op3 (fun x y => boolWord (x.slt y)) rd rj rk s

/-- sltu, R355. -/
def execSltu (rd : Reg) (rj : Reg) (rk : Reg) (s : State) : Out := op3 (fun x y => boolWord (x.ult y)) rd rj rk s

/-- slti, R356. -/
def execSlti (rd : Reg) (rj : Reg) (si12 : BitVec 12) (s : State) : Out :=
  op2 (fun x => boolWord (x.slt (simm12 si12))) rd rj s

/-- sltui, R357. -/
def execSltui (rd : Reg) (rj : Reg) (si12 : BitVec 12) (s : State) : Out :=
  op2 (fun x => boolWord (x.ult (simm12 si12))) rd rj s

/-- pcaddi, R358. -/
def execPcaddi (rd : Reg) (si20 : BitVec 20) (s : State) : Out :=
  .next (s.retire rd (s.linkVal (s.pc + simm20 si20 2)))

/-- pcaddu12i, R359. -/
def execPcaddu12i (rd : Reg) (si20 : BitVec 20) (s : State) : Out :=
  .next (s.retire rd (s.linkVal (s.pc + simm20 si20 12)))

/-- pcaddu18i, R360. -/
def execPcaddu18i (rd : Reg) (si20 : BitVec 20) (s : State) : Out :=
  .next (s.retire rd (s.linkVal (s.pc + simm20 si20 18)))

/-- pcalau12i, R361: the low 12 bits are erased. -/
def execPcalau12i (rd : Reg) (si20 : BitVec 20) (s : State) : Out :=
  .next (s.retire rd (s.linkVal (bits (s.pc + simm20 si20 12) 12 52 ++ 0#12)))

/-- and, R362. -/
def execAnd (rd : Reg) (rj : Reg) (rk : Reg) (s : State) : Out := op3 (· &&& ·) rd rj rk s

/-- or, R363. -/
def execOr (rd : Reg) (rj : Reg) (rk : Reg) (s : State) : Out := op3 (· ||| ·) rd rj rk s

/-- nor, R364. -/
def execNor (rd : Reg) (rj : Reg) (rk : Reg) (s : State) : Out := op3 (fun x y => ~~~(x ||| y)) rd rj rk s

/-- xor, R365. -/
def execXor (rd : Reg) (rj : Reg) (rk : Reg) (s : State) : Out := op3 (· ^^^ ·) rd rj rk s

/-- andn, R366. -/
def execAndn (rd : Reg) (rj : Reg) (rk : Reg) (s : State) : Out := op3 (fun x y => x &&& ~~~y) rd rj rk s

/-- orn, R367. -/
def execOrn (rd : Reg) (rj : Reg) (rk : Reg) (s : State) : Out := op3 (fun x y => x ||| ~~~y) rd rj rk s

/-- andi, R368. -/
def execAndi (rd : Reg) (rj : Reg) (ui12 : BitVec 12) (s : State) : Out := op2 (fun x => x &&& uimm12 ui12) rd rj s

/-- ori, R369. -/
def execOri (rd : Reg) (rj : Reg) (ui12 : BitVec 12) (s : State) : Out := op2 (fun x => x ||| uimm12 ui12) rd rj s

/-- xori, R370. -/
def execXori (rd : Reg) (rj : Reg) (ui12 : BitVec 12) (s : State) : Out := op2 (fun x => x ^^^ uimm12 ui12) rd rj s

/-- mul.w, R372. -/
def execMulW (rd : Reg) (rj : Reg) (rk : Reg) (s : State) : Out := op3 (onW (· * ·)) rd rj rk s

/-- mulh.w, R373. -/
def execMulhW (rd : Reg) (rj : Reg) (rk : Reg) (s : State) : Out :=
  op3 (fun x y => sext32 (bits (mulSW x y) 32 32)) rd rj rk s

/-- mulh.wu, R374. -/
def execMulhWu (rd : Reg) (rj : Reg) (rk : Reg) (s : State) : Out :=
  op3 (fun x y => sext32 (bits (mulUW x y) 32 32)) rd rj rk s

/-- mul.d, R375. -/
def execMulD (rd : Reg) (rj : Reg) (rk : Reg) (s : State) : Out := op3 (· * ·) rd rj rk s

/-- mulh.d, R376. -/
def execMulhD (rd : Reg) (rj : Reg) (rk : Reg) (s : State) : Out := op3 mulHighS rd rj rk s

/-- mulh.du, R377. -/
def execMulhDu (rd : Reg) (rj : Reg) (rk : Reg) (s : State) : Out := op3 mulHighU rd rj rk s

/-- mulw.d.w, R378. -/
def execMulwDW (rd : Reg) (rj : Reg) (rk : Reg) (s : State) : Out := op3 mulSW rd rj rk s

/-- mulw.d.wu, R379. -/
def execMulwDWu (rd : Reg) (rj : Reg) (rk : Reg) (s : State) : Out := op3 mulUW rd rj rk s

/-- div.w, R380, R381. -/
def execDivW (rd : Reg) (rj : Reg) (rk : Reg) (s : State) : Out := opDivW zeroW (onW BitVec.sdiv) rd rj rk s

/-- mod.w, R380, R382. -/
def execModW (rd : Reg) (rj : Reg) (rk : Reg) (s : State) : Out := opDivW zeroW (onW BitVec.srem) rd rj rk s

/-- div.wu, R380, R383. -/
def execDivWu (rd : Reg) (rj : Reg) (rk : Reg) (s : State) : Out := opDivW zeroW (onW BitVec.udiv) rd rj rk s

/-- mod.wu, R380, R384. -/
def execModWu (rd : Reg) (rj : Reg) (rk : Reg) (s : State) : Out := opDivW zeroW (onW BitVec.umod) rd rj rk s

/-- div.d, R380, R385. -/
def execDivD (rd : Reg) (rj : Reg) (rk : Reg) (s : State) : Out := opDiv zeroD BitVec.sdiv rd rj rk s

/-- mod.d, R380, R386. -/
def execModD (rd : Reg) (rj : Reg) (rk : Reg) (s : State) : Out := opDiv zeroD BitVec.srem rd rj rk s

/-- div.du, R380, R387. -/
def execDivDu (rd : Reg) (rj : Reg) (rk : Reg) (s : State) : Out := opDiv zeroD BitVec.udiv rd rj rk s

/-- mod.du, R380, R388. -/
def execModDu (rd : Reg) (rj : Reg) (rk : Reg) (s : State) : Out := opDiv zeroD BitVec.umod rd rj rk s

end Sys2Proof.Machine
end

