-- ==== Sys2Proof/Machine/Translate.lean ====
section
/-! DEFINITION. Address legality and address translation: direct mode, direct mapping windows, TLB
(21_address_translation.md). -/

namespace Sys2Proof.Machine

/-- The kind of an access (20_memory.md R215). -/
inductive AccKind where
  | fetch
  | load
  | store
deriving DecidableEq, Repr

/-- Memory access type CC, coherent cached (20_memory.md R206). -/
def matCC : BitVec 2 := 1

/-- RVACFG.RBits (11_csr_basic.md R84). -/
def State.rbits (s : State) : Nat := (bits s.csr.basic.rvacfg 0 4).toNat

/-- The settings that the spec gives no behaviour: DA = PG, and RBits above 8 (R73, R84, #13, #14). -/
def State.modeStop (s : State) : Option Refusal :=
  if s.da = s.pg then some .translationModeUndefined
  else if Config.rvaMax < s.rbits then some .addressReductionUndefined
  else none

/-! ## Direct mapping windows (R255) -/

/-- The windows that an access of this kind tests: the first two for a fetch, all four otherwise (R255). -/
def State.windows (s : State) (k : AccKind) : List Word :=
  match k with
  | .fetch => s.csr.mmu.dmw.toList.take 2
  | .load => s.csr.mmu.dmw.toList
  | .store => s.csr.mmu.dmw.toList

/-- Window `w` hits at this privilege level (R255). -/
def State.windowHits (s : State) (va w : Word) : Bool := bits va 60 4 == bits w 60 4 && w.getLsbD s.plv.toNat

/-- The lowest-numbered window that hits (R255, D7). -/
def State.window (s : State) (k : AccKind) (va : Word) : Option Word := (s.windows k).find? (s.windowHits va)

/-- `va[PALEN-1:0]` (R254, R255). -/
def physOf (va : Word) : Nat := (bits va 0 Config.palen).toNat

/-! ## Legality (R251, R252) -/

/-- Bits [63:V] of a page-table-mapped address equal bit [V-1], V = VALEN - RBits. -/
def State.canonicalVa (s : State) (va : Word) : Bool :=
  let h := va.sshiftRight (Config.valen - 1 - s.rbits)
  h == 0 || h == BitVec.allOnes 64

/-- The address is legal for the access in the current mode (R251). -/
def State.legal (s : State) (k : AccKind) (va : Word) : Bool :=
  s.da || (s.window k va).isSome || s.canonicalVa va

/-! ## The TLB (R260 to R267, 49_privileged.md R830) -/

/-- An index of the STLB part (R830). -/
def isStlb (i : Nat) : Bool := decide (i < Config.stlbEntries)

/-- STLBPS.PS (12_csr_mmu.md R120). -/
def State.stlbPs (s : State) : BitVec 6 := bits s.csr.mmu.stlbps 0 6

/-- log2 of the page size of a listed entry: STLBPS.PS in the STLB, its own in the MTLB (R260, R262). -/
def State.entryPs (s : State) (e : Nat × TlbEntry) : Nat := (if isStlb e.1 then s.stlbPs else e.2.ps).toNat

/-- PRCFG2.PSAVL supports the page size 2^ps (11_csr_basic.md R87). -/
def pageSizeOk (ps : Nat) : Bool := Config.prcfg2.getLsbD ps

/-- `VPPN[VALEN-1:ps+1] == va[VALEN-1:ps+1]` (R262). -/
def vaMatch (vppn : BitVec Config.vppnBits) (ps : Nat) (va : Word) : Bool :=
  (vppn ++ 0#13) >>> (ps + 1) == bits va 0 Config.valen >>> (ps + 1)

/-- An entry matches (R262): global or of this ASID, and of the same page pair.  All STLB entries are examined, since
the spec lets the TLB be an unordered set of entries (90_conflicts.md C13; log 39). -/
def State.tlbMatches (s : State) (asid : BitVec Config.asidBits) (va : Word) (e : Nat × TlbEntry) : Bool :=
  (e.2.g || e.2.asid == asid) && vaMatch e.2.vppn (s.entryPs e) va

/-- ASID.ASID (12_csr_mmu.md R114). -/
def State.asid (s : State) : BitVec Config.asidBits := bits s.csr.mmu.asid 0 Config.asidBits

/-- STLBPS.PS names a page size that PRCFG2 does not support (12_csr_mmu.md R120, #43; log 44). -/
def State.stlbPsBad (s : State) : Bool := !pageSizeOk s.stlbPs.toNat

/-- STLBPS.PS or some entry has a page size that PRCFG2 does not support (12_csr_mmu.md R120, #43; log 44). -/
def State.tlbSizesBad (s : State) : Bool := s.stlbPsBad || s.tlb.any fun e => !pageSizeOk (s.entryPs e)

/-- The matching entry, if any; more than one has no defined behaviour, nor has a lookup under an unsupported page size,
that of STLBPS included, whether or not the STLB holds an entry (R262, R263; 12_csr_mmu.md R120, log 44). -/
def State.tlbFind (s : State) (va : Word) : Res (Option (Nat × TlbEntry)) :=
  if s.tlbSizesBad then .stop (.refuse .pageSizeUnsupported)
  else match s.tlb.filter (s.tlbMatches s.asid va) with
    | [] => .ok none
    | [e] => .ok (some e)
    | _ => .stop (.fault .multipleTlbHits)

/-- The page of the pair that an address selects: bit `ps` (R265). -/
def pageOf (e : TlbEntry) (ps : Nat) (va : Word) : TlbPage := if va.getLsbD ps then e.page1 else e.page0

/-- The exception of an access to an invalid page (R266 check 1). -/
def pageInvalid (k : AccKind) (va : Word) : Exc :=
  match k with
  | .fetch => .pif va
  | .load => .pil va
  | .store => .pis va

/-- The page is not for this privilege level (R266 check 3). -/
def plvIllegal (plv : BitVec 2) (p : TlbPage) : Bool :=
  if p.rplv then plv != p.plv else decide (p.plv < plv)

/-- A store to a clean page is refused: D = 0 and no DWPL bit of this level lifts it (R266 check 5). -/
def State.writeProtected (s : State) (p : TlbPage) : Bool :=
  !p.d && (s.plv == 3 || !(s.csr.basic.misc.getLsbD (16 + s.plv.toNat)))

/-- The checks of R266 in their order; `va` is the address to record. -/
def State.pageFault (s : State) (k : AccKind) (va : Word) (p : TlbPage) : Option Exc :=
  if !p.v then some (pageInvalid k va)
  else if k = .fetch ∧ p.nx then some (.pnx va)
  else if plvIllegal s.plv p then some (.ppi va)
  else if k = .load ∧ p.nr then some (.pnr va)
  else if k = .store ∧ s.writeProtected p then some (.pme va)
  else none

/-- `{ppn[PALEN-1:ps], va[ps-1:0]}` (R267). -/
def pagePhys (p : TlbPage) (ps : Nat) (va : Word) : Nat :=
  ((((p.ppn ++ 0#12) >>> ps) <<< ps) ||| (bits va 0 Config.palen &&& ((1 <<< ps) - 1))).toNat

/-- A physical address and the memory access type of the access (R206). -/
structure Phys where
  pa : Nat
  mat : BitVec 2
deriving DecidableEq, Repr

/-- The reserved memory access type has no behaviour (20_memory.md R206, #42). -/
def checkMat (p : Phys) : Res Phys := if p.mat = 3 then .stop (.refuse .memoryTypeReserved) else .ok p

/-- CRMD.DATF for a fetch, CRMD.DATM for a load or store (R254). -/
def State.directMat (s : State) (k : AccKind) : BitVec 2 :=
  match k with
  | .fetch => bits s.csr.basic.crmd 5 2
  | .load => bits s.csr.basic.crmd 7 2
  | .store => bits s.csr.basic.crmd 7 2

/-- The page-table-mapped part of translation (R262 to R267).  A TLB refill records `va` itself; a page exception
records `first`, the first address of the access (D47; log 40). -/
def State.translatePage (s : State) (k : AccKind) (first va : Word) : Res Phys :=
  (s.tlbFind va).bind fun
    | none => .exc (.tlbr va)
    | some e =>
      match s.pageFault k first (pageOf e.2 (s.entryPs e) va) with
      | some x => .exc x
      | none =>
        checkMat ⟨pagePhys (pageOf e.2 (s.entryPs e) va) (s.entryPs e) va, (pageOf e.2 (s.entryPs e) va).mat⟩

/-- Translation of a legal address: direct mode, a direct mapping window, or the TLB (R254). -/
def State.translate (s : State) (k : AccKind) (first va : Word) : Res Phys :=
  match s.modeStop with
  | some r => .stop (.refuse r)
  | none =>
    if s.da then checkMat ⟨physOf va, s.directMat k⟩
    else match s.window k va with
      | some w => checkMat ⟨physOf va, bits w 4 2⟩
      | none => s.translatePage k first va

/-- The virtual addresses of the `n` bytes of an access, in rising order (20_memory.md R204, R213): beyond the last
address they go on at 0, the model's choice (log 76). -/
def State.byteVas (s : State) (va : Word) (n : Nat) : List Word :=
  (List.range n).map fun i => s.effVa (va + BitVec.ofNat 64 i)

/-- Each byte of an access translated by its own page (20_memory.md R204).  Where more than one page raises an exception
it is that of the lowest byte, the model's choice (log 75). -/
def State.translateAll (s : State) (k : AccKind) (first : Word) : List Word → Res (List Phys)
  | [] => .ok []
  | va :: vas => (s.translate k first va).bind fun p => (s.translateAll k first vas).bind fun ps => .ok (p :: ps)

end Sys2Proof.Machine
end

