-- ==== Sys2Proof/Machine/Access.lean ====
section
/-! DEFINITION. The path of one data access: alignment, legality, bound check, translation, watchpoints
(20_memory.md R215; 60_exceptions.md R878), and the loads, stores and read-modify-writes made over it. -/

namespace Sys2Proof.Machine

/-- When an access must be naturally aligned (20_memory.md R212, R213). -/
inductive AlignRule where
  /-- Always: atomics, LL/SC, bound-check accesses (R212). -/
  | always
  /-- When MISC.ALCL of the privilege level is 1 (R213). -/
  | configured
  /-- Never: CACOP (49_privileged.md R823). -/
  | never
deriving DecidableEq, Repr

/-- One data access (20_memory.md R215). -/
structure Access where
  /-- The virtual address, already reduced to 32 bits in 32-bit address mode. -/
  va : Word
  /-- Width in bytes. -/
  size : Nat
  kind : AccKind
  align : AlignRule
  /-- The bound check of a bound-check instruction passes; true for every other (R512). -/
  boundOk : Bool
  /-- A load watchpoint may match (13 R185). -/
  watchLoad : Bool
  /-- A store watchpoint may match (13 R185). -/
  watchStore : Bool
deriving DecidableEq, Repr

/-- The alignment of the access is checked (R212, R213; 11_csr_basic.md R75). -/
def State.alignChecked (s : State) (r : AlignRule) : Bool :=
  match r with
  | .always => true
  | .configured => !Config.ual || s.csr.basic.misc.getLsbD (12 + s.plv.toNat)
  | .never => false

/-- An access may not span pages of different memory access types (R214), nor windows of different ones, or a window and a
page, of which R214 says nothing: the model's choice (log 79). -/
def sameMat (ps : List Phys) : Bool :=
  match ps with
  | [] => true
  | p :: qs => qs.all (·.mat == p.mat)

/-- Steps 2 to 6 of the access path, in their order (R215).  Step 3 tests every byte, not the first alone, the model's
choice (log 74). -/
def State.checkAccess (s : State) (a : Access) : Res (List Phys) :=
  match s.modeStop with
  | some r => .stop (.refuse r)
  | none =>
    if s.alignChecked a.align && a.va.toNat % a.size != 0 then .exc (.ale a.va)
    else if !(s.byteVas a.va a.size).all (s.legal a.kind) then .exc (.adem a.va)
    else if !a.boundOk then .exc (.bce a.va)
    else (s.translateAll a.kind a.va (s.byteVas a.va a.size)).bind fun ps =>
      if sameMat ps then .ok ps else .exc (.ale a.va)

/-! ## Load/store watchpoints (13_csr_timer_ras_perf_watch_debug.md R181 to R185) -/

/-- The byte vector of an access by its width and `va[2:0]` (R185, D22).  Of an unaligned access, for which the source
defines none, it is that of the aligned position that holds the first byte, the model's choice (log 47). -/
def mbyten (size off : Nat) : BitVec 8 :=
  if size = 1 then 1#8 <<< off
  else if size = 2 then 3#8 <<< (off / 2 * 2)
  else if size = 4 then 0xF#8 <<< (off / 4 * 4)
  else 0xFF#8

/-- The bytes masked out of the comparison, by CFG3.Size and CFG1.VAddr[2:0] (R185). -/
def bytemask (size : BitVec 2) (off : Nat) : BitVec 8 :=
  if size = 0#2 then 0#8
  else if size = 1#2 then ~~~(0xF#8 <<< (off / 4 * 4))
  else if size = 2#2 then ~~~(3#8 <<< (off / 2 * 2))
  else ~~~(1#8 <<< off)

/-- Steps 1, 2, 3 and the ASID step, which load/store and fetch watchpoints share (R185, R191). -/
def State.watchArmed (s : State) (w : Watchpoint) : Bool :=
  s.we && (s.inDebug || !w.cfg3.getLsbD 0) && w.cfg3.getLsbD (1 + s.plv.toNat) &&
    !(w.cfg3.getLsbD 7 && s.asid != bits w.cfg4 0 Config.asidBits)

/-- The address comparison under the mask (R185 step 6, R191 step 5). -/
def addrUnderMask (w : Watchpoint) (va : Word) : Bool := (va &&& ~~~w.cfg2) == (w.cfg1 &&& ~~~w.cfg2)

/-- The doublewords or parts of them that an access presents to the watchpoints: SC.Q presents two (D22). -/
def Access.probes (a : Access) : List (Word × BitVec 8) :=
  if a.size = 16 then [(a.va, 0xFF#8), (a.va + 8, 0xFF#8)]
  else [(a.va, mbyten a.size (a.va.toNat % 8))]

/-- The load/store watchpoint hit test (R185). -/
def State.mwpHits (s : State) (a : Access) (w : Watchpoint) : Bool :=
  s.watchArmed w &&
    ((a.watchLoad && w.cfg3.getLsbD 8) || (a.watchStore && w.cfg3.getLsbD 9)) &&
    a.probes.any fun p =>
      addrUnderMask w p.1 && (~~~(bytemask (bits w.cfg3 10 2) (w.cfg1.toNat % 8)) &&& p.2) != 0#8

/-- The watchpoints that hit, the first in bit 0. -/
def hitBits (hit : Watchpoint → Bool) : List Watchpoint → BitVec 32
  | [] => 0
  | w :: ws => (hitBits hit ws <<< 1) ||| (BitVec.ofBool (hit w)).setWidth 32

/-- A status word from the watchpoints that hit: bit i for watchpoint i (R181, R187). -/
def hitMask {n : Nat} (hit : Watchpoint → Bool) (ws : Vector Watchpoint n) : BitVec 32 := hitBits hit ws.toList

/-- Some watchpoint that hits is available only in debug mode (R183, R189): it then decides how debug mode reports the
exception, whatever else hits (log 37). -/
def debugOnlyHit {n : Nat} (hit : Watchpoint → Bool) (ws : Vector Watchpoint n) : Bool :=
  ws.toList.any fun w => hit w && w.cfg3.getLsbD 0

/-- MWPS replaced. -/
def State.setMwps (s : State) (v : BitVec 32) : State := s.setWatch { s.csr.watch with mwps := v }

/-- The watchpoint test, last before the access (D25): a hit raises WPEM and sets the Status bits, unless Skip lets it
pass once (R181, R185). -/
def State.watched (s : State) (a : Access) (k : State → Out) : Out :=
  if hitMask (s.mwpHits a) s.csr.watch.mwp = 0 then k s
  else if s.csr.watch.mwps.getLsbD 16 then k (s.setMwps (withBit s.csr.watch.mwps 16 false))
  else .next ((s.setMwps (s.csr.watch.mwps ||| hitMask (s.mwpHits a) s.csr.watch.mwp)).raise
    (.wpem (debugOnlyHit (s.mwpHits a) s.csr.watch.mwp)))

/-- The whole path of an access, then what the instruction does at the physical addresses (R215). -/
def access (s : State) (a : Access) (k : List Phys → State → Out) : Out :=
  (s.checkAccess a).run s fun ps => s.watched a (k ps)

/-- The physical addresses alone. -/
def physAddrs (ps : List Phys) : List Nat := ps.map (·.pa)

/-- Every byte of the access is of type CC (20_memory.md R206, R581). -/
def allCached (ps : List Phys) : Bool := ps.all (·.mat == matCC)

/-! ## The accesses of the instruction families -/

/-- An ordinary load of `size` bytes (43_load_store.md R481). -/
def State.ordLoad (s : State) (va : Word) (size : Nat) : Access :=
  { va := s.effVa va, size, kind := .load, align := .configured, boundOk := true, watchLoad := true, watchStore := false }

/-- An ordinary store of `size` bytes (43_load_store.md R481). -/
def State.ordStore (s : State) (va : Word) (size : Nat) : Access :=
  { va := s.effVa va, size, kind := .store, align := .configured, boundOk := true, watchLoad := false, watchStore := true }

/-- A bound-check load (43_load_store.md R512). -/
def State.boundLoad (s : State) (va : Word) (size : Nat) (ok : Bool) : Access :=
  { s.ordLoad va size with align := .always, boundOk := ok }

/-- A bound-check store (43_load_store.md R512). -/
def State.boundStore (s : State) (va : Word) (size : Nat) (ok : Bool) : Access :=
  { s.ordStore va size with align := .always, boundOk := ok }

/-- The load of LL and LLACQ: always aligned, of kind LOAD (44_atomic_barrier.md R545, R570). -/
def State.linkedLoad (s : State) (va : Word) (size : Nat) : Access := { s.ordLoad va size with align := .always }

/-- The store of SC and SCREL: always aligned, of kind STORE (44_atomic_barrier.md R545, R570). -/
def State.condStore (s : State) (va : Word) (size : Nat) : Access := { s.ordStore va size with align := .always }

/-- The access of AM* and AMCAS: always aligned, of kind STORE, matching load and store watchpoints
(44_atomic_barrier.md R543, R545, D33). -/
def State.atomicAccess (s : State) (va : Word) (size : Nat) : Access :=
  { s.ordStore va size with align := .always, watchLoad := true }

/-- The load of LDDIR and LDPTE: an ordinary load, which a load watchpoint may match (49_privileged.md R840, R841;
60_exceptions.md R876). -/
def State.walkLoad (s : State) (va : Word) : Access := s.ordLoad va 8

/-- The query of a CACOP hit operation: a one-byte load without alignment and watchpoints (49_privileged.md R823). -/
def State.cacopQuery (s : State) (va : Word) : Access :=
  { s.ordLoad va 1 with align := .never, watchLoad := false }

/-- A load into `x[rd]` through the extension `ext`. -/
def loadX (s : State) (a : Access) (rd : Reg) (ext : Word → Word) : Out :=
  access s a fun ps t => .next (t.retire rd (ext (t.loadBytes (physAddrs ps))))

/-- A store of the low bytes of `v`. -/
def storeX (s : State) (a : Access) (v : Word) : Out :=
  access s a fun ps t => .next (t.storeBytes (physAddrs ps) v).advance

end Sys2Proof.Machine
end

