-- ==== Sys2Proof/Machine/Atomic.lean ====
section
/-! DEFINITION. Atomic read-modify-write, compare and swap, load-linked and store-conditional, barriers
(44_atomic_barrier.md).  On one core in program order a `_DB` form behaves as the plain form (R544). -/

namespace Sys2Proof.Machine

/-! ## Shared operations -/

/-- Read, operate, write back, old value to rd (R540, R565).  With rd = rk other than r0 the value left in the cell and
the value left in rd are any values (R542, #4; log 15). -/
def amo (size : Nat) (ext : Word → Word) (f : Word → Word → Word) (rd rj rk : Reg) (s : State) : Out :=
  access s (s.atomicAccess (s.x rj) size) fun ps t =>
    .next (if rd = rk ∧ rd ≠ 0 then (t.storeBytes (physAddrs ps) t.free).drawn.retireAny rd
      else (t.storeBytes (physAddrs ps) (f (t.loadBytes (physAddrs ps)) (s.x rk))).retire rd
        (ext (t.loadBytes (physAddrs ps))))

/-- The word and doubleword AM*: INE when rd = rj (R541). -/
def amoChecked (size : Nat) (ext : Word → Word) (f : Word → Word → Word) (rd rj rk : Reg) (s : State) : Out :=
  if rd = rj then .next (s.raise .ine) else amo size ext f rd rj rk s

/-- Compare and swap: `trunc` takes the low bytes of the expected value (R583). -/
def amcas (size : Nat) (ext trunc : Word → Word) (rd rj rk : Reg) (s : State) : Out :=
  access s (s.atomicAccess (s.x rj) size) fun ps t =>
    .next ((if t.loadBytes (physAddrs ps) = trunc (s.x rd) then t.storeBytes (physAddrs ps) (s.x rk) else t).retire rd
      (ext (t.loadBytes (physAddrs ps))))

/-- The new value written by AMSWAP (R547). -/
def amSwap (_old v : Word) : Word := v
/-- Signed maximum of the low words (R557). -/
def amMaxW (old v : Word) : Word := if (low32 old).slt (low32 v) then v else old
/-- Signed minimum of the low words (R559). -/
def amMinW (old v : Word) : Word := if (low32 v).slt (low32 old) then v else old
/-- Unsigned maximum of the low words (R561). -/
def amMaxWU (old v : Word) : Word := if (low32 old).ult (low32 v) then v else old
/-- Unsigned minimum of the low words (R563). -/
def amMinWU (old v : Word) : Word := if (low32 v).ult (low32 old) then v else old
/-- Signed maximum (R558). -/
def amMaxD (old v : Word) : Word := if old.slt v then v else old
/-- Signed minimum (R560). -/
def amMinD (old v : Word) : Word := if v.slt old then v else old
/-- Unsigned maximum (R562). -/
def amMaxDU (old v : Word) : Word := if old.ult v then v else old
/-- Unsigned minimum (R564). -/
def amMinDU (old v : Word) : Word := if v.ult old then v else old

/-- LL and LLACQ: the load, LLbit set, the address recorded (R571, R576).  Off CC memory the value loaded is any value
(R581, #5; log 16). -/
def loadLinked (va : Word) (size : Nat) (ext : Word → Word) (rd : Reg) (s : State) : Out :=
  access s (s.linkedLoad va size) fun ps t =>
    let u := { t with llbit := true, llAddr := s.effVa va }
    .next (if allCached ps then u.retire rd (ext (u.loadBytes (physAddrs ps)))
      else u.drawn.retire rd (ext u.free))

/-- SC, SCREL and SC.Q: `put` stores the data; rd receives 1 if it was stored, else 0; LLbit is cleared (R573, R575,
R580, D34).  Off CC memory whether the store happens and the flag are any values (R581, #5; log 16). -/
def storeCond (a : Access) (put : List Nat → State → State) (rd : Reg) (s : State) : Out :=
  access s a fun ps t =>
    .next (if allCached ps then
        ((if t.llbit then put (physAddrs ps) t else t).setLL false).retire rd (boolWord t.llbit)
      else (((if t.free.getLsbD 1 then put (physAddrs ps) t else t).setLL false).drawn).retire rd
        (boolWord (t.free.getLsbD 0)))

/-! ## The meanings -/

/-- amswap.w, R540 to R545, R547. -/
def execAmswapW (rd : Reg) (rj : Reg) (rk : Reg) (s : State) : Out := amoChecked 4 sextW amSwap rd rj rk s

/-- amswap.d, R540 to R545, R548. -/
def execAmswapD (rd : Reg) (rj : Reg) (rk : Reg) (s : State) : Out := amoChecked 8 id amSwap rd rj rk s

/-- amadd.w, R540 to R545, R549. -/
def execAmaddW (rd : Reg) (rj : Reg) (rk : Reg) (s : State) : Out := amoChecked 4 sextW (· + ·) rd rj rk s

/-- amadd.d, R540 to R545, R550. -/
def execAmaddD (rd : Reg) (rj : Reg) (rk : Reg) (s : State) : Out := amoChecked 8 id (· + ·) rd rj rk s

/-- amand.w, R540 to R545, R551. -/
def execAmandW (rd : Reg) (rj : Reg) (rk : Reg) (s : State) : Out := amoChecked 4 sextW (· &&& ·) rd rj rk s

/-- amand.d, R540 to R545, R552. -/
def execAmandD (rd : Reg) (rj : Reg) (rk : Reg) (s : State) : Out := amoChecked 8 id (· &&& ·) rd rj rk s

/-- amor.w, R540 to R545, R553. -/
def execAmorW (rd : Reg) (rj : Reg) (rk : Reg) (s : State) : Out := amoChecked 4 sextW (· ||| ·) rd rj rk s

/-- amor.d, R540 to R545, R554. -/
def execAmorD (rd : Reg) (rj : Reg) (rk : Reg) (s : State) : Out := amoChecked 8 id (· ||| ·) rd rj rk s

/-- amxor.w, R540 to R545, R555. -/
def execAmxorW (rd : Reg) (rj : Reg) (rk : Reg) (s : State) : Out := amoChecked 4 sextW (· ^^^ ·) rd rj rk s

/-- amxor.d, R540 to R545, R556. -/
def execAmxorD (rd : Reg) (rj : Reg) (rk : Reg) (s : State) : Out := amoChecked 8 id (· ^^^ ·) rd rj rk s

/-- ammax.w, R540 to R545, R557. -/
def execAmmaxW (rd : Reg) (rj : Reg) (rk : Reg) (s : State) : Out := amoChecked 4 sextW amMaxW rd rj rk s

/-- ammax.d, R540 to R545, R558. -/
def execAmmaxD (rd : Reg) (rj : Reg) (rk : Reg) (s : State) : Out := amoChecked 8 id amMaxD rd rj rk s

/-- ammin.w, R540 to R545, R559. -/
def execAmminW (rd : Reg) (rj : Reg) (rk : Reg) (s : State) : Out := amoChecked 4 sextW amMinW rd rj rk s

/-- ammin.d, R540 to R545, R560. -/
def execAmminD (rd : Reg) (rj : Reg) (rk : Reg) (s : State) : Out := amoChecked 8 id amMinD rd rj rk s

/-- ammax.wu, R540 to R545, R561. -/
def execAmmaxWu (rd : Reg) (rj : Reg) (rk : Reg) (s : State) : Out := amoChecked 4 sextW amMaxWU rd rj rk s

/-- ammax.du, R540 to R545, R562. -/
def execAmmaxDu (rd : Reg) (rj : Reg) (rk : Reg) (s : State) : Out := amoChecked 8 id amMaxDU rd rj rk s

/-- ammin.wu, R540 to R545, R563. -/
def execAmminWu (rd : Reg) (rj : Reg) (rk : Reg) (s : State) : Out := amoChecked 4 sextW amMinWU rd rj rk s

/-- ammin.du, R540 to R545, R564. -/
def execAmminDu (rd : Reg) (rj : Reg) (rk : Reg) (s : State) : Out := amoChecked 8 id amMinDU rd rj rk s

/-- amswap_db.w, R540 to R545, R950. -/
def execAmswapDbW (rd : Reg) (rj : Reg) (rk : Reg) (s : State) : Out := amoChecked 4 sextW amSwap rd rj rk s

/-- amswap_db.d, R540 to R545, R951. -/
def execAmswapDbD (rd : Reg) (rj : Reg) (rk : Reg) (s : State) : Out := amoChecked 8 id amSwap rd rj rk s

/-- amadd_db.w, R540 to R545, R952. -/
def execAmaddDbW (rd : Reg) (rj : Reg) (rk : Reg) (s : State) : Out := amoChecked 4 sextW (· + ·) rd rj rk s

/-- amadd_db.d, R540 to R545, R953. -/
def execAmaddDbD (rd : Reg) (rj : Reg) (rk : Reg) (s : State) : Out := amoChecked 8 id (· + ·) rd rj rk s

/-- amand_db.w, R540 to R545, R954. -/
def execAmandDbW (rd : Reg) (rj : Reg) (rk : Reg) (s : State) : Out := amoChecked 4 sextW (· &&& ·) rd rj rk s

/-- amand_db.d, R540 to R545, R955. -/
def execAmandDbD (rd : Reg) (rj : Reg) (rk : Reg) (s : State) : Out := amoChecked 8 id (· &&& ·) rd rj rk s

/-- amor_db.w, R540 to R545, R956. -/
def execAmorDbW (rd : Reg) (rj : Reg) (rk : Reg) (s : State) : Out := amoChecked 4 sextW (· ||| ·) rd rj rk s

/-- amor_db.d, R540 to R545, R957. -/
def execAmorDbD (rd : Reg) (rj : Reg) (rk : Reg) (s : State) : Out := amoChecked 8 id (· ||| ·) rd rj rk s

/-- amxor_db.w, R540 to R545, R958. -/
def execAmxorDbW (rd : Reg) (rj : Reg) (rk : Reg) (s : State) : Out := amoChecked 4 sextW (· ^^^ ·) rd rj rk s

/-- amxor_db.d, R540 to R545, R959. -/
def execAmxorDbD (rd : Reg) (rj : Reg) (rk : Reg) (s : State) : Out := amoChecked 8 id (· ^^^ ·) rd rj rk s

/-- ammax_db.w, R540 to R545, R960. -/
def execAmmaxDbW (rd : Reg) (rj : Reg) (rk : Reg) (s : State) : Out := amoChecked 4 sextW amMaxW rd rj rk s

/-- ammax_db.d, R540 to R545, R961. -/
def execAmmaxDbD (rd : Reg) (rj : Reg) (rk : Reg) (s : State) : Out := amoChecked 8 id amMaxD rd rj rk s

/-- ammin_db.w, R540 to R545, R962. -/
def execAmminDbW (rd : Reg) (rj : Reg) (rk : Reg) (s : State) : Out := amoChecked 4 sextW amMinW rd rj rk s

/-- ammin_db.d, R540 to R545, R963. -/
def execAmminDbD (rd : Reg) (rj : Reg) (rk : Reg) (s : State) : Out := amoChecked 8 id amMinD rd rj rk s

/-- ammax_db.wu, R540 to R545, R964. -/
def execAmmaxDbWu (rd : Reg) (rj : Reg) (rk : Reg) (s : State) : Out := amoChecked 4 sextW amMaxWU rd rj rk s

/-- ammax_db.du, R540 to R545, R965. -/
def execAmmaxDbDu (rd : Reg) (rj : Reg) (rk : Reg) (s : State) : Out := amoChecked 8 id amMaxDU rd rj rk s

/-- ammin_db.wu, R540 to R545, R966. -/
def execAmminDbWu (rd : Reg) (rj : Reg) (rk : Reg) (s : State) : Out := amoChecked 4 sextW amMinWU rd rj rk s

/-- ammin_db.du, R540 to R545, R967. -/
def execAmminDbDu (rd : Reg) (rj : Reg) (rk : Reg) (s : State) : Out := amoChecked 8 id amMinDU rd rj rk s

/-- amswap.b, R565, R566 (D36). -/
def execAmswapB (rd : Reg) (rj : Reg) (rk : Reg) (s : State) : Out := amo 1 sextB amSwap rd rj rk s

/-- amswap_db.b, R565, R968 (D36). -/
def execAmswapDbB (rd : Reg) (rj : Reg) (rk : Reg) (s : State) : Out := amo 1 sextB amSwap rd rj rk s

/-- amswap.h, R565, R567 (D36). -/
def execAmswapH (rd : Reg) (rj : Reg) (rk : Reg) (s : State) : Out := amo 2 sextH amSwap rd rj rk s

/-- amswap_db.h, R565, R969 (D36). -/
def execAmswapDbH (rd : Reg) (rj : Reg) (rk : Reg) (s : State) : Out := amo 2 sextH amSwap rd rj rk s

/-- amadd.b, R565, R568 (D36). -/
def execAmaddB (rd : Reg) (rj : Reg) (rk : Reg) (s : State) : Out := amo 1 sextB (· + ·) rd rj rk s

/-- amadd_db.b, R565, R970 (D36). -/
def execAmaddDbB (rd : Reg) (rj : Reg) (rk : Reg) (s : State) : Out := amo 1 sextB (· + ·) rd rj rk s

/-- amadd.h, R565, R569 (D36). -/
def execAmaddH (rd : Reg) (rj : Reg) (rk : Reg) (s : State) : Out := amo 2 sextH (· + ·) rd rj rk s

/-- amadd_db.h, R565, R971 (D36). -/
def execAmaddDbH (rd : Reg) (rj : Reg) (rk : Reg) (s : State) : Out := amo 2 sextH (· + ·) rd rj rk s

/-- amcas.b, R583, R584. -/
def execAmcasB (rd : Reg) (rj : Reg) (rk : Reg) (s : State) : Out := amcas 1 sextB zextB rd rj rk s

/-- amcas_db.b, R583, R972. -/
def execAmcasDbB (rd : Reg) (rj : Reg) (rk : Reg) (s : State) : Out := amcas 1 sextB zextB rd rj rk s

/-- amcas.h, R583, R585. -/
def execAmcasH (rd : Reg) (rj : Reg) (rk : Reg) (s : State) : Out := amcas 2 sextH zextH rd rj rk s

/-- amcas_db.h, R583, R973. -/
def execAmcasDbH (rd : Reg) (rj : Reg) (rk : Reg) (s : State) : Out := amcas 2 sextH zextH rd rj rk s

/-- amcas.w, R583, R586. -/
def execAmcasW (rd : Reg) (rj : Reg) (rk : Reg) (s : State) : Out := amcas 4 sextW zextW rd rj rk s

/-- amcas_db.w, R583, R974. -/
def execAmcasDbW (rd : Reg) (rj : Reg) (rk : Reg) (s : State) : Out := amcas 4 sextW zextW rd rj rk s

/-- amcas.d, R583, R587. -/
def execAmcasD (rd : Reg) (rj : Reg) (rk : Reg) (s : State) : Out := amcas 8 id id rd rj rk s

/-- amcas_db.d, R583, R975. -/
def execAmcasDbD (rd : Reg) (rj : Reg) (rk : Reg) (s : State) : Out := amcas 8 id id rd rj rk s

/-- ll.w, R570, R571. -/
def execLlW (rd : Reg) (rj : Reg) (si14 : BitVec 14) (s : State) : Out := loadLinked (s.addrSi14 rj si14) 4 sextW rd s

/-- ll.d, R570, R572. -/
def execLlD (rd : Reg) (rj : Reg) (si14 : BitVec 14) (s : State) : Out := loadLinked (s.addrSi14 rj si14) 8 id rd s

/-- sc.w, R570, R573. -/
def execScW (rd : Reg) (rj : Reg) (si14 : BitVec 14) (s : State) : Out :=
  storeCond (s.condStore (s.addrSi14 rj si14) 4) (fun as t => t.storeBytes as (s.x rd)) rd s

/-- sc.d, R570, R574. -/
def execScD (rd : Reg) (rj : Reg) (si14 : BitVec 14) (s : State) : Out :=
  storeCond (s.condStore (s.addrSi14 rj si14) 8) (fun as t => t.storeBytes as (s.x rd)) rd s

/-- sc.q, R575: the low half is rd, the high half rk. -/
def execScQ (rd : Reg) (rj : Reg) (rk : Reg) (s : State) : Out := storeCond (s.condStore (s.x rj) 16)
    (fun as t => (t.storeBytes (as.take 8) (s.x rd)).storeBytes (as.drop 8) (s.x rk)) rd s

/-- llacq.w, R576, R588. -/
def execLlacqW (rd : Reg) (rj : Reg) (s : State) : Out := loadLinked (s.x rj) 4 sextW rd s

/-- llacq.d, R577, R588. -/
def execLlacqD (rd : Reg) (rj : Reg) (s : State) : Out := loadLinked (s.x rj) 8 id rd s

/-- screl.w, R578, R588. -/
def execScrelW (rd : Reg) (rj : Reg) (s : State) : Out :=
  storeCond (s.condStore (s.x rj) 4) (fun as t => t.storeBytes as (s.x rd)) rd s

/-- screl.d, R579, R588. -/
def execScrelD (rd : Reg) (rj : Reg) (s : State) : Out :=
  storeCond (s.condStore (s.x rj) 8) (fun as t => t.storeBytes as (s.x rd)) rd s

/-- dbar, R590, R591: on one core in program order nothing is left to order (D37; log 54). -/
def execDbar (_hint : BitVec 15) (s : State) : Out := .next s.advance

/-- ibar, R592: a fetch sees no earlier value of a stored byte any more (log 33). -/
def execIbar (_hint : BitVec 15) (s : State) : Out := .next { s with stale := [] }.advance

end Sys2Proof.Machine
end

