-- ==== Sys2Proof/Machine/BitOps.lean ====
section
/-! DEFINITION. Shifts and bit manipulation (41_int_shift_bit.md). -/

namespace Sys2Proof.Machine

/-! ## The functions (R401) -/

/-- A 32-bit shift by the low 5 bits of `y`, sign-extended (R402 to R405). -/
def shiftW (f : BitVec 32 → Nat → BitVec 32) (x y : Word) : Word := sext32 (f (low32 x) (bits y 0 5).toNat)

/-- A 64-bit shift by the low 6 bits of `y` (R410 to R413). -/
def shiftD (f : Word → Nat → Word) (x y : Word) : Word := f x (bits y 0 6).toNat

/-- A 32-bit shift by an immediate, sign-extended (R406 to R409). -/
def shiftImmW (f : BitVec 32 → Nat → BitVec 32) (sa : BitVec 5) (x : Word) : Word := sext32 (f (low32 x) sa.toNat)

/-- How many bits equal `b` from bit `k - 1` down without a break: CLO and CLZ (R401). -/
def leading {n : Nat} (b : Bool) (w : BitVec n) : Nat → Nat
  | 0 => 0
  | k + 1 => if w.getLsbD k = b then leading b w k + 1 else 0

/-- How many of the `k` bits from bit `i` up equal `b` without a break: CTO and CTZ (R401). -/
def trailing {n : Nat} (b : Bool) (w : BitVec n) : Nat → Nat → Nat
  | 0, _ => 0
  | k + 1, i => if w.getLsbD i = b then trailing b w k (i + 1) + 1 else 0

/-- A bit count as a register value (R401). -/
def countWord (n : Nat) : Word := BitVec.ofNat 64 n

/-- Byte `i` (section 9). -/
def byteOf (w : Word) (i : Nat) : BitVec 8 := bits w (8 * i) 8

/-- Halfword `i` (section 9). -/
def halfOf (w : Word) (i : Nat) : BitVec 16 := bits w (16 * i) 16

/-- The bytes of halfword `i` swapped. -/
def swapBytes (w : Word) (i : Nat) : BitVec 16 := byteOf w (2 * i) ++ byteOf w (2 * i + 1)

/-- The bytes of word `i` reversed. -/
def revBytes (w : Word) (i : Nat) : BitVec 32 :=
  byteOf w (4 * i) ++ byteOf w (4 * i + 1) ++ byteOf w (4 * i + 2) ++ byteOf w (4 * i + 3)

/-- The bits of each byte of word `i` reversed. -/
def revBits4 (w : Word) (i : Nat) : BitVec 32 :=
  (byteOf w (4 * i + 3)).reverse ++ (byteOf w (4 * i + 2)).reverse ++ (byteOf w (4 * i + 1)).reverse ++
    (byteOf w (4 * i)).reverse

/-- Ones in bits msb:lsb. -/
def fieldMask {n : Nat} (msb lsb : Nat) : BitVec n := (BitVec.allOnes n <<< lsb) &&& (BitVec.allOnes n >>> (n - 1 - msb))

/-- Bits msb:lsb of `d` replaced by the low bits of `x` (R441, R442). -/
def bstrins {n : Nat} (msb lsb : Nat) (d x : BitVec n) : BitVec n :=
  (d &&& ~~~fieldMask msb lsb) ||| ((x <<< lsb) &&& fieldMask msb lsb)

/-- Bits msb:lsb of `x`, zero-extended (R443, R444). -/
def bstrpick {n : Nat} (msb lsb : Nat) (x : BitVec n) : BitVec n := (x &&& fieldMask msb lsb) >>> lsb

/-! ## The meanings -/

/-- sll.w, R402. -/
def execSllW (rd : Reg) (rj : Reg) (rk : Reg) (s : State) : Out := op3 (shiftW (· <<< ·)) rd rj rk s

/-- srl.w, R403. -/
def execSrlW (rd : Reg) (rj : Reg) (rk : Reg) (s : State) : Out := op3 (shiftW (· >>> ·)) rd rj rk s

/-- sra.w, R404. -/
def execSraW (rd : Reg) (rj : Reg) (rk : Reg) (s : State) : Out := op3 (shiftW BitVec.sshiftRight) rd rj rk s

/-- rotr.w, R405. -/
def execRotrW (rd : Reg) (rj : Reg) (rk : Reg) (s : State) : Out := op3 (shiftW BitVec.rotateRight) rd rj rk s

/-- slli.w, R406. -/
def execSlliW (rd : Reg) (rj : Reg) (ui5 : BitVec 5) (s : State) : Out := op2 (shiftImmW (· <<< ·) ui5) rd rj s

/-- srli.w, R407. -/
def execSrliW (rd : Reg) (rj : Reg) (ui5 : BitVec 5) (s : State) : Out := op2 (shiftImmW (· >>> ·) ui5) rd rj s

/-- srai.w, R408. -/
def execSraiW (rd : Reg) (rj : Reg) (ui5 : BitVec 5) (s : State) : Out :=
  op2 (shiftImmW BitVec.sshiftRight ui5) rd rj s

/-- rotri.w, R409. -/
def execRotriW (rd : Reg) (rj : Reg) (ui5 : BitVec 5) (s : State) : Out :=
  op2 (shiftImmW BitVec.rotateRight ui5) rd rj s

/-- sll.d, R410. -/
def execSllD (rd : Reg) (rj : Reg) (rk : Reg) (s : State) : Out := op3 (shiftD (· <<< ·)) rd rj rk s

/-- srl.d, R411. -/
def execSrlD (rd : Reg) (rj : Reg) (rk : Reg) (s : State) : Out := op3 (shiftD (· >>> ·)) rd rj rk s

/-- sra.d, R412. -/
def execSraD (rd : Reg) (rj : Reg) (rk : Reg) (s : State) : Out := op3 (shiftD BitVec.sshiftRight) rd rj rk s

/-- rotr.d, R413. -/
def execRotrD (rd : Reg) (rj : Reg) (rk : Reg) (s : State) : Out := op3 (shiftD BitVec.rotateRight) rd rj rk s

/-- slli.d, R414. -/
def execSlliD (rd : Reg) (rj : Reg) (ui6 : BitVec 6) (s : State) : Out := op2 (fun x => x <<< ui6.toNat) rd rj s

/-- srli.d, R415. -/
def execSrliD (rd : Reg) (rj : Reg) (ui6 : BitVec 6) (s : State) : Out := op2 (fun x => x >>> ui6.toNat) rd rj s

/-- srai.d, R416. -/
def execSraiD (rd : Reg) (rj : Reg) (ui6 : BitVec 6) (s : State) : Out :=
  op2 (fun x => x.sshiftRight ui6.toNat) rd rj s

/-- rotri.d, R417. -/
def execRotriD (rd : Reg) (rj : Reg) (ui6 : BitVec 6) (s : State) : Out :=
  op2 (fun x => x.rotateRight ui6.toNat) rd rj s

/-- ext.w.b, R418. -/
def execExtWB (rd : Reg) (rj : Reg) (s : State) : Out := op2 sextB rd rj s

/-- ext.w.h, R419. -/
def execExtWH (rd : Reg) (rj : Reg) (s : State) : Out := op2 sextH rd rj s

/-- clo.w, R420. -/
def execCloW (rd : Reg) (rj : Reg) (s : State) : Out := op2 (fun x => countWord (leading true (low32 x) 32)) rd rj s

/-- clo.d, R424. -/
def execCloD (rd : Reg) (rj : Reg) (s : State) : Out := op2 (fun x => countWord (leading true x 64)) rd rj s

/-- clz.w, R421. -/
def execClzW (rd : Reg) (rj : Reg) (s : State) : Out := op2 (fun x => countWord (leading false (low32 x) 32)) rd rj s

/-- clz.d, R425. -/
def execClzD (rd : Reg) (rj : Reg) (s : State) : Out := op2 (fun x => countWord (leading false x 64)) rd rj s

/-- cto.w, R422. -/
def execCtoW (rd : Reg) (rj : Reg) (s : State) : Out :=
  op2 (fun x => countWord (trailing true (low32 x) 32 0)) rd rj s

/-- cto.d, R426. -/
def execCtoD (rd : Reg) (rj : Reg) (s : State) : Out := op2 (fun x => countWord (trailing true x 64 0)) rd rj s

/-- ctz.w, R423. -/
def execCtzW (rd : Reg) (rj : Reg) (s : State) : Out :=
  op2 (fun x => countWord (trailing false (low32 x) 32 0)) rd rj s

/-- ctz.d, R427. -/
def execCtzD (rd : Reg) (rj : Reg) (s : State) : Out := op2 (fun x => countWord (trailing false x 64 0)) rd rj s

/-- bytepick.w, R428 (log 62). -/
def execBytepickW (rd : Reg) (rj : Reg) (rk : Reg) (sa2 : BitVec 2) (s : State) : Out :=
  op3 (fun x y => sext32 (bits (low32 y ++ low32 x) (32 - 8 * sa2.toNat) 32)) rd rj rk s

/-- bytepick.d, R429 (log 62). -/
def execBytepickD (rd : Reg) (rj : Reg) (rk : Reg) (sa3 : BitVec 3) (s : State) : Out :=
  op3 (fun x y => bits (y ++ x) (64 - 8 * sa3.toNat) 64) rd rj rk s

/-- revb.2h, R430. -/
def execRevb2H (rd : Reg) (rj : Reg) (s : State) : Out :=
  op2 (fun a => sext32 (swapBytes a 1 ++ swapBytes a 0)) rd rj s

/-- revb.4h, R431. -/
def execRevb4H (rd : Reg) (rj : Reg) (s : State) : Out :=
  op2 (fun a => swapBytes a 3 ++ swapBytes a 2 ++ swapBytes a 1 ++ swapBytes a 0) rd rj s

/-- revb.2w, R432. -/
def execRevb2W (rd : Reg) (rj : Reg) (s : State) : Out := op2 (fun a => revBytes a 1 ++ revBytes a 0) rd rj s

/-- revb.d, R433. -/
def execRevbD (rd : Reg) (rj : Reg) (s : State) : Out := op2 (fun a => revBytes a 0 ++ revBytes a 1) rd rj s

/-- revh.2w, R434. -/
def execRevh2W (rd : Reg) (rj : Reg) (s : State) : Out :=
  op2 (fun a => halfOf a 2 ++ halfOf a 3 ++ halfOf a 0 ++ halfOf a 1) rd rj s

/-- revh.d, R435. -/
def execRevhD (rd : Reg) (rj : Reg) (s : State) : Out :=
  op2 (fun a => halfOf a 0 ++ halfOf a 1 ++ halfOf a 2 ++ halfOf a 3) rd rj s

/-- bitrev.4b, R436. -/
def execBitrev4B (rd : Reg) (rj : Reg) (s : State) : Out := op2 (fun a => sext32 (revBits4 a 0)) rd rj s

/-- bitrev.8b, R437. -/
def execBitrev8B (rd : Reg) (rj : Reg) (s : State) : Out := op2 (fun a => revBits4 a 1 ++ revBits4 a 0) rd rj s

/-- bitrev.w, R438. -/
def execBitrevW (rd : Reg) (rj : Reg) (s : State) : Out := op2 (fun a => sext32 (low32 a).reverse) rd rj s

/-- bitrev.d, R439. -/
def execBitrevD (rd : Reg) (rj : Reg) (s : State) : Out := op2 BitVec.reverse rd rj s

/-- bstrins.w, R441: INE when msb < lsb (R440, D26). -/
def execBstrinsW (rd : Reg) (rj : Reg) (msbw : BitVec 5) (lsbw : BitVec 5) (s : State) : Out :=
  if msbw < lsbw then .next (s.raise .ine)
  else .next (s.retire rd (sext32 (bstrins msbw.toNat lsbw.toNat (low32 (s.x rd)) (low32 (s.x rj)))))

/-- bstrpick.w, R443: INE when msb < lsb (R440, D26). -/
def execBstrpickW (rd : Reg) (rj : Reg) (msbw : BitVec 5) (lsbw : BitVec 5) (s : State) : Out :=
  if msbw < lsbw then .next (s.raise .ine)
  else .next (s.retire rd (sext32 (bstrpick msbw.toNat lsbw.toNat (low32 (s.x rj)))))

/-- bstrins.d, R442: INE when msb < lsb (R440, D26). -/
def execBstrinsD (rd : Reg) (rj : Reg) (msbd : BitVec 6) (lsbd : BitVec 6) (s : State) : Out :=
  if msbd < lsbd then .next (s.raise .ine)
  else .next (s.retire rd (bstrins msbd.toNat lsbd.toNat (s.x rd) (s.x rj)))

/-- bstrpick.d, R444: INE when msb < lsb (R440, D26). -/
def execBstrpickD (rd : Reg) (rj : Reg) (msbd : BitVec 6) (lsbd : BitVec 6) (s : State) : Out :=
  if msbd < lsbd then .next (s.raise .ine)
  else .next (s.retire rd (bstrpick msbd.toNat lsbd.toNat (s.x rj)))

/-- maskeqz, R445. -/
def execMaskeqz (rd : Reg) (rj : Reg) (rk : Reg) (s : State) : Out :=
  op3 (fun x y => if y = 0 then 0 else x) rd rj rk s

/-- masknez, R446. -/
def execMasknez (rd : Reg) (rj : Reg) (rk : Reg) (s : State) : Out :=
  op3 (fun x y => if y ≠ 0 then 0 else x) rd rj rk s

end Sys2Proof.Machine
end

