-- ==== Sys2Proof/Machine/Branch.lean ====
section
/-! DEFINITION. Branches and jumps (42_branch.md). -/

namespace Sys2Proof.Machine

/-- To the target when the condition holds, else on to `pc + 4` (R461). -/
def branchIf {n : Nat} (c : Bool) (o : BitVec n) (s : State) : Out :=
  .next (if c then s.setPc (s.target o) else s.advance)

/-- beq, R462. -/
def execBeq (rj : Reg) (rd : Reg) (offs16 : BitVec 16) (s : State) : Out := branchIf (s.x rj == s.x rd) offs16 s

/-- bne, R463. -/
def execBne (rj : Reg) (rd : Reg) (offs16 : BitVec 16) (s : State) : Out := branchIf (s.x rj != s.x rd) offs16 s

/-- blt, R464. -/
def execBlt (rj : Reg) (rd : Reg) (offs16 : BitVec 16) (s : State) : Out := branchIf ((s.x rj).slt (s.x rd)) offs16 s

/-- bge, R465. -/
def execBge (rj : Reg) (rd : Reg) (offs16 : BitVec 16) (s : State) : Out := branchIf (!(s.x rj).slt (s.x rd)) offs16 s

/-- bltu, R466. -/
def execBltu (rj : Reg) (rd : Reg) (offs16 : BitVec 16) (s : State) : Out := branchIf ((s.x rj).ult (s.x rd)) offs16 s

/-- bgeu, R467. -/
def execBgeu (rj : Reg) (rd : Reg) (offs16 : BitVec 16) (s : State) : Out :=
  branchIf (!(s.x rj).ult (s.x rd)) offs16 s

/-- beqz, R468. -/
def execBeqz (rj : Reg) (offs21 : BitVec 21) (s : State) : Out := branchIf (s.x rj == 0) offs21 s

/-- bnez, R469. -/
def execBnez (rj : Reg) (offs21 : BitVec 21) (s : State) : Out := branchIf (s.x rj != 0) offs21 s

/-- b, R470. -/
def execB (offs26 : BitVec 26) (s : State) : Out := .next (s.setPc (s.target offs26))

/-- jirl, R471: rj is read before rd is written (D30); the link follows R93. -/
def execJirl (rd : Reg) (rj : Reg) (offs16 : BitVec 16) (s : State) : Out :=
  .next ((s.setX rd (s.linkVal (s.pc + 4))).setPc (s.x rj + branchOffset offs16))

/-- bl, R472: the link register is r1; the link follows R93. -/
def execBl (offs26 : BitVec 26) (s : State) : Out := .next ((s.setX 1 (s.linkVal (s.pc + 4))).setPc (s.target offs26))

end Sys2Proof.Machine
end

