-- ==== Sys2Proof/Machine/Flags.lean ====
section
/-! DEFINITION. The fields of fcsr0 and the bookkeeping of floating-point exceptions (10_state.md R29 to R32;
46_fp_arith.md R633).  The condition flag registers are `State.cc` and `State.setCc` of Ops. -/

namespace Sys2Proof.Machine

/-- A set of floating-point exceptions: bit 4 V, 3 Z, 2 O, 1 U, 0 I, as in each field of fcsr0 (R29). -/
abbrev FpExc := BitVec 5

/-- Invalid operation. -/
def excV : FpExc := 0x10
/-- Division by zero. -/
def excZ : FpExc := 0x08
/-- Overflow. -/
def excO : FpExc := 0x04
/-- Underflow. -/
def excU : FpExc := 0x02
/-- Inexact. -/
def excI : FpExc := 0x01

/-- fcsr0.Enables (R29). -/
def State.fpEnables (s : State) : FpExc := bits s.fcsr0 0 5
/-- fcsr0.RM (R29): 0 nearest even, 1 toward zero, 2 toward +infinity, 3 toward -infinity. -/
def State.fpRm (s : State) : BitVec 2 := bits s.fcsr0 8 2
/-- fcsr0.Flags (R29). -/
def State.fpFlags (s : State) : FpExc := bits s.fcsr0 16 5

/-- fcsr0.Cause overwritten with the exceptions of one instruction (R31, R633). -/
def State.setCause (s : State) (e : FpExc) : State := s.setFcsr0 (withBits s.fcsr0 24 e)

/-- fcsr0.Flags joined by the exceptions of one instruction (R31, R633). -/
def State.joinFlags (s : State) (e : FpExc) : State := s.setFcsr0 (withBits s.fcsr0 16 (s.fpFlags ||| e))

/-- The execution shape of an arithmetic, compare or convert instruction that generates `e` and whose destination
`write` writes (46_fp_arith.md R633, D11). -/
def fpFinish (s : State) (e : FpExc) (write : State → State) : Out :=
  if e &&& s.fpEnables != 0 then .next ((s.setCause e).raise .fpe)
  else .next (write ((s.setCause e).joinFlags e)).advance

/-- The bits of fcsr0 that the table defines; the others read 0 and ignore writes (R29, D10). -/
def fcsrDefined : BitVec 32 := 0x1F1F031F

/-- The bits of fcsr0 that fcsr`n` shows (R30); none for a number that does not exist. -/
def fcsrView (n : BitVec 5) : BitVec 32 :=
  if n = 0 then fcsrDefined
  else if n = 1 then 0x0000001F
  else if n = 2 then 0x1F1F0000
  else if n = 3 then 0x00000300
  else 0

end Sys2Proof.Machine
end

