-- ==== Sys2Proof/Machine/Float.lean ====
section
/-! DEFINITION. Floating-point data and operations on them, exact until one rounding (10_state.md R27; 46_fp_arith.md
R634, R635, R653; 47_fp_cmp_cvt.md).  A datum is the low bits of a `Word`; a single is its low 32 bits. -/

namespace Sys2Proof.Machine

/-! ## Formats (10_state.md R27) -/

/-- A binary format: bits of Fraction and bits of Exponent. -/
structure Fmt where
  frac : Nat
  expBits : Nat
deriving DecidableEq, Repr

/-- Single precision. -/
def single : Fmt := ⟨23, 8⟩
/-- Double precision. -/
def double : Fmt := ⟨52, 11⟩

/-- The bias, which is also the largest exponent. -/
def Fmt.bias (F : Fmt) : Nat := 2 ^ (F.expBits - 1) - 1
/-- The precision p: 24 or 53. -/
def Fmt.prec (F : Fmt) : Nat := F.frac + 1
/-- Emin: -126 or -1022. -/
def Fmt.emin (F : Fmt) : Int := 1 - (F.bias : Int)
/-- The exponent of the quantum of the subnormals, Emin - p + 1 (R634). -/
def Fmt.qmin (F : Fmt) : Int := F.emin - (F.frac : Int)
/-- The sign bit. -/
def Fmt.signBit (F : Fmt) : Nat := F.frac + F.expBits

/-- Bit S of a datum. -/
def Fmt.sign (F : Fmt) (w : Word) : Bool := w.getLsbD F.signBit
/-- The datum without its sign. -/
def Fmt.mag (F : Fmt) (w : Word) : Nat := w.toNat % 2 ^ F.signBit
/-- Exponent. -/
def Fmt.expo (F : Fmt) (w : Word) : Nat := F.mag w / 2 ^ F.frac
/-- Fraction. -/
def Fmt.fraction (F : Fmt) (w : Word) : Nat := w.toNat % 2 ^ F.frac

/-- A datum from its sign and the rest. -/
def Fmt.pack (F : Fmt) (sign : Bool) (mag : Nat) : Word :=
  BitVec.ofNat 64 ((if sign then 2 ^ F.signBit else 0) + mag)

/-- Infinity. -/
def Fmt.inf (F : Fmt) (sign : Bool) : Word := F.pack sign ((2 ^ F.expBits - 1) * 2 ^ F.frac)
/-- MAX, the largest finite number (R634). -/
def Fmt.largest (F : Fmt) (sign : Bool) : Word := F.pack sign ((2 ^ F.expBits - 1) * 2 ^ F.frac - 1)
/-- The default QNaN: 0x7FC00000 or 0x7FF8000000000000 (R653). -/
def Fmt.qnan (F : Fmt) : Word := F.pack false ((2 ^ F.expBits - 1) * 2 ^ F.frac + 2 ^ (F.frac - 1))
/-- The number 1. -/
def Fmt.one (F : Fmt) : Word := F.pack false (F.bias * 2 ^ F.frac)

/-- Infinity of either sign. -/
def Fmt.isInf (F : Fmt) (w : Word) : Bool := F.expo w == 2 ^ F.expBits - 1 && F.fraction w == 0
/-- A NaN of either kind. -/
def Fmt.isNan (F : Fmt) (w : Word) : Bool := F.expo w == 2 ^ F.expBits - 1 && F.fraction w != 0
/-- A signaling NaN: the top fraction bit is 0 (R27). -/
def Fmt.isSnan (F : Fmt) (w : Word) : Bool := F.isNan w && !w.getLsbD (F.frac - 1)
/-- A zero of either sign. -/
def Fmt.isZero (F : Fmt) (w : Word) : Bool := F.mag w == 0
/-- A finite number. -/
def Fmt.isFinite (F : Fmt) (w : Word) : Bool := F.expo w != 2 ^ F.expBits - 1

/-- A finite real number with a sign even when it is 0: (-1)^neg * m * 2^e. -/
structure Exact where
  neg : Bool
  m : Nat
  e : Int
deriving DecidableEq, Repr

/-- The value of a finite datum (R27). -/
def Fmt.value (F : Fmt) (w : Word) : Exact :=
  if F.expo w = 0 then ⟨F.sign w, F.fraction w, F.qmin⟩
  else ⟨F.sign w, 2 ^ F.frac + F.fraction w, F.qmin + (F.expo w : Int) - 1⟩

/-! ## Rounding (46_fp_arith.md R634) -/

/-- A result with the exceptions that it generates. -/
structure FpOut where
  val : Word
  exc : FpExc
deriving DecidableEq, Repr

/-- A result that generates nothing. -/
def FpOut.quiet (w : Word) : FpOut := ⟨w, 0⟩

/-- Rounding up in magnitude: `rem` of `2^d` left over beyond `n` units. -/
def roundsUp (rm : BitVec 2) (neg : Bool) (n rem d : Nat) : Bool :=
  if rm = 0 then decide (2 ^ d < 2 * rem) || (decide (2 * rem = 2 ^ d) && decide (n % 2 = 1))
  else if rm = 1 then false
  else if rm = 2 then !neg && decide (rem ≠ 0)
  else neg && decide (rem ≠ 0)

/-- The magnitude of `v` rounded to a whole number of units of `2^q`, and whether that differs from `v`. -/
def roundUnits (rm : BitVec 2) (v : Exact) (q : Int) : Nat × Bool :=
  if q ≤ v.e then (v.m * 2 ^ (v.e - q).toNat, false)
  else
    let d := (q - v.e).toNat
    let n := v.m / 2 ^ d
    let rem := v.m % 2 ^ d
    (n + (if roundsUp rm v.neg n rem d then 1 else 0), decide (rem ≠ 0))

/-- The datum of `n` units of `2^q`; `n` is at most `2^p`, and at least `2^(p-1)` unless `q` is `qmin`. -/
def Fmt.packUnits (F : Fmt) (neg : Bool) (n : Nat) (q : Int) : Word :=
  F.pack neg ((q - F.qmin) * (2 ^ F.frac : Nat) + (n : Int)).toNat

/-- The result of an overflow (R634, R32). -/
def Fmt.overflow (F : Fmt) (rm : BitVec 2) (neg : Bool) : Word :=
  if rm = 0 then F.inf neg
  else if rm = 1 then F.largest neg
  else if rm = 2 then (if neg then F.largest neg else F.inf neg)
  else (if neg then F.inf neg else F.largest neg)

/-- A tiny result: rounded on the subnormal quantum; an exact one generates U only when U is enabled (R634). -/
def Fmt.roundTiny (F : Fmt) (rm : BitVec 2) (ue : Bool) (v : Exact) : FpOut :=
  let r := roundUnits rm v F.qmin
  ⟨F.packUnits v.neg r.1 F.qmin,
    if r.2 then excU ||| excI else if ue then excU else 0⟩

/-- The result of an operation whose exact value is `v` (R634); `ue` is Enables.U. -/
def Fmt.round (F : Fmt) (rm : BitVec 2) (ue : Bool) (v : Exact) : FpOut :=
  if v.m = 0 then .quiet (F.pack v.neg 0)
  else
    let q := v.e + (v.m.log2 : Int) - (F.frac : Int)
    let r := roundUnits rm v q
    if (F.bias : Int) < q + (r.1.log2 : Int) then ⟨F.overflow rm v.neg, excO ||| excI⟩
    else if q + (r.1.log2 : Int) < F.emin then F.roundTiny rm ue v
    else ⟨F.packUnits v.neg r.1 q, if r.2 then excI else 0⟩

/-! ## NaN results (46_fp_arith.md R653) -/

/-- The NaN of format `F` carried to format `G`: the high fraction bits kept or zeros added below (R653). -/
def Fmt.carryNan (F G : Fmt) (w : Word) : Word :=
  G.pack (F.sign w)
    ((2 ^ G.expBits - 1) * 2 ^ G.frac +
      (if F.frac ≤ G.frac then F.fraction w * 2 ^ (G.frac - F.frac) else F.fraction w / 2 ^ (F.frac - G.frac)))

/-- The SNaN quieted: the top fraction bit set (R653). -/
def Fmt.quieted (F : Fmt) (w : Word) : Word := w ||| (1#64 <<< (F.frac - 1))

/-- The NaN result of operands in order of priority, if any is a NaN: the first SNaN, quieted, with V; otherwise the
first QNaN (R653). -/
def Fmt.nanOf (F : Fmt) (ws : List Word) : Option FpOut :=
  match ws.find? F.isSnan with
  | some w => some ⟨F.quieted w, excV⟩
  | none => (ws.find? F.isNan).map .quiet

/-- No valid result: V and the default QNaN (R635, R653). -/
def Fmt.invalid (F : Fmt) : FpOut := ⟨F.qnan, excV⟩

/-- The NaN result of the operands, or `k`. -/
def Fmt.orNan (F : Fmt) (ws : List Word) (k : FpOut) : FpOut := (F.nanOf ws).getD k

/-! ## Arithmetic (46_fp_arith.md sections 2, 3, 6, 7) -/

/-- The sign bit inverted. -/
def Fmt.negate (F : Fmt) (w : Word) : Word := w ^^^ (1#64 <<< F.signBit)

/-- The exact sum; the sign of a zero sum of unlike signs is - only when rounding toward -infinity (R634). -/
def exactSum (rm : BitVec 2) (a b : Exact) : Exact :=
  let e := min a.e b.e
  let x : Int := (a.m * 2 ^ (a.e - e).toNat : Nat)
  let y : Int := (b.m * 2 ^ (b.e - e).toNat : Nat)
  let t := (if a.neg then -x else x) + (if b.neg then -y else y)
  if t = 0 then ⟨if a.neg = b.neg then a.neg else rm = 3, 0, e⟩ else ⟨decide (t < 0), t.natAbs, e⟩

/-- The exact product. -/
def exactProduct (a b : Exact) : Exact := ⟨a.neg != b.neg, a.m * b.m, a.e + b.e⟩

/-- addition (R636). -/
def Fmt.add (F : Fmt) (rm : BitVec 2) (ue : Bool) (x y : Word) : FpOut :=
  F.orNan [x, y] <|
    if F.isInf x then (if F.isInf y && F.sign x != F.sign y then F.invalid else .quiet x)
    else if F.isInf y then .quiet y
    else F.round rm ue (exactSum rm (F.value x) (F.value y))

/-- subtraction (R638): the addition of the negated subtrahend, but a NaN operand is propagated as it is (R653). -/
def Fmt.sub (F : Fmt) (rm : BitVec 2) (ue : Bool) (x y : Word) : FpOut :=
  F.orNan [x, y] (F.add rm ue x (F.negate y))

/-- multiplication (R640). -/
def Fmt.mul (F : Fmt) (rm : BitVec 2) (ue : Bool) (x y : Word) : FpOut :=
  F.orNan [x, y] <|
    if F.isInf x || F.isInf y then
      (if F.isZero x || F.isZero y then F.invalid else .quiet (F.inf (F.sign x != F.sign y)))
    else F.round rm ue (exactProduct (F.value x) (F.value y))

/-- A quotient of enough bits for one rounding: a remainder shows as one more low bit. -/
def quotient (p : Nat) (a b : Exact) : Exact :=
  let k := p + b.m.log2 + 3
  ⟨a.neg != b.neg, 2 * (a.m * 2 ^ k / b.m) + (if a.m * 2 ^ k % b.m = 0 then 0 else 1), a.e - b.e - (k : Int) - 1⟩

/-- division (R642). -/
def Fmt.div (F : Fmt) (rm : BitVec 2) (ue : Bool) (x y : Word) : FpOut :=
  let neg := F.sign x != F.sign y
  F.orNan [x, y] <|
    if F.isInf x then (if F.isInf y then F.invalid else .quiet (F.inf neg))
    else if F.isInf y then .quiet (F.pack neg 0)
    else if F.isZero y then (if F.isZero x then F.invalid else ⟨F.inf neg, excZ⟩)
    else F.round rm ue (quotient F.prec (F.value x) (F.value y))

/-- The integer square root of `n`, its bits tried from `2^i` down and joined to `r`. -/
def isqrtFrom (n : Nat) : Nat → Nat → Nat
  | 0, r => r
  | i + 1, r => isqrtFrom n i (if (r + 2 ^ i) * (r + 2 ^ i) ≤ n then r + 2 ^ i else r)

/-- The integer square root. -/
def isqrt (n : Nat) : Nat := isqrtFrom n (n.log2 / 2 + 1) 0

/-- A square root of enough bits for one rounding: a remainder shows as one more low bit. -/
def root (p : Nat) (a : Exact) : Exact :=
  let odd := a.e % 2 = 1
  let n := a.m * 2 ^ (2 * (p + 2) + if odd then 1 else 0)
  let e := (if odd then a.e - 1 else a.e) / 2 - ((p : Int) + 2)
  ⟨false, 2 * isqrt n + (if isqrt n * isqrt n = n then 0 else 1), e - 1⟩

/-- squareRoot (R672). -/
def Fmt.sqrt (F : Fmt) (rm : BitVec 2) (ue : Bool) (x : Word) : FpOut :=
  F.orNan [x] <|
    if F.isZero x then .quiet x
    else if F.sign x then F.invalid
    else if F.isInf x then .quiet x
    else F.round rm ue (root F.prec (F.value x))

/-- division(1.0, x) (R674). -/
def Fmt.recip (F : Fmt) (rm : BitVec 2) (ue : Bool) (x : Word) : FpOut := F.div rm ue F.one x

/-- division(1.0, squareRoot(x)): two roundings, the exceptions of both (R676, 90_conflicts.md C24; log 61). -/
def Fmt.rsqrt (F : Fmt) (rm : BitVec 2) (ue : Bool) (x : Word) : FpOut :=
  let r := F.sqrt rm ue x
  let d := F.recip rm ue r.val
  ⟨d.val, r.exc ||| d.exc⟩

/-- fusedMultiplyAdd(x, y, z), one rounding; NaN priority z, x, y; an infinity times 0 is V whatever `z` (R644, R653,
R635, D39). -/
def Fmt.fma (F : Fmt) (rm : BitVec 2) (ue : Bool) (x y z : Word) : FpOut :=
  let bad := (F.isInf x && F.isZero y) || (F.isZero x && F.isInf y)
  match F.nanOf [z, x, y] with
  | some r => if bad then ⟨r.val, r.exc ||| excV⟩ else r
  | none =>
    let neg := F.sign x != F.sign y
    if bad then F.invalid
    else if F.isInf x || F.isInf y then
      (if F.isInf z && F.sign z != neg then F.invalid else .quiet (F.inf neg))
    else if F.isInf z then .quiet z
    else F.round rm ue (exactSum rm (exactProduct (F.value x) (F.value y)) (F.value z))

/-- A NaN result has a free sign in FMSUB, FNMADD and FNMSUB (R653; log 26). -/
def Fmt.freeNanSign (F : Fmt) (pick : Bool) (r : FpOut) : FpOut :=
  if F.isNan r.val then ⟨F.pack pick (F.mag r.val), r.exc⟩ else r

/-- x*y - z (R647). -/
def Fmt.fms (F : Fmt) (rm : BitVec 2) (ue : Bool) (pick : Bool) (x y z : Word) : FpOut :=
  F.freeNanSign pick (F.fma rm ue x y (F.negate z))

/-- -(x*y + z): the sign of the rounded result inverted (R649, R644). -/
def Fmt.fnma (F : Fmt) (rm : BitVec 2) (ue : Bool) (pick : Bool) (x y z : Word) : FpOut :=
  F.freeNanSign pick ⟨F.negate (F.fma rm ue x y z).val, (F.fma rm ue x y z).exc⟩

/-- -(x*y - z) (R651, R644). -/
def Fmt.fnms (F : Fmt) (rm : BitVec 2) (ue : Bool) (pick : Bool) (x y z : Word) : FpOut :=
  F.freeNanSign pick ⟨F.negate (F.fma rm ue x y (F.negate z)).val, (F.fma rm ue x y (F.negate z)).exc⟩

/-- scaleB(x, N) (R685).  Beyond 5000 either way a larger `N` changes nothing: the result has overflowed or is tiny. -/
def Fmt.scaleB (F : Fmt) (rm : BitVec 2) (ue : Bool) (x : Word) (n : Int) : FpOut :=
  F.orNan [x] <|
    if F.isInf x || F.isZero x then .quiet x
    else F.round rm ue { F.value x with e := (F.value x).e + max (-5000) (min 5000 n) }

/-- An integer as a floating-point number, rounded (R726). -/
def Fmt.ofInt (F : Fmt) (rm : BitVec 2) (n : Int) : FpOut := F.round rm false ⟨decide (n < 0), n.natAbs, 0⟩

/-- logB(x), the exponent of x as a floating-point number (R687).  Exponent 0, whose sign R687 does not give, is +0, the
model's choice (log 60). -/
def Fmt.logB (F : Fmt) (x : Word) : FpOut :=
  F.orNan [x] <|
    if F.isInf x then .quiet (F.inf false)
    else if F.isZero x then ⟨F.inf true, excZ⟩
    else F.ofInt 0 (((F.value x).m.log2 : Int) + (F.value x).e)

/-! ## Estimates (R680; log 31) -/

/-- `(2^14 - 1) * 2^d < n * 2^(14 + e + d) < (2^14 + 1) * 2^d` for an exponent `e` of either sign: the real number
`n * 2^e` differs from 1 by less than `2^-14`. -/
def nearOne (n : Nat) (e : Int) : Bool :=
  let a := n * 2 ^ (14 + e).toNat
  let d := (-(14 + e)).toNat
  decide ((2 ^ 14 - 1) * 2 ^ d < a) && decide (a < (2 ^ 14 + 1) * 2 ^ d)

/-- `n * 2^e` lies strictly between `(1 - 2^-14)^2` and `(1 + 2^-14)^2`. -/
def nearOneSquared (n : Nat) (e : Int) : Bool :=
  let a := n * 2 ^ (28 + e).toNat
  let d := (-(28 + e)).toNat
  decide ((2 ^ 14 - 1) ^ 2 * 2 ^ d < a) && decide (a < (2 ^ 14 + 1) ^ 2 * 2 ^ d)

/-- The estimate `r` of `1/x` is finite, of the sign of `x`, with a relative error below `2^-14`. -/
def Fmt.recipBound (F : Fmt) (x r : Word) : Bool :=
  F.isFinite r && F.sign r == F.sign x &&
    nearOne ((F.value x).m * (F.value r).m) ((F.value x).e + (F.value r).e)

/-- The estimate `r` of `1/sqrt(x)` is finite and positive, with a relative error below `2^-14`. -/
def Fmt.rsqrtBound (F : Fmt) (x r : Word) : Bool :=
  F.isFinite r && !F.sign r &&
    nearOneSquared ((F.value x).m * (F.value r).m * (F.value r).m) ((F.value x).e + 2 * (F.value r).e)

/-- The datum is 2^N. -/
def Fmt.isPow2 (F : Fmt) (x : Word) : Bool :=
  F.isFinite x && !F.sign x && (F.value x).m == 2 ^ (F.value x).m.log2

/-- The datum is 2^2N. -/
def Fmt.isPow4 (F : Fmt) (x : Word) : Bool := F.isPow2 x && (((F.value x).m.log2 : Int) + (F.value x).e) % 2 == 0

/-- An estimate with the exceptions of the exact function.  For a finite operand other than 0 and the guaranteed points
`point` it is `r`, where `r` is within the bound and the exact function generates no exception that has a default
result of its own, V, Z or O (log 31); everywhere else it is the exact function's result. -/
def Fmt.estimate (F : Fmt) (x : Word) (point bound : Bool) (exact : FpOut) (r : Word) : FpOut :=
  if F.isFinite x && !F.isZero x && !point && exact.exc &&& (excV ||| excZ ||| excO) == 0 && bound then ⟨r, exact.exc⟩
  else exact

/-- FRECIPE (R681, R682) with the implementation's estimate `r`. -/
def Fmt.recipe (F : Fmt) (rm : BitVec 2) (ue : Bool) (x r : Word) : FpOut :=
  F.estimate x (F.isPow2 x) (F.recipBound x r) (F.recip rm ue x) r

/-- FRSQRTE (R683, R684) with the implementation's estimate `r`. -/
def Fmt.rsqrte (F : Fmt) (rm : BitVec 2) (ue : Bool) (x r : Word) : FpOut :=
  F.estimate x (F.isPow4 x) (F.rsqrtBound x r) (F.rsqrt rm ue x) r

/-! ## Maximum and minimum (R654) -/

/-- The order of the numbers: a datum that is no NaN as an integer, the two zeros equal. -/
def Fmt.order (F : Fmt) (w : Word) : Int := if F.sign w then -(F.mag w : Int) else (F.mag w : Int)

/-- Either of two operands: of equal data any (R654; log 27). -/
def either (pick : Bool) (x y : Word) : Word := if pick then x else y

/-- maxNum of two numbers. -/
def Fmt.larger (F : Fmt) (pick : Bool) (x y : Word) : Word :=
  if F.order y < F.order x then x else if F.order x < F.order y then y else either pick x y

/-- minNum of two numbers. -/
def Fmt.smaller (F : Fmt) (pick : Bool) (x y : Word) : Word :=
  if F.order x < F.order y then x else if F.order y < F.order x then y else either pick x y

/-- maxNumMag of two numbers. -/
def Fmt.largerMag (F : Fmt) (pick : Bool) (x y : Word) : Word :=
  if F.mag y < F.mag x then x else if F.mag x < F.mag y then y else F.larger pick x y

/-- minNumMag of two numbers. -/
def Fmt.smallerMag (F : Fmt) (pick : Bool) (x y : Word) : Word :=
  if F.mag x < F.mag y then x else if F.mag y < F.mag x then y else F.smaller pick x y

/-- The NaN cases of the four: a number beats a QNaN, an SNaN generates V (R654). -/
def Fmt.select (F : Fmt) (f : Word → Word → Word) (x y : Word) : FpOut :=
  if F.isSnan x || F.isSnan y || (F.isNan x && F.isNan y) then F.orNan [x, y] F.invalid
  else if F.isNan x then .quiet y
  else if F.isNan y then .quiet x
  else .quiet (f x y)

/-! ## Classification (R669) -/

/-- The class vector, one bit of ten (R669). -/
def Fmt.classOf (F : Fmt) (w : Word) : Word :=
  if F.isSnan w then 0x001
  else if F.isNan w then 0x002
  else if F.isInf w then (if F.sign w then 0x004 else 0x040)
  else if F.isZero w then (if F.sign w then 0x020 else 0x200)
  else if F.expo w = 0 then (if F.sign w then 0x010 else 0x100)
  else if F.sign w then 0x008 else 0x080

/-! ## Comparison (47_fp_cmp_cvt.md R700, R701) -/

/-- The truth of a condition on the relation of the operands: bit 1 of `cond` names LT, bit 2 EQ, bit 3 UN, bit 4 GT
and LT (R700). -/
def Fmt.holds (F : Fmt) (cond : BitVec 5) (x y : Word) : Bool :=
  if F.isNan x || F.isNan y then cond.getLsbD 3
  else if F.order x < F.order y then cond.getLsbD 1 || cond.getLsbD 4
  else if F.order y < F.order x then cond.getLsbD 4
  else cond.getLsbD 2

/-- V on any NaN when `cond[0]` is 1, on an SNaN otherwise (R701). -/
def Fmt.compareExc (F : Fmt) (cond : BitVec 5) (x y : Word) : FpExc :=
  if F.isSnan x || F.isSnan y || (cond.getLsbD 0 && (F.isNan x || F.isNan y)) then excV else 0

/-! ## Conversion (47_fp_cmp_cvt.md sections 2, 4, 5) -/

/-- convertFormat from `F` to `G` (R724, R725). -/
def Fmt.convert (F G : Fmt) (rm : BitVec 2) (ue : Bool) (x : Word) : FpOut :=
  if F.isSnan x then ⟨G.quieted (F.carryNan G x), excV⟩
  else if F.isNan x then .quiet (F.carryNan G x)
  else if F.isInf x then .quiet (G.inf (F.sign x))
  else G.round rm ue (F.value x)

/-- A number as a whole number: rounded, and whether that changed it. -/
def Fmt.whole (F : Fmt) (rm : BitVec 2) (x : Word) : Int × Bool :=
  let r := roundUnits rm (F.value x) 0
  (if F.sign x then -(r.1 : Int) else (r.1 : Int), r.2)

/-- The inexact exception of FTINT* and FRINT: I where it is enabled; where it is not, any value (R731, R752, #54;
log 24). -/
def inexactExc (inexact ie pick : Bool) : FpExc := if inexact && (ie || pick) then excI else 0

/-- convertToSint of `n` bits (R731): V for a NaN, an infinity or a value out of range, and then any value, `any`, as
the result (#53; log 23). -/
def Fmt.toSint (F : Fmt) (n : Nat) (rm : BitVec 2) (ie pick : Bool) (any : Word) (x : Word) : FpOut :=
  let r := F.whole rm x
  if !F.isFinite x || decide (r.1 < -(2 ^ (n - 1) : Nat)) || decide ((2 ^ (n - 1) : Nat) ≤ r.1) then ⟨any, excV⟩
  else ⟨BitVec.ofInt 64 r.1, inexactExc r.2 ie pick⟩

/-- roundToInteger (R752): the sign of `x` is kept. -/
def Fmt.toIntegral (F : Fmt) (rm : BitVec 2) (ie pick : Bool) (x : Word) : FpOut :=
  F.orNan [x] <|
    if F.isInf x then .quiet x
    else
      let r := roundUnits rm (F.value x) 0
      ⟨(F.round rm false ⟨F.sign x, r.1, 0⟩).val, inexactExc r.2 ie pick⟩

end Sys2Proof.Machine
end

