-- ==== Sys2Proof/Machine/FpArith.lean ====
section
/-! DEFINITION. Floating-point arithmetic instructions (46_fp_arith.md). -/

namespace Sys2Proof.Machine

/-- The single-precision datum in `f[r]`, zero-extended; the upper bits are ignored (R632). -/
def State.fsw (s : State) (r : FReg) : Word := (s.fs r).setWidth 64

/-- Enables.U (R634). -/
def State.fpUe (s : State) : Bool := s.fpEnables.getLsbD 1

/-- Enables.I (47_fp_cmp_cvt.md R731). -/
def State.fpIe (s : State) : Bool := s.fpEnables.getLsbD 0

/-- A free choice of two (log 12). -/
def State.pick (s : State) : Bool := s.free.getLsbD 0

/-- A 32-bit result finished as R633 says. -/
def fpS (s : State) (fd : FReg) (o : FpOut) : Out := fpFinish s o.exc fun t => t.setFS fd (low32 o.val)

/-- A 64-bit result finished as R633 says. -/
def fpD (s : State) (fd : FReg) (o : FpOut) : Out := fpFinish s o.exc fun t => t.setF fd o.val

/-- A 32-bit result of a non-arithmetic instruction: fcsr0 untouched (R633, D38). -/
def fpQuietS (s : State) (fd : FReg) (v : Word) : Out := .next (s.setFS fd (low32 v)).advance

/-- A 64-bit result of a non-arithmetic instruction: fcsr0 untouched (R633, D38). -/
def fpQuietD (s : State) (fd : FReg) (v : Word) : Out := .next (s.setF fd v).advance

/-- fadd.s, R636. -/
def execFaddS (fd : FReg) (fj : FReg) (fk : FReg) (s : State) : Out :=
  floating s (fpS s fd (single.add s.fpRm s.fpUe (s.fsw fj) (s.fsw fk)))

/-- fadd.d, R637. -/
def execFaddD (fd : FReg) (fj : FReg) (fk : FReg) (s : State) : Out :=
  floating s (fpD s fd (double.add s.fpRm s.fpUe (s.f fj) (s.f fk)))

/-- fsub.s, R638. -/
def execFsubS (fd : FReg) (fj : FReg) (fk : FReg) (s : State) : Out :=
  floating s (fpS s fd (single.sub s.fpRm s.fpUe (s.fsw fj) (s.fsw fk)))

/-- fsub.d, R639. -/
def execFsubD (fd : FReg) (fj : FReg) (fk : FReg) (s : State) : Out :=
  floating s (fpD s fd (double.sub s.fpRm s.fpUe (s.f fj) (s.f fk)))

/-- fmul.s, R640. -/
def execFmulS (fd : FReg) (fj : FReg) (fk : FReg) (s : State) : Out :=
  floating s (fpS s fd (single.mul s.fpRm s.fpUe (s.fsw fj) (s.fsw fk)))

/-- fmul.d, R641. -/
def execFmulD (fd : FReg) (fj : FReg) (fk : FReg) (s : State) : Out :=
  floating s (fpD s fd (double.mul s.fpRm s.fpUe (s.f fj) (s.f fk)))

/-- fdiv.s, R642. -/
def execFdivS (fd : FReg) (fj : FReg) (fk : FReg) (s : State) : Out :=
  floating s (fpS s fd (single.div s.fpRm s.fpUe (s.fsw fj) (s.fsw fk)))

/-- fdiv.d, R643. -/
def execFdivD (fd : FReg) (fj : FReg) (fk : FReg) (s : State) : Out :=
  floating s (fpD s fd (double.div s.fpRm s.fpUe (s.f fj) (s.f fk)))

/-- fmadd.s, R645. -/
def execFmaddS (fd : FReg) (fj : FReg) (fk : FReg) (fa : FReg) (s : State) : Out :=
  floating s (fpS s fd (single.fma s.fpRm s.fpUe (s.fsw fj) (s.fsw fk) (s.fsw fa)))

/-- fmadd.d, R646. -/
def execFmaddD (fd : FReg) (fj : FReg) (fk : FReg) (fa : FReg) (s : State) : Out :=
  floating s (fpD s fd (double.fma s.fpRm s.fpUe (s.f fj) (s.f fk) (s.f fa)))

/-- fmsub.s, R647. -/
def execFmsubS (fd : FReg) (fj : FReg) (fk : FReg) (fa : FReg) (s : State) : Out :=
  floating s (fpS s.drawn fd (single.fms s.fpRm s.fpUe s.pick (s.fsw fj) (s.fsw fk) (s.fsw fa)))

/-- fmsub.d, R648. -/
def execFmsubD (fd : FReg) (fj : FReg) (fk : FReg) (fa : FReg) (s : State) : Out :=
  floating s (fpD s.drawn fd (double.fms s.fpRm s.fpUe s.pick (s.f fj) (s.f fk) (s.f fa)))

/-- fnmadd.s, R649. -/
def execFnmaddS (fd : FReg) (fj : FReg) (fk : FReg) (fa : FReg) (s : State) : Out :=
  floating s (fpS s.drawn fd (single.fnma s.fpRm s.fpUe s.pick (s.fsw fj) (s.fsw fk) (s.fsw fa)))

/-- fnmadd.d, R650. -/
def execFnmaddD (fd : FReg) (fj : FReg) (fk : FReg) (fa : FReg) (s : State) : Out :=
  floating s (fpD s.drawn fd (double.fnma s.fpRm s.fpUe s.pick (s.f fj) (s.f fk) (s.f fa)))

/-- fnmsub.s, R651. -/
def execFnmsubS (fd : FReg) (fj : FReg) (fk : FReg) (fa : FReg) (s : State) : Out :=
  floating s (fpS s.drawn fd (single.fnms s.fpRm s.fpUe s.pick (s.fsw fj) (s.fsw fk) (s.fsw fa)))

/-- fnmsub.d, R652. -/
def execFnmsubD (fd : FReg) (fj : FReg) (fk : FReg) (fa : FReg) (s : State) : Out :=
  floating s (fpD s.drawn fd (double.fnms s.fpRm s.fpUe s.pick (s.f fj) (s.f fk) (s.f fa)))

/-- fmax.s, R655. -/
def execFmaxS (fd : FReg) (fj : FReg) (fk : FReg) (s : State) : Out :=
  floating s (fpS s.drawn fd (single.select (single.larger s.pick) (s.fsw fj) (s.fsw fk)))

/-- fmax.d, R656. -/
def execFmaxD (fd : FReg) (fj : FReg) (fk : FReg) (s : State) : Out :=
  floating s (fpD s.drawn fd (double.select (double.larger s.pick) (s.f fj) (s.f fk)))

/-- fmin.s, R657. -/
def execFminS (fd : FReg) (fj : FReg) (fk : FReg) (s : State) : Out :=
  floating s (fpS s.drawn fd (single.select (single.smaller s.pick) (s.fsw fj) (s.fsw fk)))

/-- fmin.d, R658. -/
def execFminD (fd : FReg) (fj : FReg) (fk : FReg) (s : State) : Out :=
  floating s (fpD s.drawn fd (double.select (double.smaller s.pick) (s.f fj) (s.f fk)))

/-- fmaxa.s, R659. -/
def execFmaxaS (fd : FReg) (fj : FReg) (fk : FReg) (s : State) : Out :=
  floating s (fpS s.drawn fd (single.select (single.largerMag s.pick) (s.fsw fj) (s.fsw fk)))

/-- fmaxa.d, R660. -/
def execFmaxaD (fd : FReg) (fj : FReg) (fk : FReg) (s : State) : Out :=
  floating s (fpD s.drawn fd (double.select (double.largerMag s.pick) (s.f fj) (s.f fk)))

/-- fmina.s, R661. -/
def execFminaS (fd : FReg) (fj : FReg) (fk : FReg) (s : State) : Out :=
  floating s (fpS s.drawn fd (single.select (single.smallerMag s.pick) (s.fsw fj) (s.fsw fk)))

/-- fmina.d, R662. -/
def execFminaD (fd : FReg) (fj : FReg) (fk : FReg) (s : State) : Out :=
  floating s (fpD s.drawn fd (double.select (double.smallerMag s.pick) (s.f fj) (s.f fk)))

/-- fabs.s, R663. -/
def execFabsS (fd : FReg) (fj : FReg) (s : State) : Out :=
  floating s (fpQuietS s fd (single.pack false (single.mag (s.fsw fj))))

/-- fneg.s, R665. -/
def execFnegS (fd : FReg) (fj : FReg) (s : State) : Out :=
  floating s (fpQuietS s fd (single.negate (s.fsw fj)))

/-- fcopysign.s, R667. -/
def execFcopysignS (fd : FReg) (fj : FReg) (fk : FReg) (s : State) : Out :=
  floating s (fpQuietS s fd (single.pack (single.sign (s.fsw fk)) (single.mag (s.fsw fj))))

/-- fclass.s, R670. -/
def execFclassS (fd : FReg) (fj : FReg) (s : State) : Out :=
  floating s (fpQuietS s fd (single.classOf (s.fsw fj)))

/-- fabs.d, R664. -/
def execFabsD (fd : FReg) (fj : FReg) (s : State) : Out :=
  floating s (fpQuietD s fd (double.pack false (double.mag (s.f fj))))

/-- fneg.d, R666. -/
def execFnegD (fd : FReg) (fj : FReg) (s : State) : Out :=
  floating s (fpQuietD s fd (double.negate (s.f fj)))

/-- fcopysign.d, R668. -/
def execFcopysignD (fd : FReg) (fj : FReg) (fk : FReg) (s : State) : Out :=
  floating s (fpQuietD s fd (double.pack (double.sign (s.f fk)) (double.mag (s.f fj))))

/-- fclass.d, R671. -/
def execFclassD (fd : FReg) (fj : FReg) (s : State) : Out :=
  floating s (fpQuietD s fd (double.classOf (s.f fj)))

/-- fsqrt.s, R672. -/
def execFsqrtS (fd : FReg) (fj : FReg) (s : State) : Out :=
  floating s (fpS s fd (single.sqrt s.fpRm s.fpUe (s.fsw fj)))

/-- fsqrt.d, R673. -/
def execFsqrtD (fd : FReg) (fj : FReg) (s : State) : Out :=
  floating s (fpD s fd (double.sqrt s.fpRm s.fpUe (s.f fj)))

/-- frecip.s, R674. -/
def execFrecipS (fd : FReg) (fj : FReg) (s : State) : Out :=
  floating s (fpS s fd (single.recip s.fpRm s.fpUe (s.fsw fj)))

/-- frecip.d, R675. -/
def execFrecipD (fd : FReg) (fj : FReg) (s : State) : Out :=
  floating s (fpD s fd (double.recip s.fpRm s.fpUe (s.f fj)))

/-- frsqrt.s, R676. -/
def execFrsqrtS (fd : FReg) (fj : FReg) (s : State) : Out :=
  floating s (fpS s fd (single.rsqrt s.fpRm s.fpUe (s.fsw fj)))

/-- frsqrt.d, R677. -/
def execFrsqrtD (fd : FReg) (fj : FReg) (s : State) : Out :=
  floating s (fpD s fd (double.rsqrt s.fpRm s.fpUe (s.f fj)))

/-- frecipe.s, R681, R680; log 31. -/
def execFrecipeS (fd : FReg) (fj : FReg) (s : State) : Out :=
  floating s (fpS s fd (single.recipe s.fpRm s.fpUe (s.fsw fj) ((Config.recipEstimateS (s.fs fj)).setWidth 64)))

/-- frsqrte.s, R683, R680; log 31. -/
def execFrsqrteS (fd : FReg) (fj : FReg) (s : State) : Out :=
  floating s (fpS s fd (single.rsqrte s.fpRm s.fpUe (s.fsw fj) ((Config.rsqrtEstimateS (s.fs fj)).setWidth 64)))

/-- frecipe.d, R682, R680; log 31. -/
def execFrecipeD (fd : FReg) (fj : FReg) (s : State) : Out :=
  floating s (fpD s fd (double.recipe s.fpRm s.fpUe (s.f fj) (Config.recipEstimateD (s.f fj))))

/-- frsqrte.d, R684, R680; log 31. -/
def execFrsqrteD (fd : FReg) (fj : FReg) (s : State) : Out :=
  floating s (fpD s fd (double.rsqrte s.fpRm s.fpUe (s.f fj) (Config.rsqrtEstimateD (s.f fj))))

/-- fscaleb.s, R685. -/
def execFscalebS (fd : FReg) (fj : FReg) (fk : FReg) (s : State) : Out :=
  floating s (fpS s fd (single.scaleB s.fpRm s.fpUe (s.fsw fj) (s.fs fk).toInt))

/-- flogb.s, R687. -/
def execFlogbS (fd : FReg) (fj : FReg) (s : State) : Out :=
  floating s (fpS s fd (single.logB (s.fsw fj)))

/-- fscaleb.d, R686. -/
def execFscalebD (fd : FReg) (fj : FReg) (fk : FReg) (s : State) : Out :=
  floating s (fpD s fd (double.scaleB s.fpRm s.fpUe (s.f fj) (s.f fk).toInt))

/-- flogb.d, R688. -/
def execFlogbD (fd : FReg) (fj : FReg) (s : State) : Out :=
  floating s (fpD s fd (double.logB (s.f fj)))

end Sys2Proof.Machine
end

