-- ==== Sys2Proof/Machine/FpCmpCvt.lean ====
section
/-! DEFINITION. Floating-point comparison and conversion instructions (47_fp_cmp_cvt.md). -/

namespace Sys2Proof.Machine

/-- A comparison: the exceptions of R701, then the truth of the condition into `cfr[cd]` (R700, R701). -/
def fpCompare (s : State) (cd : CReg) (F : Fmt) (cond : BitVec 5) (x y : Word) : Out :=
  fpFinish s (F.compareExc cond x y) fun t => t.setCc cd (F.holds cond x y)

/-- fcmp.caf.s, R702. -/
def execFcmpCafS (cd : CReg) (fj : FReg) (fk : FReg) (s : State) : Out :=
  floating s (fpCompare s cd single 0x0 (s.fsw fj) (s.fsw fk))

/-- fcmp.cun.s, R703. -/
def execFcmpCunS (cd : CReg) (fj : FReg) (fk : FReg) (s : State) : Out :=
  floating s (fpCompare s cd single 0x8 (s.fsw fj) (s.fsw fk))

/-- fcmp.ceq.s, R704. -/
def execFcmpCeqS (cd : CReg) (fj : FReg) (fk : FReg) (s : State) : Out :=
  floating s (fpCompare s cd single 0x4 (s.fsw fj) (s.fsw fk))

/-- fcmp.cueq.s, R705. -/
def execFcmpCueqS (cd : CReg) (fj : FReg) (fk : FReg) (s : State) : Out :=
  floating s (fpCompare s cd single 0xC (s.fsw fj) (s.fsw fk))

/-- fcmp.clt.s, R706. -/
def execFcmpCltS (cd : CReg) (fj : FReg) (fk : FReg) (s : State) : Out :=
  floating s (fpCompare s cd single 0x2 (s.fsw fj) (s.fsw fk))

/-- fcmp.cult.s, R707. -/
def execFcmpCultS (cd : CReg) (fj : FReg) (fk : FReg) (s : State) : Out :=
  floating s (fpCompare s cd single 0xA (s.fsw fj) (s.fsw fk))

/-- fcmp.cle.s, R708. -/
def execFcmpCleS (cd : CReg) (fj : FReg) (fk : FReg) (s : State) : Out :=
  floating s (fpCompare s cd single 0x6 (s.fsw fj) (s.fsw fk))

/-- fcmp.cule.s, R709. -/
def execFcmpCuleS (cd : CReg) (fj : FReg) (fk : FReg) (s : State) : Out :=
  floating s (fpCompare s cd single 0xE (s.fsw fj) (s.fsw fk))

/-- fcmp.cne.s, R710. -/
def execFcmpCneS (cd : CReg) (fj : FReg) (fk : FReg) (s : State) : Out :=
  floating s (fpCompare s cd single 0x10 (s.fsw fj) (s.fsw fk))

/-- fcmp.cor.s, R711. -/
def execFcmpCorS (cd : CReg) (fj : FReg) (fk : FReg) (s : State) : Out :=
  floating s (fpCompare s cd single 0x14 (s.fsw fj) (s.fsw fk))

/-- fcmp.cune.s, R712. -/
def execFcmpCuneS (cd : CReg) (fj : FReg) (fk : FReg) (s : State) : Out :=
  floating s (fpCompare s cd single 0x18 (s.fsw fj) (s.fsw fk))

/-- fcmp.saf.s, R713. -/
def execFcmpSafS (cd : CReg) (fj : FReg) (fk : FReg) (s : State) : Out :=
  floating s (fpCompare s cd single 0x1 (s.fsw fj) (s.fsw fk))

/-- fcmp.sun.s, R714. -/
def execFcmpSunS (cd : CReg) (fj : FReg) (fk : FReg) (s : State) : Out :=
  floating s (fpCompare s cd single 0x9 (s.fsw fj) (s.fsw fk))

/-- fcmp.seq.s, R715. -/
def execFcmpSeqS (cd : CReg) (fj : FReg) (fk : FReg) (s : State) : Out :=
  floating s (fpCompare s cd single 0x5 (s.fsw fj) (s.fsw fk))

/-- fcmp.sueq.s, R716. -/
def execFcmpSueqS (cd : CReg) (fj : FReg) (fk : FReg) (s : State) : Out :=
  floating s (fpCompare s cd single 0xD (s.fsw fj) (s.fsw fk))

/-- fcmp.slt.s, R717. -/
def execFcmpSltS (cd : CReg) (fj : FReg) (fk : FReg) (s : State) : Out :=
  floating s (fpCompare s cd single 0x3 (s.fsw fj) (s.fsw fk))

/-- fcmp.sult.s, R718. -/
def execFcmpSultS (cd : CReg) (fj : FReg) (fk : FReg) (s : State) : Out :=
  floating s (fpCompare s cd single 0xB (s.fsw fj) (s.fsw fk))

/-- fcmp.sle.s, R719. -/
def execFcmpSleS (cd : CReg) (fj : FReg) (fk : FReg) (s : State) : Out :=
  floating s (fpCompare s cd single 0x7 (s.fsw fj) (s.fsw fk))

/-- fcmp.sule.s, R720. -/
def execFcmpSuleS (cd : CReg) (fj : FReg) (fk : FReg) (s : State) : Out :=
  floating s (fpCompare s cd single 0xF (s.fsw fj) (s.fsw fk))

/-- fcmp.sne.s, R721. -/
def execFcmpSneS (cd : CReg) (fj : FReg) (fk : FReg) (s : State) : Out :=
  floating s (fpCompare s cd single 0x11 (s.fsw fj) (s.fsw fk))

/-- fcmp.sor.s, R722. -/
def execFcmpSorS (cd : CReg) (fj : FReg) (fk : FReg) (s : State) : Out :=
  floating s (fpCompare s cd single 0x15 (s.fsw fj) (s.fsw fk))

/-- fcmp.sune.s, R723. -/
def execFcmpSuneS (cd : CReg) (fj : FReg) (fk : FReg) (s : State) : Out :=
  floating s (fpCompare s cd single 0x19 (s.fsw fj) (s.fsw fk))

/-- fcmp.caf.d, R976. -/
def execFcmpCafD (cd : CReg) (fj : FReg) (fk : FReg) (s : State) : Out :=
  floating s (fpCompare s cd double 0x0 (s.f fj) (s.f fk))

/-- fcmp.cun.d, R977. -/
def execFcmpCunD (cd : CReg) (fj : FReg) (fk : FReg) (s : State) : Out :=
  floating s (fpCompare s cd double 0x8 (s.f fj) (s.f fk))

/-- fcmp.ceq.d, R978. -/
def execFcmpCeqD (cd : CReg) (fj : FReg) (fk : FReg) (s : State) : Out :=
  floating s (fpCompare s cd double 0x4 (s.f fj) (s.f fk))

/-- fcmp.cueq.d, R979. -/
def execFcmpCueqD (cd : CReg) (fj : FReg) (fk : FReg) (s : State) : Out :=
  floating s (fpCompare s cd double 0xC (s.f fj) (s.f fk))

/-- fcmp.clt.d, R980. -/
def execFcmpCltD (cd : CReg) (fj : FReg) (fk : FReg) (s : State) : Out :=
  floating s (fpCompare s cd double 0x2 (s.f fj) (s.f fk))

/-- fcmp.cult.d, R981. -/
def execFcmpCultD (cd : CReg) (fj : FReg) (fk : FReg) (s : State) : Out :=
  floating s (fpCompare s cd double 0xA (s.f fj) (s.f fk))

/-- fcmp.cle.d, R982. -/
def execFcmpCleD (cd : CReg) (fj : FReg) (fk : FReg) (s : State) : Out :=
  floating s (fpCompare s cd double 0x6 (s.f fj) (s.f fk))

/-- fcmp.cule.d, R983. -/
def execFcmpCuleD (cd : CReg) (fj : FReg) (fk : FReg) (s : State) : Out :=
  floating s (fpCompare s cd double 0xE (s.f fj) (s.f fk))

/-- fcmp.cne.d, R984. -/
def execFcmpCneD (cd : CReg) (fj : FReg) (fk : FReg) (s : State) : Out :=
  floating s (fpCompare s cd double 0x10 (s.f fj) (s.f fk))

/-- fcmp.cor.d, R985. -/
def execFcmpCorD (cd : CReg) (fj : FReg) (fk : FReg) (s : State) : Out :=
  floating s (fpCompare s cd double 0x14 (s.f fj) (s.f fk))

/-- fcmp.cune.d, R986. -/
def execFcmpCuneD (cd : CReg) (fj : FReg) (fk : FReg) (s : State) : Out :=
  floating s (fpCompare s cd double 0x18 (s.f fj) (s.f fk))

/-- fcmp.saf.d, R987. -/
def execFcmpSafD (cd : CReg) (fj : FReg) (fk : FReg) (s : State) : Out :=
  floating s (fpCompare s cd double 0x1 (s.f fj) (s.f fk))

/-- fcmp.sun.d, R988. -/
def execFcmpSunD (cd : CReg) (fj : FReg) (fk : FReg) (s : State) : Out :=
  floating s (fpCompare s cd double 0x9 (s.f fj) (s.f fk))

/-- fcmp.seq.d, R989. -/
def execFcmpSeqD (cd : CReg) (fj : FReg) (fk : FReg) (s : State) : Out :=
  floating s (fpCompare s cd double 0x5 (s.f fj) (s.f fk))

/-- fcmp.sueq.d, R990. -/
def execFcmpSueqD (cd : CReg) (fj : FReg) (fk : FReg) (s : State) : Out :=
  floating s (fpCompare s cd double 0xD (s.f fj) (s.f fk))

/-- fcmp.slt.d, R991. -/
def execFcmpSltD (cd : CReg) (fj : FReg) (fk : FReg) (s : State) : Out :=
  floating s (fpCompare s cd double 0x3 (s.f fj) (s.f fk))

/-- fcmp.sult.d, R992. -/
def execFcmpSultD (cd : CReg) (fj : FReg) (fk : FReg) (s : State) : Out :=
  floating s (fpCompare s cd double 0xB (s.f fj) (s.f fk))

/-- fcmp.sle.d, R993. -/
def execFcmpSleD (cd : CReg) (fj : FReg) (fk : FReg) (s : State) : Out :=
  floating s (fpCompare s cd double 0x7 (s.f fj) (s.f fk))

/-- fcmp.sule.d, R994. -/
def execFcmpSuleD (cd : CReg) (fj : FReg) (fk : FReg) (s : State) : Out :=
  floating s (fpCompare s cd double 0xF (s.f fj) (s.f fk))

/-- fcmp.sne.d, R995. -/
def execFcmpSneD (cd : CReg) (fj : FReg) (fk : FReg) (s : State) : Out :=
  floating s (fpCompare s cd double 0x11 (s.f fj) (s.f fk))

/-- fcmp.sor.d, R996. -/
def execFcmpSorD (cd : CReg) (fj : FReg) (fk : FReg) (s : State) : Out :=
  floating s (fpCompare s cd double 0x15 (s.f fj) (s.f fk))

/-- fcmp.sune.d, R997. -/
def execFcmpSuneD (cd : CReg) (fj : FReg) (fk : FReg) (s : State) : Out :=
  floating s (fpCompare s cd double 0x19 (s.f fj) (s.f fk))

/-- fcvt.s.d, R724. -/
def execFcvtSD (fd : FReg) (fj : FReg) (s : State) : Out :=
  floating s (fpS s fd (double.convert single s.fpRm s.fpUe (s.f fj)))

/-- fcvt.d.s, R725. -/
def execFcvtDS (fd : FReg) (fj : FReg) (s : State) : Out :=
  floating s (fpD s fd (single.convert double s.fpRm s.fpUe (s.fsw fj)))

/-- ffint.s.w, R727. -/
def execFfintSW (fd : FReg) (fj : FReg) (s : State) : Out :=
  floating s (fpS s fd (single.ofInt s.fpRm (s.fs fj).toInt))

/-- ffint.s.l, R728. -/
def execFfintSL (fd : FReg) (fj : FReg) (s : State) : Out :=
  floating s (fpS s fd (single.ofInt s.fpRm (s.f fj).toInt))

/-- ffint.d.w, R729. -/
def execFfintDW (fd : FReg) (fj : FReg) (s : State) : Out :=
  floating s (fpD s fd (double.ofInt s.fpRm (s.fs fj).toInt))

/-- ffint.d.l, R730. -/
def execFfintDL (fd : FReg) (fj : FReg) (s : State) : Out :=
  floating s (fpD s fd (double.ofInt s.fpRm (s.f fj).toInt))

/-- ftint.w.s, R732. -/
def execFtintWS (fd : FReg) (fj : FReg) (s : State) : Out :=
  floating s (fpS s.drawn fd (single.toSint 32 s.fpRm s.fpIe s.pick s.free (s.fsw fj)))

/-- ftint.w.d, R733. -/
def execFtintWD (fd : FReg) (fj : FReg) (s : State) : Out :=
  floating s (fpS s.drawn fd (double.toSint 32 s.fpRm s.fpIe s.pick s.free (s.f fj)))

/-- ftint.l.s, R734. -/
def execFtintLS (fd : FReg) (fj : FReg) (s : State) : Out :=
  floating s (fpD s.drawn fd (single.toSint 64 s.fpRm s.fpIe s.pick s.free (s.fsw fj)))

/-- ftint.l.d, R735. -/
def execFtintLD (fd : FReg) (fj : FReg) (s : State) : Out :=
  floating s (fpD s.drawn fd (double.toSint 64 s.fpRm s.fpIe s.pick s.free (s.f fj)))

/-- ftintrm.w.s, R736. -/
def execFtintrmWS (fd : FReg) (fj : FReg) (s : State) : Out :=
  floating s (fpS s.drawn fd (single.toSint 32 3 s.fpIe s.pick s.free (s.fsw fj)))

/-- ftintrm.w.d, R737. -/
def execFtintrmWD (fd : FReg) (fj : FReg) (s : State) : Out :=
  floating s (fpS s.drawn fd (double.toSint 32 3 s.fpIe s.pick s.free (s.f fj)))

/-- ftintrm.l.s, R738. -/
def execFtintrmLS (fd : FReg) (fj : FReg) (s : State) : Out :=
  floating s (fpD s.drawn fd (single.toSint 64 3 s.fpIe s.pick s.free (s.fsw fj)))

/-- ftintrm.l.d, R739. -/
def execFtintrmLD (fd : FReg) (fj : FReg) (s : State) : Out :=
  floating s (fpD s.drawn fd (double.toSint 64 3 s.fpIe s.pick s.free (s.f fj)))

/-- ftintrp.w.s, R740. -/
def execFtintrpWS (fd : FReg) (fj : FReg) (s : State) : Out :=
  floating s (fpS s.drawn fd (single.toSint 32 2 s.fpIe s.pick s.free (s.fsw fj)))

/-- ftintrp.w.d, R741. -/
def execFtintrpWD (fd : FReg) (fj : FReg) (s : State) : Out :=
  floating s (fpS s.drawn fd (double.toSint 32 2 s.fpIe s.pick s.free (s.f fj)))

/-- ftintrp.l.s, R742. -/
def execFtintrpLS (fd : FReg) (fj : FReg) (s : State) : Out :=
  floating s (fpD s.drawn fd (single.toSint 64 2 s.fpIe s.pick s.free (s.fsw fj)))

/-- ftintrp.l.d, R743. -/
def execFtintrpLD (fd : FReg) (fj : FReg) (s : State) : Out :=
  floating s (fpD s.drawn fd (double.toSint 64 2 s.fpIe s.pick s.free (s.f fj)))

/-- ftintrz.w.s, R744. -/
def execFtintrzWS (fd : FReg) (fj : FReg) (s : State) : Out :=
  floating s (fpS s.drawn fd (single.toSint 32 1 s.fpIe s.pick s.free (s.fsw fj)))

/-- ftintrz.w.d, R745. -/
def execFtintrzWD (fd : FReg) (fj : FReg) (s : State) : Out :=
  floating s (fpS s.drawn fd (double.toSint 32 1 s.fpIe s.pick s.free (s.f fj)))

/-- ftintrz.l.s, R746. -/
def execFtintrzLS (fd : FReg) (fj : FReg) (s : State) : Out :=
  floating s (fpD s.drawn fd (single.toSint 64 1 s.fpIe s.pick s.free (s.fsw fj)))

/-- ftintrz.l.d, R747. -/
def execFtintrzLD (fd : FReg) (fj : FReg) (s : State) : Out :=
  floating s (fpD s.drawn fd (double.toSint 64 1 s.fpIe s.pick s.free (s.f fj)))

/-- ftintrne.w.s, R748. -/
def execFtintrneWS (fd : FReg) (fj : FReg) (s : State) : Out :=
  floating s (fpS s.drawn fd (single.toSint 32 0 s.fpIe s.pick s.free (s.fsw fj)))

/-- ftintrne.w.d, R749. -/
def execFtintrneWD (fd : FReg) (fj : FReg) (s : State) : Out :=
  floating s (fpS s.drawn fd (double.toSint 32 0 s.fpIe s.pick s.free (s.f fj)))

/-- ftintrne.l.s, R750. -/
def execFtintrneLS (fd : FReg) (fj : FReg) (s : State) : Out :=
  floating s (fpD s.drawn fd (single.toSint 64 0 s.fpIe s.pick s.free (s.fsw fj)))

/-- ftintrne.l.d, R751. -/
def execFtintrneLD (fd : FReg) (fj : FReg) (s : State) : Out :=
  floating s (fpD s.drawn fd (double.toSint 64 0 s.fpIe s.pick s.free (s.f fj)))

/-- frint.s, R753. -/
def execFrintS (fd : FReg) (fj : FReg) (s : State) : Out :=
  floating s (fpS s.drawn fd (single.toIntegral s.fpRm s.fpIe s.pick (s.fsw fj)))

/-- frint.d, R754. -/
def execFrintD (fd : FReg) (fj : FReg) (s : State) : Out :=
  floating s (fpD s.drawn fd (double.toIntegral s.fpRm s.fpIe s.pick (s.f fj)))

end Sys2Proof.Machine
end

