-- ==== Sys2Proof/Machine/LoadStore.lean ====
section
/-! DEFINITION. Integer loads and stores, prefetch, bound-check accesses (43_load_store.md). -/

namespace Sys2Proof.Machine

/-- `x[rj] > x[rk]`, unsigned (R512, D31). -/
def State.boundGt (s : State) (rj rk : Reg) : Bool := (s.x rk).ult (s.x rj)

/-- `x[rj] <= x[rk]`, unsigned (R512, D31). -/
def State.boundLe (s : State) (rj rk : Reg) : Bool := !(s.x rk).ult (s.x rj)

/-- ld.b, R483. -/
def execLdB (rd : Reg) (rj : Reg) (si12 : BitVec 12) (s : State) : Out :=
  loadX s (s.ordLoad (s.addrSi12 rj si12) 1) rd sextB

/-- ld.h, R484. -/
def execLdH (rd : Reg) (rj : Reg) (si12 : BitVec 12) (s : State) : Out :=
  loadX s (s.ordLoad (s.addrSi12 rj si12) 2) rd sextH

/-- ld.w, R485. -/
def execLdW (rd : Reg) (rj : Reg) (si12 : BitVec 12) (s : State) : Out :=
  loadX s (s.ordLoad (s.addrSi12 rj si12) 4) rd sextW

/-- ld.d, R486. -/
def execLdD (rd : Reg) (rj : Reg) (si12 : BitVec 12) (s : State) : Out :=
  loadX s (s.ordLoad (s.addrSi12 rj si12) 8) rd id

/-- ld.bu, R487. -/
def execLdBu (rd : Reg) (rj : Reg) (si12 : BitVec 12) (s : State) : Out :=
  loadX s (s.ordLoad (s.addrSi12 rj si12) 1) rd zextB

/-- ld.hu, R488. -/
def execLdHu (rd : Reg) (rj : Reg) (si12 : BitVec 12) (s : State) : Out :=
  loadX s (s.ordLoad (s.addrSi12 rj si12) 2) rd zextH

/-- ld.wu, R489. -/
def execLdWu (rd : Reg) (rj : Reg) (si12 : BitVec 12) (s : State) : Out :=
  loadX s (s.ordLoad (s.addrSi12 rj si12) 4) rd zextW

/-- st.b, R490. -/
def execStB (rd : Reg) (rj : Reg) (si12 : BitVec 12) (s : State) : Out :=
  storeX s (s.ordStore (s.addrSi12 rj si12) 1) (s.x rd)

/-- st.h, R491. -/
def execStH (rd : Reg) (rj : Reg) (si12 : BitVec 12) (s : State) : Out :=
  storeX s (s.ordStore (s.addrSi12 rj si12) 2) (s.x rd)

/-- st.w, R492. -/
def execStW (rd : Reg) (rj : Reg) (si12 : BitVec 12) (s : State) : Out :=
  storeX s (s.ordStore (s.addrSi12 rj si12) 4) (s.x rd)

/-- st.d, R493. -/
def execStD (rd : Reg) (rj : Reg) (si12 : BitVec 12) (s : State) : Out :=
  storeX s (s.ordStore (s.addrSi12 rj si12) 8) (s.x rd)

/-- ldx.b, R494. -/
def execLdxB (rd : Reg) (rj : Reg) (rk : Reg) (s : State) : Out :=
  loadX s (s.ordLoad (s.addrIndexed rj rk) 1) rd sextB

/-- ldx.h, R495. -/
def execLdxH (rd : Reg) (rj : Reg) (rk : Reg) (s : State) : Out :=
  loadX s (s.ordLoad (s.addrIndexed rj rk) 2) rd sextH

/-- ldx.w, R496. -/
def execLdxW (rd : Reg) (rj : Reg) (rk : Reg) (s : State) : Out :=
  loadX s (s.ordLoad (s.addrIndexed rj rk) 4) rd sextW

/-- ldx.d, R497. -/
def execLdxD (rd : Reg) (rj : Reg) (rk : Reg) (s : State) : Out := loadX s (s.ordLoad (s.addrIndexed rj rk) 8) rd id

/-- ldx.bu, R498. -/
def execLdxBu (rd : Reg) (rj : Reg) (rk : Reg) (s : State) : Out :=
  loadX s (s.ordLoad (s.addrIndexed rj rk) 1) rd zextB

/-- ldx.hu, R499. -/
def execLdxHu (rd : Reg) (rj : Reg) (rk : Reg) (s : State) : Out :=
  loadX s (s.ordLoad (s.addrIndexed rj rk) 2) rd zextH

/-- ldx.wu, R505. -/
def execLdxWu (rd : Reg) (rj : Reg) (rk : Reg) (s : State) : Out :=
  loadX s (s.ordLoad (s.addrIndexed rj rk) 4) rd zextW

/-- stx.b, R506. -/
def execStxB (rd : Reg) (rj : Reg) (rk : Reg) (s : State) : Out :=
  storeX s (s.ordStore (s.addrIndexed rj rk) 1) (s.x rd)

/-- stx.h, R507. -/
def execStxH (rd : Reg) (rj : Reg) (rk : Reg) (s : State) : Out :=
  storeX s (s.ordStore (s.addrIndexed rj rk) 2) (s.x rd)

/-- stx.w, R508. -/
def execStxW (rd : Reg) (rj : Reg) (rk : Reg) (s : State) : Out :=
  storeX s (s.ordStore (s.addrIndexed rj rk) 4) (s.x rd)

/-- stx.d, R509. -/
def execStxD (rd : Reg) (rj : Reg) (rk : Reg) (s : State) : Out :=
  storeX s (s.ordStore (s.addrIndexed rj rk) 8) (s.x rd)

/-- ldptr.w, R500, R501. -/
def execLdptrW (rd : Reg) (rj : Reg) (si14 : BitVec 14) (s : State) : Out :=
  loadX s (s.ordLoad (s.addrSi14 rj si14) 4) rd sextW

/-- ldptr.d, R500, R502. -/
def execLdptrD (rd : Reg) (rj : Reg) (si14 : BitVec 14) (s : State) : Out :=
  loadX s (s.ordLoad (s.addrSi14 rj si14) 8) rd id

/-- stptr.w, R500, R503. -/
def execStptrW (rd : Reg) (rj : Reg) (si14 : BitVec 14) (s : State) : Out :=
  storeX s (s.ordStore (s.addrSi14 rj si14) 4) (s.x rd)

/-- stptr.d, R500, R504. -/
def execStptrD (rd : Reg) (rj : Reg) (si14 : BitVec 14) (s : State) : Out :=
  storeX s (s.ordStore (s.addrSi14 rj si14) 8) (s.x rd)

/-- preld, R510: a prefetch has no architectural effect and raises nothing (D32). -/
def execPreld (_hint : BitVec 5) (_rj : Reg) (_si12 : BitVec 12) (s : State) : Out := .next s.advance

/-- preldx, R511: a prefetch has no architectural effect and raises nothing (D32). -/
def execPreldx (_hint : BitVec 5) (_rj : Reg) (_rk : Reg) (s : State) : Out := .next s.advance

/-- ldgt.b, R512, R513. -/
def execLdgtB (rd : Reg) (rj : Reg) (rk : Reg) (s : State) : Out :=
  loadX s (s.boundLoad (s.x rj) 1 (s.boundGt rj rk)) rd sextB

/-- ldgt.h, R512, R514. -/
def execLdgtH (rd : Reg) (rj : Reg) (rk : Reg) (s : State) : Out :=
  loadX s (s.boundLoad (s.x rj) 2 (s.boundGt rj rk)) rd sextH

/-- ldgt.w, R512, R515. -/
def execLdgtW (rd : Reg) (rj : Reg) (rk : Reg) (s : State) : Out :=
  loadX s (s.boundLoad (s.x rj) 4 (s.boundGt rj rk)) rd sextW

/-- ldgt.d, R512, R516. -/
def execLdgtD (rd : Reg) (rj : Reg) (rk : Reg) (s : State) : Out :=
  loadX s (s.boundLoad (s.x rj) 8 (s.boundGt rj rk)) rd id

/-- ldle.b, R512, R517. -/
def execLdleB (rd : Reg) (rj : Reg) (rk : Reg) (s : State) : Out :=
  loadX s (s.boundLoad (s.x rj) 1 (s.boundLe rj rk)) rd sextB

/-- ldle.h, R512, R518. -/
def execLdleH (rd : Reg) (rj : Reg) (rk : Reg) (s : State) : Out :=
  loadX s (s.boundLoad (s.x rj) 2 (s.boundLe rj rk)) rd sextH

/-- ldle.w, R512, R519. -/
def execLdleW (rd : Reg) (rj : Reg) (rk : Reg) (s : State) : Out :=
  loadX s (s.boundLoad (s.x rj) 4 (s.boundLe rj rk)) rd sextW

/-- ldle.d, R512, R520. -/
def execLdleD (rd : Reg) (rj : Reg) (rk : Reg) (s : State) : Out :=
  loadX s (s.boundLoad (s.x rj) 8 (s.boundLe rj rk)) rd id

/-- stgt.b, R512, R521. -/
def execStgtB (rd : Reg) (rj : Reg) (rk : Reg) (s : State) : Out :=
  storeX s (s.boundStore (s.x rj) 1 (s.boundGt rj rk)) (s.x rd)

/-- stgt.h, R512, R522. -/
def execStgtH (rd : Reg) (rj : Reg) (rk : Reg) (s : State) : Out :=
  storeX s (s.boundStore (s.x rj) 2 (s.boundGt rj rk)) (s.x rd)

/-- stgt.w, R512, R523. -/
def execStgtW (rd : Reg) (rj : Reg) (rk : Reg) (s : State) : Out :=
  storeX s (s.boundStore (s.x rj) 4 (s.boundGt rj rk)) (s.x rd)

/-- stgt.d, R512, R524. -/
def execStgtD (rd : Reg) (rj : Reg) (rk : Reg) (s : State) : Out :=
  storeX s (s.boundStore (s.x rj) 8 (s.boundGt rj rk)) (s.x rd)

/-- stle.b, R512, R525. -/
def execStleB (rd : Reg) (rj : Reg) (rk : Reg) (s : State) : Out :=
  storeX s (s.boundStore (s.x rj) 1 (s.boundLe rj rk)) (s.x rd)

/-- stle.h, R512, R526. -/
def execStleH (rd : Reg) (rj : Reg) (rk : Reg) (s : State) : Out :=
  storeX s (s.boundStore (s.x rj) 2 (s.boundLe rj rk)) (s.x rd)

/-- stle.w, R512, R527. -/
def execStleW (rd : Reg) (rj : Reg) (rk : Reg) (s : State) : Out :=
  storeX s (s.boundStore (s.x rj) 4 (s.boundLe rj rk)) (s.x rd)

/-- stle.d, R512, R528. -/
def execStleD (rd : Reg) (rj : Reg) (rk : Reg) (s : State) : Out :=
  storeX s (s.boundStore (s.x rj) 8 (s.boundLe rj rk)) (s.x rd)

end Sys2Proof.Machine
end

