-- ==== Sys2Proof/Machine/FpMove.lean ====
section
/-! DEFINITION. Floating-point moves, branches on a condition flag, floating-point loads and stores
(48_fp_move_branch_mem.md). -/

namespace Sys2Proof.Machine

/-- The aliased field of fcsr`n` replaced by the bits of `v` (10_state.md R30; R775); for a number that does not exist
every defined bit becomes any value (R775, #6; log 17). -/
def State.writeFcsr (s : State) (n : BitVec 5) (v : BitVec 32) : State :=
  if n.toNat < 4 then s.setFcsr0 ((s.fcsr0 &&& ~~~(fcsrView n)) ||| (v &&& fcsrView n))
  else (s.setFcsr0 ((s.fcsr0 &&& ~~~fcsrDefined) ||| (low32 s.free &&& fcsrDefined))).drawn

/-- A word loaded into `f[fd]` (R783). -/
def loadFS (s : State) (a : Access) (fd : FReg) : Out :=
  access s a fun ps t => .next (t.setFS fd (low32 (t.loadBytes (physAddrs ps)))).advance

/-- A doubleword loaded into `f[fd]` (R783). -/
def loadFD (s : State) (a : Access) (fd : FReg) : Out :=
  access s a fun ps t => .next (t.setF fd (t.loadBytes (physAddrs ps))).advance

/-- fmov.s, R761. -/
def execFmovS (fd : FReg) (fj : FReg) (s : State) : Out :=
  floating s (fpQuietS s fd (s.f fj))

/-- fmov.d, R762. -/
def execFmovD (fd : FReg) (fj : FReg) (s : State) : Out :=
  floating s (fpQuietD s fd (s.f fj))

/-- fsel, R763. -/
def execFsel (fd : FReg) (fj : FReg) (fk : FReg) (ca : CReg) (s : State) : Out :=
  floating s (fpQuietD s fd (if s.cc ca then s.f fk else s.f fj))

/-- movgr2fr.w, R769. -/
def execMovgr2frW (fd : FReg) (rj : Reg) (s : State) : Out :=
  floating s (fpQuietS s fd (s.x rj))

/-- movgr2fr.d, R770. -/
def execMovgr2frD (fd : FReg) (rj : Reg) (s : State) : Out :=
  floating s (fpQuietD s fd (s.x rj))

/-- movgr2frh.w, R771. -/
def execMovgr2frhW (fd : FReg) (rj : Reg) (s : State) : Out :=
  floating s (fpQuietD s fd (low32 (s.x rj) ++ s.fs fd))

/-- movfr2gr.s, R772. -/
def execMovfr2grS (rd : Reg) (fj : FReg) (s : State) : Out :=
  floating s (.next (s.retire rd (sext32 (s.fs fj))))

/-- movfr2gr.d, R773. -/
def execMovfr2grD (rd : Reg) (fj : FReg) (s : State) : Out :=
  floating s (.next (s.retire rd (s.f fj)))

/-- movfrh2gr.s, R774. -/
def execMovfrh2grS (rd : Reg) (fj : FReg) (s : State) : Out :=
  floating s (.next (s.retire rd (sext32 (bits (s.f fj) 32 32))))

/-- movgr2fcsr, R775. -/
def execMovgr2fcsr (fcsr : BitVec 5) (rj : Reg) (s : State) : Out :=
  floating s (.next (s.writeFcsr fcsr (low32 (s.x rj))).advance)

/-- movfcsr2gr, R776; log 17. -/
def execMovfcsr2gr (rd : Reg) (fcsr : BitVec 5) (s : State) : Out :=
  floating s (.next (if fcsr.toNat < 4 then s.retire rd (sext32 (s.fcsr0 &&& fcsrView fcsr)) else s.retireAny rd))

/-- movfr2cf, R777. -/
def execMovfr2cf (cd : CReg) (fj : FReg) (s : State) : Out :=
  floating s (.next (s.setCc cd ((s.f fj).getLsbD 0)).advance)

/-- movcf2fr, R778; the other 63 bits are any value (log 25). -/
def execMovcf2fr (fd : FReg) (cj : CReg) (s : State) : Out :=
  floating s (.next ((s.setF fd (withBit s.free 0 (s.cc cj))).drawn).advance)

/-- movgr2cf, R779. -/
def execMovgr2cf (cd : CReg) (rj : Reg) (s : State) : Out :=
  floating s (.next (s.setCc cd ((s.x rj).getLsbD 0)).advance)

/-- movcf2gr, R780. -/
def execMovcf2gr (rd : Reg) (cj : CReg) (s : State) : Out :=
  floating s (.next (s.retire rd (boolWord (s.cc cj))))

/-- bceqz, R781. -/
def execBceqz (cj : CReg) (offs21 : BitVec 21) (s : State) : Out :=
  floating s (.next (if s.cc cj then s.advance else s.setPc (s.target offs21)))

/-- bcnez, R782. -/
def execBcnez (cj : CReg) (offs21 : BitVec 21) (s : State) : Out :=
  floating s (.next (if s.cc cj then s.setPc (s.target offs21) else s.advance))

/-- fld.s, R784. -/
def execFldS (fd : FReg) (rj : Reg) (si12 : BitVec 12) (s : State) : Out :=
  floating s (loadFS s (s.ordLoad (s.addrSi12 rj si12) 4) fd)

/-- fst.s, R786. -/
def execFstS (fd : FReg) (rj : Reg) (si12 : BitVec 12) (s : State) : Out :=
  floating s (storeX s (s.ordStore (s.addrSi12 rj si12) 4) (s.f fd))

/-- fldx.s, R788. -/
def execFldxS (fd : FReg) (rj : Reg) (rk : Reg) (s : State) : Out :=
  floating s (loadFS s (s.ordLoad (s.addrIndexed rj rk) 4) fd)

/-- fstx.s, R790. -/
def execFstxS (fd : FReg) (rj : Reg) (rk : Reg) (s : State) : Out :=
  floating s (storeX s (s.ordStore (s.addrIndexed rj rk) 4) (s.f fd))

/-- fldgt.s, R793, R792. -/
def execFldgtS (fd : FReg) (rj : Reg) (rk : Reg) (s : State) : Out :=
  floating s (loadFS s (s.boundLoad (s.x rj) 4 (s.boundGt rj rk)) fd)

/-- fstgt.s, R797, R792. -/
def execFstgtS (fd : FReg) (rj : Reg) (rk : Reg) (s : State) : Out :=
  floating s (storeX s (s.boundStore (s.x rj) 4 (s.boundGt rj rk)) (s.f fd))

/-- fldle.s, R795, R792. -/
def execFldleS (fd : FReg) (rj : Reg) (rk : Reg) (s : State) : Out :=
  floating s (loadFS s (s.boundLoad (s.x rj) 4 (s.boundLe rj rk)) fd)

/-- fstle.s, R799, R792. -/
def execFstleS (fd : FReg) (rj : Reg) (rk : Reg) (s : State) : Out :=
  floating s (storeX s (s.boundStore (s.x rj) 4 (s.boundLe rj rk)) (s.f fd))

/-- fld.d, R785. -/
def execFldD (fd : FReg) (rj : Reg) (si12 : BitVec 12) (s : State) : Out :=
  floating s (loadFD s (s.ordLoad (s.addrSi12 rj si12) 8) fd)

/-- fst.d, R787. -/
def execFstD (fd : FReg) (rj : Reg) (si12 : BitVec 12) (s : State) : Out :=
  floating s (storeX s (s.ordStore (s.addrSi12 rj si12) 8) (s.f fd))

/-- fldx.d, R789. -/
def execFldxD (fd : FReg) (rj : Reg) (rk : Reg) (s : State) : Out :=
  floating s (loadFD s (s.ordLoad (s.addrIndexed rj rk) 8) fd)

/-- fstx.d, R791. -/
def execFstxD (fd : FReg) (rj : Reg) (rk : Reg) (s : State) : Out :=
  floating s (storeX s (s.ordStore (s.addrIndexed rj rk) 8) (s.f fd))

/-- fldgt.d, R794, R792. -/
def execFldgtD (fd : FReg) (rj : Reg) (rk : Reg) (s : State) : Out :=
  floating s (loadFD s (s.boundLoad (s.x rj) 8 (s.boundGt rj rk)) fd)

/-- fstgt.d, R798, R792. -/
def execFstgtD (fd : FReg) (rj : Reg) (rk : Reg) (s : State) : Out :=
  floating s (storeX s (s.boundStore (s.x rj) 8 (s.boundGt rj rk)) (s.f fd))

/-- fldle.d, R796, R792. -/
def execFldleD (fd : FReg) (rj : Reg) (rk : Reg) (s : State) : Out :=
  floating s (loadFD s (s.boundLoad (s.x rj) 8 (s.boundLe rj rk)) fd)

/-- fstle.d, R800, R792. -/
def execFstleD (fd : FReg) (rj : Reg) (rk : Reg) (s : State) : Out :=
  floating s (storeX s (s.boundStore (s.x rj) 8 (s.boundLe rj rk)) (s.f fd))

end Sys2Proof.Machine
end

