-- ==== Sys2Proof/Machine/Misc.lean ====
section
/-! DEFINITION. CRC, system call, breakpoint, assertions, the stable counter, CPUCFG (45_crc_misc.md). -/

namespace Sys2Proof.Machine

/-- One step of the CRC division (R600). -/
def crcStep (poly c : Word) : Word := if c.getLsbD 0 then (c >>> 1) ^^^ poly else c >>> 1

/-- `n` steps (R600). -/
def crcSteps (poly : Word) : Nat → Word → Word
  | 0, c => c
  | n + 1, c => crcSteps poly n (crcStep poly c)

/-- `CRC32(old_chksum, msg, width, poly)`: the message is masked to its width by `msg` (R600). -/
def crc32 (poly : Word) (width : Nat) (old msg : Word) : BitVec 32 := low32 (crcSteps poly width (zextW old ^^^ msg))

/-- The IEEE 802.3 polynomial, reflected (R600). -/
def polyIeee : Word := 0xEDB88320#64

/-- The Castagnoli polynomial, reflected (R600). -/
def polyCastagnoli : Word := 0x82F63B78#64

/-- CRC of the message in rj onto the checksum in rk (R600). -/
def crcOp (poly : Word) (width : Nat) (trunc : Word → Word) (rd rj rk : Reg) (s : State) : Out :=
  op3 (fun m c => sext32 (crc32 poly width c (trunc m))) rd rj rk s

/-- The counter value that software reads: StableCounter + CNTC (R615, 13 R153). -/
def State.timeValue (s : State) : Word := s.stable + s.csr.timer.cntc

/-- RDTIME at this privilege level is disabled by MISC.DRDTL (R615). -/
def State.rdtimeDisabled (s : State) : Bool := s.plv != 0 && s.csr.basic.misc.getLsbD (4 + s.plv.toNat)

/-- RDTIME: a part of the counter to rd, the Counter ID to rj; with rd = rj either write may win (R615, #59; log 28). -/
def rdtime (part : Word → Word) (rd rj : Reg) (s : State) : Out :=
  if s.rdtimeDisabled then .next (s.raise .ipe)
  else if rd = rj ∧ rd ≠ 0 then
    .next (s.drawn.retire rd (if s.free.getLsbD 0 then part s.timeValue else sext32 s.csr.timer.tid))
  else .next ((s.setX rj (sext32 s.csr.timer.tid)).retire rd (part s.timeValue))

/-- An assertion that fails raises BCE; BADV is any value (R611, #52; log 21). -/
def assertTrue (c : Bool) (s : State) : Out := .next (if c then s.advance else s.drawn.raise (.bce s.free))

/-- crc.w.b.w, R600, R601. -/
def execCrcWBW (rd : Reg) (rj : Reg) (rk : Reg) (s : State) : Out := crcOp polyIeee 8 zextB rd rj rk s

/-- crc.w.h.w, R600, R602. -/
def execCrcWHW (rd : Reg) (rj : Reg) (rk : Reg) (s : State) : Out := crcOp polyIeee 16 zextH rd rj rk s

/-- crc.w.w.w, R600, R603. -/
def execCrcWWW (rd : Reg) (rj : Reg) (rk : Reg) (s : State) : Out := crcOp polyIeee 32 zextW rd rj rk s

/-- crc.w.d.w, R600, R604. -/
def execCrcWDW (rd : Reg) (rj : Reg) (rk : Reg) (s : State) : Out := crcOp polyIeee 64 id rd rj rk s

/-- crcc.w.b.w, R600, R605. -/
def execCrccWBW (rd : Reg) (rj : Reg) (rk : Reg) (s : State) : Out := crcOp polyCastagnoli 8 zextB rd rj rk s

/-- crcc.w.h.w, R600, R606. -/
def execCrccWHW (rd : Reg) (rj : Reg) (rk : Reg) (s : State) : Out := crcOp polyCastagnoli 16 zextH rd rj rk s

/-- crcc.w.w.w, R600, R607. -/
def execCrccWWW (rd : Reg) (rj : Reg) (rk : Reg) (s : State) : Out := crcOp polyCastagnoli 32 zextW rd rj rk s

/-- crcc.w.d.w, R600, R608. -/
def execCrccWDW (rd : Reg) (rj : Reg) (rk : Reg) (s : State) : Out := crcOp polyCastagnoli 64 id rd rj rk s

/-- syscall, R609: the exception SYS at every privilege level. -/
def execSyscall (_code : BitVec 15) (s : State) : Out := .next (s.raise .sys)

/-- break, R610: the exception BRK at every privilege level. -/
def execBrk (_code : BitVec 15) (s : State) : Out := .next (s.raise .brk)

/-- asrtle.d, R611: signed. -/
def execAsrtleD (rj : Reg) (rk : Reg) (s : State) : Out := assertTrue (!(s.x rk).slt (s.x rj)) s

/-- asrtgt.d, R617: signed. -/
def execAsrtgtD (rj : Reg) (rk : Reg) (s : State) : Out := assertTrue ((s.x rk).slt (s.x rj)) s

/-- rdtimel.w, R612. -/
def execRdtimelW (rd : Reg) (rj : Reg) (s : State) : Out := rdtime sextW rd rj s

/-- rdtimeh.w, R613. -/
def execRdtimehW (rd : Reg) (rj : Reg) (s : State) : Out := rdtime (fun t => sext32 (bits t 32 32)) rd rj s

/-- rdtime.d, R614. -/
def execRdtimeD (rd : Reg) (rj : Reg) (s : State) : Out := rdtime id rd rj s

/-- cpucfg, R616. -/
def execCpucfg (rd : Reg) (rj : Reg) (s : State) : Out := op2 (fun n => sext32 (Config.cpucfg n)) rd rj s

end Sys2Proof.Machine
end

