-- ==== Sys2Proof/Machine/Csr.lean ====
section
/-! DEFINITION. The control and status registers by number, and what reading and writing each does
(10_state.md R41 to R45; 11 to 13). -/

namespace Sys2Proof.Machine

/-- A control and status register that the reference configuration has (10_state.md R45). -/
inductive CsrId where
  | crmd | prmd | euen | misc | ecfg | estat | era | badv | badi | eentry
  | tlbidx | tlbehi | tlbelo0 | tlbelo1 | asid | pgdl | pgdh | pgd | pwcl | pwch | stlbps | rvacfg
  | cpuid | prcfg1 | prcfg2 | prcfg3
  | save (i : Fin Config.saveNum)
  | tid | tcfg | tval | cntc | ticlr | llbctl
  | tlbrentry | tlbrbadv | tlbrera | tlbrsave | tlbrelo0 | tlbrelo1 | tlbrehi | tlbrprmd
  | merrctl | merrinfo1 | merrinfo2 | merrentry | merrera | merrsave | ctag
  | dmw (i : Fin Config.numDmw)
  | pmcfg (i : Fin Config.pmNum)
  | pmcnt (i : Fin Config.pmNum)
  | mwpc | mwps
  | mwpcfg1 (i : Fin Config.mwpNum) | mwpcfg2 (i : Fin Config.mwpNum) | mwpcfg3 (i : Fin Config.mwpNum) | mwpcfg4 (i : Fin Config.mwpNum)
  | fwpc | fwps
  | fwpcfg1 (i : Fin Config.fwpNum) | fwpcfg2 (i : Fin Config.fwpNum) | fwpcfg3 (i : Fin Config.fwpNum) | fwpcfg4 (i : Fin Config.fwpNum)
  | dbg | dera | dsave
  | msgis (i : Fin 4)
  | msgir | msgie
deriving DecidableEq, Repr

/-- The registers that have one number each (R45). -/
def csrSingle (n : Nat) : Option CsrId :=
  match n with
  | 0x0 => some .crmd
  | 0x1 => some .prmd
  | 0x2 => some .euen
  | 0x3 => some .misc
  | 0x4 => some .ecfg
  | 0x5 => some .estat
  | 0x6 => some .era
  | 0x7 => some .badv
  | 0x8 => some .badi
  | 0xC => some .eentry
  | 0x10 => some .tlbidx
  | 0x11 => some .tlbehi
  | 0x12 => some .tlbelo0
  | 0x13 => some .tlbelo1
  | 0x18 => some .asid
  | 0x19 => some .pgdl
  | 0x1A => some .pgdh
  | 0x1B => some .pgd
  | 0x1C => some .pwcl
  | 0x1D => some .pwch
  | 0x1E => some .stlbps
  | 0x1F => some .rvacfg
  | 0x20 => some .cpuid
  | 0x21 => some .prcfg1
  | 0x22 => some .prcfg2
  | 0x23 => some .prcfg3
  | 0x40 => some .tid
  | 0x41 => some .tcfg
  | 0x42 => some .tval
  | 0x43 => some .cntc
  | 0x44 => some .ticlr
  | 0x60 => some .llbctl
  | 0x88 => some .tlbrentry
  | 0x89 => some .tlbrbadv
  | 0x8A => some .tlbrera
  | 0x8B => some .tlbrsave
  | 0x8C => some .tlbrelo0
  | 0x8D => some .tlbrelo1
  | 0x8E => some .tlbrehi
  | 0x8F => some .tlbrprmd
  | 0x90 => some .merrctl
  | 0x91 => some .merrinfo1
  | 0x92 => some .merrinfo2
  | 0x93 => some .merrentry
  | 0x94 => some .merrera
  | 0x95 => some .merrsave
  | 0x98 => some .ctag
  | 0x300 => some .mwpc
  | 0x301 => some .mwps
  | 0x380 => some .fwpc
  | 0x381 => some .fwps
  | 0x500 => some .dbg
  | 0x501 => some .dera
  | 0x502 => some .dsave
  | _ => none

/-- The register of a watchpoint's block of eight numbers (R45). -/
def watchReg (r1 r2 r3 r4 : CsrId) (k : Nat) : Option CsrId :=
  match k with
  | 0 => some r1
  | 1 => some r2
  | 2 => some r3
  | 3 => some r4
  | _ => none

/-- The registers of message interrupts, by the numbers of later editions (R886, G23; log 38). -/
def csrMsg (n : Nat) : Option CsrId :=
  if !Config.msgInt then none
  else if 0x100 ≤ n ∧ n < 0x104 then some (.msgis (Fin.ofNat 4 (n - 0x100)))
  else if n = 0x104 then some .msgir
  else if n = 0x105 then some .msgie
  else none

/-- The numbers of the timer registers, TID to TICLR (R45), which the subset LLFTP has (30_encoding.md R322). -/
def isTimerCsr (n : Nat) : Bool := decide (0x40 ≤ n ∧ n < 0x45)

/-- The register of a number; none where the number is undefined or not implemented (R43, R45). -/
def csrId (num : BitVec 14) : Option CsrId :=
  let n := num.toNat
  if 0x30 ≤ n ∧ n < 0x30 + Config.saveNum then some (.save (Fin.ofNat _ (n - 0x30)))
  else if 0x180 ≤ n ∧ n < 0x180 + Config.numDmw then some (.dmw (Fin.ofNat _ (n - 0x180)))
  else if 0x200 ≤ n ∧ n < 0x200 + 2 * Config.pmNum then
    let i := Fin.ofNat _ ((n - 0x200) / 2)
    some (if n % 2 = 0 then .pmcfg i else .pmcnt i)
  else if 0x310 ≤ n ∧ n < 0x310 + 8 * Config.mwpNum then
    let i := Fin.ofNat _ ((n - 0x310) / 8)
    watchReg (.mwpcfg1 i) (.mwpcfg2 i) (.mwpcfg3 i) (.mwpcfg4 i) ((n - 0x310) % 8)
  else if 0x390 ≤ n ∧ n < 0x390 + 8 * Config.fwpNum then
    let i := Fin.ofNat _ ((n - 0x390) / 8)
    watchReg (.fwpcfg1 i) (.fwpcfg2 i) (.fwpcfg3 i) (.fwpcfg4 i) ((n - 0x390) % 8)
  else if 0x100 ≤ n ∧ n < 0x106 then csrMsg n
  else if isTimerCsr n && !Config.llftp then none
  else csrSingle n

/-- ESTAT as software reads it: the interrupt status is live; MSGINT is bit 14 where it exists (R78, R880, R886). -/
def State.estatValue (s : State) : BitVec 32 :=
  withBit (withBits s.csr.basic.estat 0 s.is) 14 s.msgSel.isSome

/-- PGD: PGDL or PGDH by the top bit of the bad address of the current context (12_csr_mmu.md R117, D17). -/
def State.pgdValue (s : State) : Word :=
  if (if s.isTlbr then s.csr.refill.badv else s.csr.basic.badv).getLsbD 63 then s.csr.mmu.pgdh else s.csr.mmu.pgdl

/-- MSGIR: INTNUM in the low bits, the selected message, else 0 with NULL at bit 31; the layout is the model's choice
(R886; log 38). -/
def State.msgirValue (s : State) : BitVec 32 :=
  match s.msgSel with
  | some k => BitVec.ofNat 32 k
  | none => 0x80000000#32

/-- What reading a register gives; a 32-bit register is sign-extended (R42, R812). -/
def State.csrRead (s : State) : CsrId → Word
  | .crmd => sext32 s.csr.basic.crmd
  | .prmd => sext32 s.csr.basic.prmd
  | .euen => sext32 s.csr.basic.euen
  | .misc => sext32 (if Config.ual then s.csr.basic.misc else s.csr.basic.misc ||| 0xF000#32)
  | .ecfg => sext32 s.csr.basic.ecfg
  | .estat => sext32 s.estatValue
  | .era => s.csr.basic.era
  | .badv => s.csr.basic.badv
  | .badi => sext32 s.csr.basic.badi
  | .eentry => s.csr.basic.eentry
  | .tlbidx => sext32 s.csr.mmu.tlbidx
  | .tlbehi => s.csr.mmu.tlbehi
  | .tlbelo0 => s.csr.mmu.tlbelo0
  | .tlbelo1 => s.csr.mmu.tlbelo1
  | .asid => sext32 (withBits s.csr.mmu.asid 16 (BitVec.ofNat 8 Config.asidBits))
  | .pgdl => s.csr.mmu.pgdl
  | .pgdh => s.csr.mmu.pgdh
  | .pgd => s.pgdValue
  | .pwcl => sext32 s.csr.mmu.pwcl
  | .pwch => sext32 s.csr.mmu.pwch
  | .stlbps => sext32 s.csr.mmu.stlbps
  | .rvacfg => sext32 s.csr.basic.rvacfg
  | .cpuid => sext32 Config.cpuid
  | .prcfg1 => sext32 Config.prcfg1
  | .prcfg2 => Config.prcfg2
  | .prcfg3 => sext32 Config.prcfg3
  | .save i => s.csr.basic.save[i]
  | .tid => sext32 s.csr.timer.tid
  | .tcfg => s.csr.timer.tcfg
  | .tval => s.csr.timer.tval
  | .cntc => s.csr.timer.cntc
  | .ticlr => 0
  | .llbctl => sext32 (withBit s.csr.basic.llbctl 0 s.llbit)
  | .tlbrentry => s.csr.refill.entry
  | .tlbrbadv => s.csr.refill.badv
  | .tlbrera => s.csr.refill.era
  | .tlbrsave => s.csr.refill.save
  | .tlbrelo0 => s.csr.refill.elo0
  | .tlbrelo1 => s.csr.refill.elo1
  | .tlbrehi => s.csr.refill.ehi
  | .tlbrprmd => sext32 s.csr.refill.prmd
  | .merrctl => sext32 s.csr.merr.ctl
  | .merrinfo1 => s.csr.merr.info1
  | .merrinfo2 => s.csr.merr.info2
  | .merrentry => s.csr.merr.entry
  | .merrera => s.csr.merr.era
  | .merrsave => s.csr.merr.save
  | .ctag => s.csr.basic.ctag
  | .dmw i => s.csr.mmu.dmw[i]
  | .pmcfg i => sext32 s.csr.perf.cfg[i]
  | .pmcnt i => s.csr.perf.cnt[i]
  | .mwpc => sext32 Config.mwpc
  | .mwps => sext32 s.csr.watch.mwps
  | .mwpcfg1 i => s.csr.watch.mwp[i].cfg1
  | .mwpcfg2 i => s.csr.watch.mwp[i].cfg2
  | .mwpcfg3 i => sext32 s.csr.watch.mwp[i].cfg3
  | .mwpcfg4 i => sext32 s.csr.watch.mwp[i].cfg4
  | .fwpc => sext32 Config.fwpc
  | .fwps => sext32 s.csr.watch.fwps
  | .fwpcfg1 i => s.csr.watch.fwp[i].cfg1
  | .fwpcfg2 i => s.csr.watch.fwp[i].cfg2
  | .fwpcfg3 i => sext32 s.csr.watch.fwp[i].cfg3
  | .fwpcfg4 i => sext32 s.csr.watch.fwp[i].cfg4
  | .dbg => sext32 (withBits s.csr.dbgRegs.dbg 1 1#7)
  | .dera => s.csr.dbgRegs.dera
  | .dsave => s.csr.dbgRegs.dsave
  | .msgis i => bits s.csr.msg.msgis (64 * i.val) 64
  | .msgir => sext32 s.msgirValue
  | .msgie => s.csr.msg.pt.setWidth 64

/-- A 32-bit register offered a value: its RW bits `m` take it, the others stay (R41, R812). -/
def take32 (old m : BitVec 32) (v : Word) : BitVec 32 := (old &&& ~~~m) ||| (low32 v &&& m)

/-- A GRLEN-wide register offered a value: its RW bits `m` take it, the others stay (R41, R812). -/
def take64 (old m v : Word) : Word := (old &&& ~~~m) ||| (v &&& m)

/-- The RW bits of TLBELO and TLBRELO (12_csr_mmu.md R112, R125). -/
def eloMask : Word := 0xE00000000000007F#64 ||| maskOf 12 Config.palen

/-- A physical page address: bits [PALEN-1:12] (R121, R162). -/
def entryMask : Word := maskOf 12 Config.palen

/-- The RW bits of MISC; ALCL is read-only without UAL (11_csr_basic.md R75, R76). -/
def miscMask : BitVec 32 := if Config.ual then 0x0007FEEE#32 else 0x00070EEE#32

/-- The RW bits of TLBIDX (12_csr_mmu.md R110). -/
def tlbidxMask : BitVec 32 := 0xBF000000#32 ||| maskOf 0 Config.tlbIndexBits

/-- A write-1-to-clear status of `n` watchpoints with the Skip bit (13 R181, R187). -/
def takeWatchStatus (n : Nat) (old : BitVec 32) (v : Word) : BitVec 32 :=
  (old &&& maskOf 0 n &&& ~~~(low32 v)) ||| (low32 v &&& 0x10000#32)

/-- A watchpoint that is available only in debug mode is written only there (13 R183, R189). -/
def State.watchWritable (s : State) (w : Watchpoint) : Bool := s.inDebug || !w.cfg3.getLsbD 0

/-- A load/store watchpoint rewritten, where it may be. -/
def State.setMwp (s : State) (i : Fin Config.mwpNum) (f : Watchpoint → Watchpoint) : State :=
  if s.watchWritable s.csr.watch.mwp[i] then
    s.setWatch { s.csr.watch with mwp := s.csr.watch.mwp.set i (f s.csr.watch.mwp[i]) }
  else s

/-- A fetch watchpoint rewritten, where it may be. -/
def State.setFwp (s : State) (i : Fin Config.fwpNum) (f : Watchpoint → Watchpoint) : State :=
  if s.watchWritable s.csr.watch.fwp[i] then
    s.setWatch { s.csr.watch with fwp := s.csr.watch.fwp.set i (f s.csr.watch.fwp[i]) }
  else s

/-- The debug-only bit of CFG3 can be modified only in debug mode (13 R183, R189). -/
def State.cfg3Mask (s : State) (m : BitVec 32) : BitVec 32 := if s.inDebug then m ||| 1#32 else m

/-- Writing TCFG: with En = 1 the count is loaded with {InitVal, 2'b00} (13 R151, R155, D20). -/
def TimerCsrs.writeTcfg (t : TimerCsrs) (v : Word) : TimerCsrs :=
  { t with
    tcfg := take64 t.tcfg (maskOf 0 Config.timerBits) v
    tval := if v.getLsbD 0 then v &&& maskOf 2 Config.timerBits else t.tval }

/-- Writing LLBCTL: KLO is RW; WCLLB clears LLbit (11_csr_basic.md R90). -/
def State.writeLlbctl (s : State) (v : Word) : State :=
  let t := s.setBasic { s.csr.basic with llbctl := take32 s.csr.basic.llbctl 0x4#32 v }
  if v.getLsbD 1 then t.setLL false else t

/-- Writing TICLR: CLR clears the timer flag (13 R154). -/
def State.writeTiclr (s : State) (v : Word) : State :=
  if v.getLsbD 0 then s.setBasic { s.csr.basic with estat := withBit s.csr.basic.estat 11 false } else s

/-- What offering a value to a register does (R41, R812 and the rule of each register).  That MSGIS is written whole and
MSGIE in PT, its bits 7:0, is the model's choice (log 38). -/
def State.csrWrite (s : State) (c : CsrId) (v : Word) : State :=
  let b := s.csr.basic
  let m := s.csr.mmu
  let r := s.csr.refill
  let e := s.csr.merr
  match c with
  | .crmd => s.setBasic { b with crmd := take32 b.crmd 0x3FF#32 v }
  | .prmd => s.setBasic { b with prmd := take32 b.prmd 0xF#32 v }
  | .euen => s.setBasic { b with euen := take32 b.euen 0x1#32 v }
  | .misc => s.setBasic { b with misc := take32 b.misc miscMask v }
  | .ecfg => s.setBasic { b with ecfg := take32 b.ecfg 0x00071FFF#32 v }
  | .estat => s.setBasic { b with estat := take32 b.estat 0x3#32 v }
  | .era => s.setBasic { b with era := v }
  | .badv => s.setBasic { b with badv := v }
  | .badi => s
  | .eentry => s.setBasic { b with eentry := take64 b.eentry 0xFFFFFFFFFFFFF000#64 v }
  | .tlbidx => s.setMmu { m with tlbidx := take32 m.tlbidx tlbidxMask v }
  | .tlbehi => s.setMmu { m with tlbehi := vppnImage v }
  | .tlbelo0 => s.setMmu { m with tlbelo0 := take64 m.tlbelo0 eloMask v }
  | .tlbelo1 => s.setMmu { m with tlbelo1 := take64 m.tlbelo1 eloMask v }
  | .asid => s.setMmu { m with asid := take32 m.asid (maskOf 0 Config.asidBits) v }
  | .pgdl => s.setMmu { m with pgdl := take64 m.pgdl 0xFFFFFFFFFFFFF000#64 v }
  | .pgdh => s.setMmu { m with pgdh := take64 m.pgdh 0xFFFFFFFFFFFFF000#64 v }
  | .pgd => s
  | .pwcl => s.setMmu { m with pwcl := low32 v }
  | .pwch => s.setMmu { m with pwch := take32 m.pwch 0x00FFFFFF#32 v }
  | .stlbps => s.setMmu { m with stlbps := take32 m.stlbps 0x3F#32 v }
  | .rvacfg => s.setBasic { b with rvacfg := take32 b.rvacfg 0xF#32 v }
  | .cpuid => s
  | .prcfg1 => s
  | .prcfg2 => s
  | .prcfg3 => s
  | .save i => s.setBasic { b with save := b.save.set i v }
  | .tid => s.setTimer { s.csr.timer with tid := low32 v }
  | .tcfg => s.setTimer (s.csr.timer.writeTcfg v)
  | .tval => s
  | .cntc => s.setTimer { s.csr.timer with cntc := v }
  | .ticlr => s.writeTiclr v
  | .llbctl => s.writeLlbctl v
  | .tlbrentry => s.setRefill { r with entry := take64 r.entry entryMask v }
  | .tlbrbadv => s.setRefill { r with badv := v }
  | .tlbrera => s.setRefill { r with era := take64 r.era 0xFFFFFFFFFFFFFFFD#64 v }
  | .tlbrsave => s.setRefill { r with save := v }
  | .tlbrelo0 => s.setRefill { r with elo0 := take64 r.elo0 eloMask v }
  | .tlbrelo1 => s.setRefill { r with elo1 := take64 r.elo1 eloMask v }
  | .tlbrehi => s.setRefill { r with ehi := withBits (vppnImage v) 0 (bits v 0 6) }
  | .tlbrprmd => s.setRefill { r with prmd := take32 r.prmd 0x17#32 v }
  | .merrctl => s.setMerr { e with ctl := take32 e.ctl 0x1FDE#32 v }
  | .merrinfo1 => s
  | .merrinfo2 => s
  | .merrentry => s.setMerr { e with entry := take64 e.entry entryMask v }
  | .merrera => s.setMerr { e with era := v }
  | .merrsave => s.setMerr { e with save := v }
  | .ctag => s.setBasic { b with ctag := v }
  | .dmw i => s.setMmu { m with dmw := m.dmw.set i (take64 m.dmw[i] 0xF00000000000003F#64 v) }
  | .pmcfg i => s.setPerf { s.csr.perf with cfg := s.csr.perf.cfg.set i (take32 s.csr.perf.cfg[i] 0x001F03FF#32 v) }
  | .pmcnt i => s.setPerf { s.csr.perf with cnt := s.csr.perf.cnt.set i (take64 s.csr.perf.cnt[i] (maskOf 0 Config.pmBits) v) }
  | .mwpc => s
  | .mwps => s.setWatch { s.csr.watch with mwps := takeWatchStatus Config.mwpNum s.csr.watch.mwps v }
  | .mwpcfg1 i => s.setMwp i fun w => { w with cfg1 := v }
  | .mwpcfg2 i => s.setMwp i fun w => { w with cfg2 := v }
  | .mwpcfg3 i => s.setMwp i fun w => { w with cfg3 := take32 w.cfg3 (s.cfg3Mask 0xF9E#32) v }
  | .mwpcfg4 i => s.setMwp i fun w => { w with cfg4 := take32 w.cfg4 (maskOf 0 Config.asidBits) v }
  | .fwpc => s
  | .fwps => s.setWatch { s.csr.watch with fwps := takeWatchStatus Config.fwpNum s.csr.watch.fwps v }
  | .fwpcfg1 i => s.setFwp i fun w => { w with cfg1 := v }
  | .fwpcfg2 i => s.setFwp i fun w => { w with cfg2 := v }
  | .fwpcfg3 i => s.setFwp i fun w => { w with cfg3 := take32 w.cfg3 (s.cfg3Mask 0x9E#32) v }
  | .fwpcfg4 i => s.setFwp i fun w => { w with cfg4 := take32 w.cfg4 (maskOf 0 Config.asidBits) v }
  | .dbg => s
  | .dera => s.setDebug { s.csr.dbgRegs with dera := v }
  | .dsave => s.setDebug { s.csr.dbgRegs with dsave := v }
  | .msgis i => s.setMsg { s.csr.msg with msgis := withBits s.csr.msg.msgis (64 * i.val) v }
  | .msgir => s
  | .msgie => s.setMsg { s.csr.msg with pt := v.setWidth 8 }

/-- Reading MSGIR clears the message it names (R886); no other read has an effect (R813). -/
def State.csrReadEffect (s : State) (c : CsrId) : State :=
  match c, s.msgSel with
  | .msgir, some k => s.setMsg { s.csr.msg with msgis := withBit s.csr.msg.msgis k false }
  | _, _ => s

/-- The value of a CSR read by number: any value for a number with no register (R43, C30; log 18). -/
def State.csrValue (s : State) (num : BitVec 14) : Word :=
  match csrId num with
  | some c => s.csrRead c
  | none => s.free

/-- The state after a CSR read by number. -/
def State.afterCsrRead (s : State) (num : BitVec 14) : State :=
  match csrId num with
  | some c => s.csrReadEffect c
  | none => s.drawn

/-- A CSR written by number: a number with no register changes nothing (R43). -/
def State.csrOffer (s : State) (num : BitVec 14) (v : Word) : State :=
  match csrId num with
  | some c => s.csrWrite c v
  | none => s

/-- The write-1-to-clear bits of a register (10_state.md R41; 13 R181, R187). -/
def CsrId.clearBits : CsrId → Word
  | .mwps => maskOf 0 Config.mwpNum
  | .fwps => maskOf 0 Config.fwpNum
  | _ => 0

/-- What CSRXCHG offers: the masked bits of `v`, the others as they are; a write-1-to-clear bit outside the mask is
offered 0, so that it remains unchanged (49_privileged.md R815). -/
def xchgOffer (num : BitVec 14) (old mask v : Word) : Word :=
  (old &&& ~~~mask &&& ~~~((csrId num).elim 0 CsrId.clearBits)) ||| (v &&& mask)

/-- The number is an implemented performance counter (49_privileged.md R811). -/
def isPmcnt (num : BitVec 14) : Bool :=
  match csrId num with
  | some (.pmcnt _) => true
  | _ => false

/-- CSRRD may read the counter below PLV0 where MISC.RPCNTL of the level says so (49_privileged.md R811). -/
def State.counterReadable (s : State) (num : BitVec 14) : Bool :=
  s.plv != 0 && isPmcnt num && s.csr.basic.misc.getLsbD (8 + s.plv.toNat)

end Sys2Proof.Machine
end

