-- ==== Sys2Proof/Machine/Iocsr.lean ====
section
/-! DEFINITION. The IOCSR space (49_privileged.md R816; 20_memory.md R223): the bytes of the registers that the
platform has, in rising order of address. -/

namespace Sys2Proof.Machine

/-- The byte at an IOCSR address, if a register has it. -/
def cellFind : List Host.Cell → Nat → Option Byte
  | [], _ => none
  | (a, b) :: l, x => if x = a then some b else cellFind l x

/-- The platform gives a register byte a value, in rising order of address. -/
def cellSet : List Host.Cell → Nat → Byte → List Host.Cell
  | [], x, b => [(x, b)]
  | (a, c) :: l, x, b =>
    if x < a then (x, b) :: (a, c) :: l else if x = a then (x, b) :: l else (a, c) :: cellSet l x b

/-- Addresses strictly rise from `lo` on. -/
def cellsRise : Nat → List Host.Cell → Bool
  | _, [] => true
  | lo, (a, _) :: l => decide (lo ≤ a) && cellsRise (a + 1) l

/-- The addresses of the `n` bytes at IOCSR address `a`, of which `Config.iocsrAddrBits` bits are significant. -/
def iocsrAddrs (a : Word) (n : Nat) : List Nat :=
  (List.range n).map fun i => (a.toNat + i) % 2 ^ Config.iocsrAddrBits

/-- The little-endian value at the addresses; a byte that no register has is any value, and so is all of an unaligned
access (R816, #29, #61; log 19, 69). -/
def State.iocsrLoad (s : State) (aligned : Bool) (free : Word) : List Nat → Word
  | [] => 0
  | a :: as =>
    (s.iocsrLoad aligned (free >>> 8) as <<< 8) |||
      (if aligned then (cellFind s.iocsr a).getD (free.setWidth 8) else free.setWidth 8).setWidth 64

/-- A store to the registers that exist; a byte that no register has takes nothing (R816, #29; log 19). -/
def iocsrStore (l : List Host.Cell) : List Nat → Word → List Host.Cell
  | [], _ => l
  | a :: as, v =>
    iocsrStore (if (cellFind l a).isSome then cellSet l a (v.setWidth 8) else l) as (v >>> 8)

end Sys2Proof.Machine
end

