-- ==== Sys2Proof/Machine/Tlb.lean ====
section
/-! DEFINITION. The TLB as the TLB instructions see it: placement, the entry image, search and invalidation
(49_privileged.md R830 to R838). -/

namespace Sys2Proof.Machine

/-- The entry at an index, if it exists. -/
def tlbAt : List (Nat × TlbEntry) → Nat → Option TlbEntry
  | [], _ => none
  | (j, e) :: t, i => if i = j then some e else tlbAt t i

/-- The TLB with the entry at an index written: `none` writes an entry with E = 0. -/
def tlbPut : List (Nat × TlbEntry) → Nat → Option TlbEntry → List (Nat × TlbEntry)
  | [], _, none => []
  | [], i, some e => [(i, e)]
  | (j, d) :: t, i, o =>
    if i < j then (match o with
      | none => (j, d) :: t
      | some e => (i, e) :: (j, d) :: t)
    else if i = j then (match o with
      | none => t
      | some e => (i, e) :: t)
    else (j, d) :: tlbPut t i o

/-- Indexes strictly rise from `lo` on and stay within the TLB, and an STLB entry stores no page size (R260, R830). -/
def tlbWfFrom : Nat → List (Nat × TlbEntry) → Bool
  | _, [] => true
  | lo, (i, e) :: t =>
    decide (lo ≤ i) && decide (i < Config.tlbEntries) && (!isStlb i || e.ps == 0#6) && tlbWfFrom (i + 1) t

/-- The form in which the TLB is held. -/
def tlbWf (t : List (Nat × TlbEntry)) : Bool := tlbWfFrom 0 t

/-- TLBIDX.Index (12_csr_mmu.md R110). -/
def State.tlbIndex (s : State) : Nat := (bits s.csr.mmu.tlbidx 0 Config.tlbIndexBits).toNat

/-- The page number register of the context: TLBREHI in the refill context, else TLBEHI (R830). -/
def State.ehi (s : State) : Word := if s.isTlbr then s.csr.refill.ehi else s.csr.mmu.tlbehi

/-- TLBRELO0 or TLBELO0 (R830). -/
def State.elo0 (s : State) : Word := if s.isTlbr then s.csr.refill.elo0 else s.csr.mmu.tlbelo0

/-- TLBRELO1 or TLBELO1 (R830). -/
def State.elo1 (s : State) : Word := if s.isTlbr then s.csr.refill.elo1 else s.csr.mmu.tlbelo1

/-- The page size written: TLBREHI.PS or TLBIDX.PS (R830). -/
def State.newPs (s : State) : BitVec 6 := if s.isTlbr then bits s.csr.refill.ehi 0 6 else bits s.csr.mmu.tlbidx 24 6

/-- The E bit written: 1 in the refill context, else not TLBIDX.NE (R837). -/
def State.newExists (s : State) : Bool := s.isTlbr || !s.csr.mmu.tlbidx.getLsbD 31

/-- A page as TLBELO or TLBRELO holds it (12_csr_mmu.md R112). -/
def pageOfElo (w : Word) : TlbPage where
  v := w.getLsbD 0
  d := w.getLsbD 1
  plv := bits w 2 2
  mat := bits w 4 2
  ppn := bits w 12 Config.ppnBits
  nr := w.getLsbD 61
  nx := w.getLsbD 62
  rplv := w.getLsbD 63

/-- TLBELO as TLBRD writes it from a page and the entry's G (R832, 12_csr_mmu.md R113). -/
def eloOfPage (p : TlbPage) (g : Bool) : Word :=
  BitVec.ofBool p.rplv ++ BitVec.ofBool p.nx ++ BitVec.ofBool p.nr ++ 0#(61 - Config.palen) ++ p.ppn ++ 0#5 ++ BitVec.ofBool g ++
    p.mat ++ p.plv ++ BitVec.ofBool p.d ++ BitVec.ofBool p.v

/-- The entry image that TLBWR and TLBFILL write; in the STLB no page size is stored (R837, R260). -/
def State.newEntry (s : State) (stlb : Bool) : TlbEntry where
  asid := s.asid
  g := s.elo0.getLsbD 6 && s.elo1.getLsbD 6
  ps := if stlb then 0 else s.newPs
  vppn := bits s.ehi 13 Config.vppnBits
  page0 := pageOfElo s.elo0
  page1 := pageOfElo s.elo1

/-- The written entry, or none where E = 0 is written. -/
def State.newTlb (s : State) (stlb : Bool) : Option TlbEntry := if s.newExists then some (s.newEntry stlb) else none

/-- `stlb_idx`: the STLB set of the page number written, `va[PS+7:PS]` (21_address_translation.md R261).  Bit PS is the one
that the page number register holds; with PS = 12 that is va[12], which VPPN does not hold and the spec gives no value: it
is `va12`, either bit (log 39). -/
def State.stlbSetOf (s : State) (va12 : Bool) : Nat :=
  ((bits s.ehi 13 Config.vppnBits ++ (BitVec.ofBool va12 ++ 0#12)) >>> s.stlbPs.toNat).toNat % Config.stlbSets

/-- An STLB index conflicts with what is written: another page size, or a set that the page number has for no value of
va[12] (R834, #17; log 39). -/
def State.stlbConflicts (s : State) (i : Nat) : Bool :=
  s.newPs != s.stlbPs || (i % Config.stlbSets != s.stlbSetOf false && i % Config.stlbSets != s.stlbSetOf true)

/-- An existing entry must have a page size that PRCFG2 supports (R120, #43; log 44). -/
def State.newPsBad (s : State) : Bool := s.newExists && !pageSizeOk s.newPs.toNat

/-- Where TLBFILL puts the entry: some way of its STLB set, for some value of va[12] (log 39), or some MTLB entry (R833,
#12; log 29). -/
def State.fillIndex (s : State) (pick : Nat) : Nat :=
  if s.newPs = s.stlbPs then
    (pick % Config.stlbWays) * Config.stlbSets + s.stlbSetOf (decide (pick / Config.stlbWays % 2 = 1))
  else Config.stlbEntries + pick % Config.mtlbEntries

/-- TLBIDX after TLBSRCH: Index and NE = 0 on a hit, NE = 1 on a miss (R831). -/
def searchIdx (idx : BitVec 32) (hit : Option Nat) : BitVec 32 :=
  match hit with
  | some i => withBit (withBits idx 0 (BitVec.ofNat Config.tlbIndexBits i)) 31 false
  | none => withBit idx 31 true

/-- The registers after TLBRD of an existing entry (R832). -/
def MmuCsrs.afterRead (m : MmuCsrs) (e : TlbEntry) (ps : BitVec 6) : MmuCsrs :=
  { m with
    tlbehi := (e.vppn ++ 0#13).signExtend 64
    tlbelo0 := eloOfPage e.page0 e.g
    tlbelo1 := eloOfPage e.page1 e.g
    tlbidx := withBit (withBits m.tlbidx 24 ps) 31 false
    asid := withBits m.asid 0 e.asid }

/-- The registers after TLBRD of an entry with E = 0; ASID is any value (R832, #56; log 22). -/
def MmuCsrs.afterReadNone (m : MmuCsrs) (asid : BitVec Config.asidBits) : MmuCsrs :=
  { m with
    tlbehi := 0
    tlbelo0 := 0
    tlbelo1 := 0
    tlbidx := withBit (withBits m.tlbidx 24 0#6) 31 true
    asid := withBits m.asid 0 asid }

/-- TLBCLR and TLBFLUSH act on the MTLB, or on the STLB set of the index (R835, R836). -/
def State.inGroup (s : State) (e : Nat × TlbEntry) : Bool :=
  if isStlb s.tlbIndex then isStlb e.1 && e.1 % Config.stlbSets == s.tlbIndex % Config.stlbSets else !isStlb e.1

/-- The entries whose condition holds are invalidated: they exist no more. -/
def State.invalidate (s : State) (c : Nat × TlbEntry → Bool) : State := s.setTlb (s.tlb.filter fun e => !c e)

/-- The condition of INVTLB's op 0 to 6 (R838); none for an op that is not defined. -/
def State.invCond (s : State) (op : BitVec 5) (asid : BitVec Config.asidBits) (va : Word) : Option (Nat × TlbEntry → Bool) :=
  match op.toNat with
  | 0 => some fun _ => true
  | 1 => some fun _ => true
  | 2 => some fun e => e.2.g
  | 3 => some fun e => !e.2.g
  | 4 => some fun e => !e.2.g && e.2.asid == asid
  | 5 => some fun e => !e.2.g && e.2.asid == asid && vaMatch e.2.vppn (s.entryPs e) va
  | 6 => some fun e => (e.2.g || e.2.asid == asid) && vaMatch e.2.vppn (s.entryPs e) va
  | _ => none

/-- INVTLB's op compares page numbers, under the page size of each entry (R838). -/
def invUsesSize (op : BitVec 5) : Bool := op == 5 || op == 6

end Sys2Proof.Machine
end

