-- ==== Sys2Proof/Machine/Privileged.lean ====
section
/-! DEFINITION. The privileged instructions: CSR and IOCSR access, cache and TLB maintenance, the software page walk,
exception return, debug call, idle (49_privileged.md). -/

namespace Sys2Proof.Machine

/-! ## CSR access -/

/-- `csrrd`, R813; below PLV0 only a performance counter that MISC.RPCNTL opens (R811). -/
def execCsrrd (rd : Reg) (csr : BitVec 14) (s : State) : Out :=
  if s.plv = 0 ∨ s.counterReadable csr then .next ((s.afterCsrRead csr).retire rd (s.csrValue csr))
  else .next (s.raise .ipe)

/-- `csrwr`, R814: the old value is returned. -/
def execCsrwr (rd : Reg) (csr : BitVec 14) (s : State) : Out :=
  privileged s (.next (((s.afterCsrRead csr).csrOffer csr (s.x rd)).retire rd (s.csrValue csr)))

/-- `csrxchg`, R815: the bits of the mask in rj are written. -/
def execCsrxchg (rd rj : Reg) (csr : BitVec 14) (s : State) : Out :=
  privileged s
    (.next (((s.afterCsrRead csr).csrOffer csr (xchgOffer csr (s.csrValue csr) (s.x rj) (s.x rd))).retire rd
      (s.csrValue csr)))

/-! ## IOCSR access -/

/-- An IOCSR access: IPE, then ALE when alignment is checked at this level (R816). -/
def iocsrAccess (size : Nat) (rj : Reg) (s : State) (k : Bool → Out) : Out :=
  privileged s
    (if s.alignChecked .configured && (s.x rj).toNat % size != 0 then .next (s.raise (.ale (s.x rj)))
     else k ((s.x rj).toNat % size == 0))

/-- IOCSRRD: the value at `x[rj]`, extended (R816). -/
def iocsrRead (size : Nat) (ext : Word → Word) (rd rj : Reg) (s : State) : Out :=
  iocsrAccess size rj s fun aligned =>
    .next (s.drawn.retire rd (ext (s.iocsrLoad aligned s.free (iocsrAddrs (s.x rj) size))))

/-- IOCSRWR: the low bytes of `x[rd]` to `x[rj]`; an unaligned write has no effect (R816, #61; log 69). -/
def iocsrWrite (size : Nat) (rd rj : Reg) (s : State) : Out :=
  iocsrAccess size rj s fun aligned =>
    .next ({ s with
      iocsr := if aligned then iocsrStore s.iocsr (iocsrAddrs (s.x rj) size) (s.x rd) else s.iocsr } : State).advance

/-- `iocsrrd.b`, R816, R817. -/
def execIocsrrdB (rd rj : Reg) (s : State) : Out := iocsrRead 1 sextB rd rj s
/-- `iocsrrd.h`, R816, R818. -/
def execIocsrrdH (rd rj : Reg) (s : State) : Out := iocsrRead 2 sextH rd rj s
/-- `iocsrrd.w`, R816, R819. -/
def execIocsrrdW (rd rj : Reg) (s : State) : Out := iocsrRead 4 sextW rd rj s
/-- `iocsrrd.d`, R816, R820. -/
def execIocsrrdD (rd rj : Reg) (s : State) : Out := iocsrRead 8 id rd rj s
/-- `iocsrwr.b`, R816, R821. -/
def execIocsrwrB (rd rj : Reg) (s : State) : Out := iocsrWrite 1 rd rj s
/-- `iocsrwr.h`, R816, R822. -/
def execIocsrwrH (rd rj : Reg) (s : State) : Out := iocsrWrite 2 rd rj s
/-- `iocsrwr.w`, R816, R824. -/
def execIocsrwrW (rd rj : Reg) (s : State) : Out := iocsrWrite 4 rd rj s
/-- `iocsrwr.d`, R816, R825. -/
def execIocsrwrD (rd rj : Reg) (s : State) : Out := iocsrWrite 8 rd rj s

/-! ## Cache maintenance -/

/-- What CACOP does after the privilege check: a hit operation on a cache that is `named` makes the query `a`, a one-byte
load; nothing else is visible (R823, D41; log 55). -/
def cacheOp (named : Bool) (op : BitVec 5) (a : Access) (s : State) : Out :=
  if named && bits op 3 2 == 2#2 then access s a fun _ t => .next t.advance else .next s.advance

/-- `cacop`, R823: op[2:0] names the cache. -/
def execCacop (op : BitVec 5) (rj : Reg) (si12 : BitVec 12) (s : State) : Out :=
  privileged s (cacheOp (Config.cacheNamed (bits op 0 3)) op (s.cacopQuery (s.addrSi12 rj si12)) s)

/-! ## TLB maintenance -/

/-- `tlbsrch`, R831. -/
def execTlbsrch (s : State) : Out :=
  privileged s
    ((s.tlbFind ((bits s.ehi 13 Config.vppnBits ++ 0#13).setWidth 64)).run s fun hit =>
      .next (s.setMmu { s.csr.mmu with tlbidx := searchIdx s.csr.mmu.tlbidx (hit.map (·.1)) }).advance)

/-- `tlbrd`, R832: an index beyond the TLB has no behaviour (#16), nor has an unsupported page size (#43; log 44). -/
def execTlbrd (s : State) : Out :=
  privileged s
    (if Config.tlbEntries ≤ s.tlbIndex then .fault .tlbIndexOutOfRange
     else match tlbAt s.tlb s.tlbIndex with
      | some e =>
        if pageSizeOk (s.entryPs (s.tlbIndex, e)) then
          .next (s.setMmu (s.csr.mmu.afterRead e (BitVec.ofNat 6 (s.entryPs (s.tlbIndex, e))))).advance
        else .refused .pageSizeUnsupported
      | none => .next (s.setMmu (s.csr.mmu.afterReadNone (s.free.setWidth Config.asidBits))).drawn.advance)

/-- `tlbwr`, R834, R837: an index beyond the TLB, an STLB conflict and an unsupported page size, for an STLB index that of
STLBPS too, have no behaviour (#17, #43; log 44).  An MTLB index takes a page of the STLB's size too, which R261 leaves to the implementation: the model's
choice (log 77). -/
def execTlbwr (s : State) : Out :=
  privileged s
    (if Config.tlbEntries ≤ s.tlbIndex then .fault .tlbIndexOutOfRange
     else if isStlb s.tlbIndex && s.stlbPsBad then .refused .pageSizeUnsupported
     else if isStlb s.tlbIndex && s.stlbConflicts s.tlbIndex then .fault .stlbConflict
     else if s.newPsBad then .refused .pageSizeUnsupported
     else .next (s.setTlb (tlbPut s.tlb s.tlbIndex (s.newTlb (isStlb s.tlbIndex)))).advance)

/-- `tlbfill`, R833, R837: the hardware chooses the entry (#12; log 29).  It places by STLBPS.PS, so that an unsupported
size there has no behaviour, nor has one in an entry that exists (#43; log 44). -/
def execTlbfill (s : State) : Out :=
  privileged s
    (if s.stlbPsBad || s.newPsBad then .refused .pageSizeUnsupported
     else
      let i := s.fillIndex s.free.toNat
      .next (s.setTlb (tlbPut s.tlb i (s.newTlb (isStlb i)))).drawn.advance)

/-- `tlbclr`, R835: the non-global entries of the current ASID in the group of the index. -/
def execTlbclr (s : State) : Out :=
  privileged s (.next (s.invalidate fun e => s.inGroup e && !e.2.g && e.2.asid == s.asid).advance)

/-- `tlbflush`, R836: the entries in the group of the index. -/
def execTlbflush (s : State) : Out := privileged s (.next (s.invalidate s.inGroup).advance)

/-- `invtlb`, R838: an op above 6 raises INE; a comparison under an unsupported page size has no behaviour (#43;
log 44). -/
def execInvtlb (op : BitVec 5) (rj rk : Reg) (s : State) : Out :=
  privileged s
    (match s.invCond op (bits (s.x rj) 0 Config.asidBits) (s.x rk) with
     | some c =>
       if invUsesSize op && s.tlbSizesBad then .refused .pageSizeUnsupported else .next (s.invalidate c).advance
     | none => .next (s.raise .ine))

/-! ## The software page walk -/

/-- The bad virtual address of the current context (R840). -/
def State.walkVa (s : State) : Word := if s.isTlbr then s.csr.refill.badv else s.csr.basic.badv

/-- Start bit and width of the index into a directory level; none where the level does not exist (R840;
21_address_translation.md R280). -/
def State.dirFields (s : State) (level : BitVec 8) : Option (Nat × Nat) :=
  let l := s.csr.mmu.pwcl
  let h := s.csr.mmu.pwch
  let f : Option (Nat × Nat) := match level.toNat with
    | 1 => some ((bits l 10 5).toNat, (bits l 15 5).toNat)
    | 2 => some ((bits l 20 5).toNat, (bits l 25 5).toNat)
    | 3 => some ((bits h 0 6).toNat, (bits h 6 6).toNat)
    | 4 => some ((bits h 12 6).toNat, (bits h 18 6).toNat)
    | _ => none
  f.filter fun p => p.2 != 0

/-- `(va >> base) & (2^width - 1)` (R280). -/
def tableIndex (va : Word) (base width : Nat) : Word := (va >>> base) &&& ((1#64 <<< width) - 1#64)

/-- The byte offset of an entry: 8, 16, 24 or 32 bytes each, by PWCL.PTEWidth (R280, R840). -/
def State.entryOffset (s : State) (idx : Word) : Word :=
  idx * BitVec.ofNat 64 (8 * ((bits s.csr.mmu.pwcl 30 2).toNat + 1))

/-- `lddir`, R840: a huge page entry is passed on; else the entry of the level's directory is loaded.  A level that does
not exist leaves any value (#50; log 30). -/
def execLddir (rd rj : Reg) (level : BitVec 8) (s : State) : Out :=
  privileged s
    (if (s.x rj).getLsbD 6 then .next (s.retire rd (s.x rj))
     else match s.dirFields level with
      | none => .next (s.retireAny rd)
      | some (base, width) =>
        loadX s (s.walkLoad (s.x rj + s.entryOffset (tableIndex s.walkVa base width))) rd id)

/-- The index of the even or odd page of the pair in the last-level table (R841). -/
def State.pteIndex (s : State) (odd : Bool) : Word :=
  withBit (tableIndex s.walkVa (bits s.csr.mmu.pwcl 0 5).toNat (bits s.csr.mmu.pwcl 5 5).toNat) 0 odd

/-- The TLBRELO image of a common page: P, W and the undefined bits are dropped (R842). -/
def commonToElo (pte : Word) : Word := pte &&& eloMask

/-- The physical base of the lower or upper half of a huge page of 2^S bytes, at bits PALEN-1:12 (R842). -/
def hugeHalf (h : Word) (size : Nat) (odd : Bool) : Word :=
  ((h >>> size) <<< size) ||| (if odd then (1#64 <<< size) >>> 1 else 0)

/-- The TLBRELO image of half of a huge page with this base: G moves from bit 12 to bit 6 (R842). -/
def hugeToElo (h base : Word) : Word :=
  withBit ((h &&& 0xE00000000000003F#64) ||| (base &&& entryMask)) 6 (h.getLsbD 12)

/-- LDPTE's result: TLBRELO0 or TLBRELO1, and TLBREHI.PS (R841, R842, D43; log 56). -/
def State.putPte (s : State) (odd : Bool) (image : Word) (ps : BitVec 6) : State :=
  let r := s.csr.refill
  s.setRefill
    { r with
      elo0 := if odd then r.elo0 else image
      elo1 := if odd then image else r.elo1
      ehi := withBits r.ehi 0 ps }

/-- `ldpte`, R841: only bit 0 of seq is used.  A huge page of 2^0 bytes (PWCL.Dir1_base = 0) has no halves, and R842's S - 1
and odd << (S - 1) no meaning: TLBREHI.PS and the page number of the upper half are any value (log 56). -/
def execLdpte (rj : Reg) (seq : BitVec 8) (s : State) : Out :=
  let odd := seq.getLsbD 0
  privileged s
    (if (s.x rj).getLsbD 6 then
      let h := s.x rj
      let size := bits s.csr.mmu.pwcl 10 5
      if size = 0 then .next (s.drawn.putPte odd (hugeToElo h (if odd then s.free else h)) (bits s.free 0 6)).advance
      else .next (s.putPte odd (hugeToElo h (hugeHalf h size.toNat odd)) (size.setWidth 6 - 1)).advance
     else access s (s.walkLoad (s.x rj + s.entryOffset (s.pteIndex odd))) fun ps t =>
      .next (t.putPte odd (commonToElo (t.loadBytes (physAddrs ps))) ((bits s.csr.mmu.pwcl 0 5).setWidth 6)).advance)

/-! ## Return, debug call, idle -/

/-- `ertn`, R845. -/
def execErtn (s : State) : Out := privileged s (.next s.returnFrom)

/-- `dbcl`, R848: debug mode is entered (log 37). -/
def execDbcl (_code : BitVec 15) (s : State) : Out := privileged s (.next (s.raise .dbcl))

/-- `idle`, R849: the core waits, its pc at the next instruction. -/
def execIdle (_hint : BitVec 15) (s : State) : Out := privileged s (.next { s.advance with waiting := true })

end Sys2Proof.Machine
end

