-- ==== Sys2Proof/Machine/Dispatch.lean ====
section
/-! DEFINITION. Dispatch: each instruction to its meaning, one arm per row of spec/opcode_table.json. -/

namespace Sys2Proof.Machine

def exec (i : Instr) (s : State) : Host.Outcome State Fault Refusal :=
  match i with
  | .cloW rd rj => Sys2Proof.Machine.execCloW rd rj s
  | .clzW rd rj => Sys2Proof.Machine.execClzW rd rj s
  | .ctoW rd rj => Sys2Proof.Machine.execCtoW rd rj s
  | .ctzW rd rj => Sys2Proof.Machine.execCtzW rd rj s
  | .cloD rd rj => Sys2Proof.Machine.execCloD rd rj s
  | .clzD rd rj => Sys2Proof.Machine.execClzD rd rj s
  | .ctoD rd rj => Sys2Proof.Machine.execCtoD rd rj s
  | .ctzD rd rj => Sys2Proof.Machine.execCtzD rd rj s
  | .revb2H rd rj => Sys2Proof.Machine.execRevb2H rd rj s
  | .revb4H rd rj => Sys2Proof.Machine.execRevb4H rd rj s
  | .revb2W rd rj => Sys2Proof.Machine.execRevb2W rd rj s
  | .revbD rd rj => Sys2Proof.Machine.execRevbD rd rj s
  | .revh2W rd rj => Sys2Proof.Machine.execRevh2W rd rj s
  | .revhD rd rj => Sys2Proof.Machine.execRevhD rd rj s
  | .bitrev4B rd rj => Sys2Proof.Machine.execBitrev4B rd rj s
  | .bitrev8B rd rj => Sys2Proof.Machine.execBitrev8B rd rj s
  | .bitrevW rd rj => Sys2Proof.Machine.execBitrevW rd rj s
  | .bitrevD rd rj => Sys2Proof.Machine.execBitrevD rd rj s
  | .extWH rd rj => Sys2Proof.Machine.execExtWH rd rj s
  | .extWB rd rj => Sys2Proof.Machine.execExtWB rd rj s
  | .rdtimelW rd rj => Sys2Proof.Machine.execRdtimelW rd rj s
  | .rdtimehW rd rj => Sys2Proof.Machine.execRdtimehW rd rj s
  | .rdtimeD rd rj => Sys2Proof.Machine.execRdtimeD rd rj s
  | .cpucfg rd rj => Sys2Proof.Machine.execCpucfg rd rj s
  | .asrtleD rj rk => Sys2Proof.Machine.execAsrtleD rj rk s
  | .asrtgtD rj rk => Sys2Proof.Machine.execAsrtgtD rj rk s
  | .alslW rd rj rk sa2 => Sys2Proof.Machine.execAlslW rd rj rk sa2 s
  | .alslWu rd rj rk sa2 => Sys2Proof.Machine.execAlslWu rd rj rk sa2 s
  | .bytepickW rd rj rk sa2 => Sys2Proof.Machine.execBytepickW rd rj rk sa2 s
  | .bytepickD rd rj rk sa3 => Sys2Proof.Machine.execBytepickD rd rj rk sa3 s
  | .addW rd rj rk => Sys2Proof.Machine.execAddW rd rj rk s
  | .addD rd rj rk => Sys2Proof.Machine.execAddD rd rj rk s
  | .subW rd rj rk => Sys2Proof.Machine.execSubW rd rj rk s
  | .subD rd rj rk => Sys2Proof.Machine.execSubD rd rj rk s
  | .slt rd rj rk => Sys2Proof.Machine.execSlt rd rj rk s
  | .sltu rd rj rk => Sys2Proof.Machine.execSltu rd rj rk s
  | .maskeqz rd rj rk => Sys2Proof.Machine.execMaskeqz rd rj rk s
  | .masknez rd rj rk => Sys2Proof.Machine.execMasknez rd rj rk s
  | .nor rd rj rk => Sys2Proof.Machine.execNor rd rj rk s
  | .and rd rj rk => Sys2Proof.Machine.execAnd rd rj rk s
  | .or rd rj rk => Sys2Proof.Machine.execOr rd rj rk s
  | .xor rd rj rk => Sys2Proof.Machine.execXor rd rj rk s
  | .orn rd rj rk => Sys2Proof.Machine.execOrn rd rj rk s
  | .andn rd rj rk => Sys2Proof.Machine.execAndn rd rj rk s
  | .sllW rd rj rk => Sys2Proof.Machine.execSllW rd rj rk s
  | .srlW rd rj rk => Sys2Proof.Machine.execSrlW rd rj rk s
  | .sraW rd rj rk => Sys2Proof.Machine.execSraW rd rj rk s
  | .sllD rd rj rk => Sys2Proof.Machine.execSllD rd rj rk s
  | .srlD rd rj rk => Sys2Proof.Machine.execSrlD rd rj rk s
  | .sraD rd rj rk => Sys2Proof.Machine.execSraD rd rj rk s
  | .rotrW rd rj rk => Sys2Proof.Machine.execRotrW rd rj rk s
  | .rotrD rd rj rk => Sys2Proof.Machine.execRotrD rd rj rk s
  | .mulW rd rj rk => Sys2Proof.Machine.execMulW rd rj rk s
  | .mulhW rd rj rk => Sys2Proof.Machine.execMulhW rd rj rk s
  | .mulhWu rd rj rk => Sys2Proof.Machine.execMulhWu rd rj rk s
  | .mulD rd rj rk => Sys2Proof.Machine.execMulD rd rj rk s
  | .mulhD rd rj rk => Sys2Proof.Machine.execMulhD rd rj rk s
  | .mulhDu rd rj rk => Sys2Proof.Machine.execMulhDu rd rj rk s
  | .mulwDW rd rj rk => Sys2Proof.Machine.execMulwDW rd rj rk s
  | .mulwDWu rd rj rk => Sys2Proof.Machine.execMulwDWu rd rj rk s
  | .divW rd rj rk => Sys2Proof.Machine.execDivW rd rj rk s
  | .modW rd rj rk => Sys2Proof.Machine.execModW rd rj rk s
  | .divWu rd rj rk => Sys2Proof.Machine.execDivWu rd rj rk s
  | .modWu rd rj rk => Sys2Proof.Machine.execModWu rd rj rk s
  | .divD rd rj rk => Sys2Proof.Machine.execDivD rd rj rk s
  | .modD rd rj rk => Sys2Proof.Machine.execModD rd rj rk s
  | .divDu rd rj rk => Sys2Proof.Machine.execDivDu rd rj rk s
  | .modDu rd rj rk => Sys2Proof.Machine.execModDu rd rj rk s
  | .crcWBW rd rj rk => Sys2Proof.Machine.execCrcWBW rd rj rk s
  | .crcWHW rd rj rk => Sys2Proof.Machine.execCrcWHW rd rj rk s
  | .crcWWW rd rj rk => Sys2Proof.Machine.execCrcWWW rd rj rk s
  | .crcWDW rd rj rk => Sys2Proof.Machine.execCrcWDW rd rj rk s
  | .crccWBW rd rj rk => Sys2Proof.Machine.execCrccWBW rd rj rk s
  | .crccWHW rd rj rk => Sys2Proof.Machine.execCrccWHW rd rj rk s
  | .crccWWW rd rj rk => Sys2Proof.Machine.execCrccWWW rd rj rk s
  | .crccWDW rd rj rk => Sys2Proof.Machine.execCrccWDW rd rj rk s
  | .brk code => Sys2Proof.Machine.execBrk code s
  | .dbcl code => Sys2Proof.Machine.execDbcl code s
  | .syscall code => Sys2Proof.Machine.execSyscall code s
  | .alslD rd rj rk sa2 => Sys2Proof.Machine.execAlslD rd rj rk sa2 s
  | .slliW rd rj ui5 => Sys2Proof.Machine.execSlliW rd rj ui5 s
  | .slliD rd rj ui6 => Sys2Proof.Machine.execSlliD rd rj ui6 s
  | .srliW rd rj ui5 => Sys2Proof.Machine.execSrliW rd rj ui5 s
  | .srliD rd rj ui6 => Sys2Proof.Machine.execSrliD rd rj ui6 s
  | .sraiW rd rj ui5 => Sys2Proof.Machine.execSraiW rd rj ui5 s
  | .sraiD rd rj ui6 => Sys2Proof.Machine.execSraiD rd rj ui6 s
  | .rotriW rd rj ui5 => Sys2Proof.Machine.execRotriW rd rj ui5 s
  | .rotriD rd rj ui6 => Sys2Proof.Machine.execRotriD rd rj ui6 s
  | .bstrinsW rd rj msbw lsbw => Sys2Proof.Machine.execBstrinsW rd rj msbw lsbw s
  | .bstrpickW rd rj msbw lsbw => Sys2Proof.Machine.execBstrpickW rd rj msbw lsbw s
  | .bstrinsD rd rj msbd lsbd => Sys2Proof.Machine.execBstrinsD rd rj msbd lsbd s
  | .bstrpickD rd rj msbd lsbd => Sys2Proof.Machine.execBstrpickD rd rj msbd lsbd s
  | .faddS fd fj fk => Sys2Proof.Machine.execFaddS fd fj fk s
  | .faddD fd fj fk => Sys2Proof.Machine.execFaddD fd fj fk s
  | .fsubS fd fj fk => Sys2Proof.Machine.execFsubS fd fj fk s
  | .fsubD fd fj fk => Sys2Proof.Machine.execFsubD fd fj fk s
  | .fmulS fd fj fk => Sys2Proof.Machine.execFmulS fd fj fk s
  | .fmulD fd fj fk => Sys2Proof.Machine.execFmulD fd fj fk s
  | .fdivS fd fj fk => Sys2Proof.Machine.execFdivS fd fj fk s
  | .fdivD fd fj fk => Sys2Proof.Machine.execFdivD fd fj fk s
  | .fmaxS fd fj fk => Sys2Proof.Machine.execFmaxS fd fj fk s
  | .fmaxD fd fj fk => Sys2Proof.Machine.execFmaxD fd fj fk s
  | .fminS fd fj fk => Sys2Proof.Machine.execFminS fd fj fk s
  | .fminD fd fj fk => Sys2Proof.Machine.execFminD fd fj fk s
  | .fmaxaS fd fj fk => Sys2Proof.Machine.execFmaxaS fd fj fk s
  | .fmaxaD fd fj fk => Sys2Proof.Machine.execFmaxaD fd fj fk s
  | .fminaS fd fj fk => Sys2Proof.Machine.execFminaS fd fj fk s
  | .fminaD fd fj fk => Sys2Proof.Machine.execFminaD fd fj fk s
  | .fscalebS fd fj fk => Sys2Proof.Machine.execFscalebS fd fj fk s
  | .fscalebD fd fj fk => Sys2Proof.Machine.execFscalebD fd fj fk s
  | .fcopysignS fd fj fk => Sys2Proof.Machine.execFcopysignS fd fj fk s
  | .fcopysignD fd fj fk => Sys2Proof.Machine.execFcopysignD fd fj fk s
  | .fabsS fd fj => Sys2Proof.Machine.execFabsS fd fj s
  | .fabsD fd fj => Sys2Proof.Machine.execFabsD fd fj s
  | .fnegS fd fj => Sys2Proof.Machine.execFnegS fd fj s
  | .fnegD fd fj => Sys2Proof.Machine.execFnegD fd fj s
  | .flogbS fd fj => Sys2Proof.Machine.execFlogbS fd fj s
  | .flogbD fd fj => Sys2Proof.Machine.execFlogbD fd fj s
  | .fclassS fd fj => Sys2Proof.Machine.execFclassS fd fj s
  | .fclassD fd fj => Sys2Proof.Machine.execFclassD fd fj s
  | .fsqrtS fd fj => Sys2Proof.Machine.execFsqrtS fd fj s
  | .fsqrtD fd fj => Sys2Proof.Machine.execFsqrtD fd fj s
  | .frecipS fd fj => Sys2Proof.Machine.execFrecipS fd fj s
  | .frecipD fd fj => Sys2Proof.Machine.execFrecipD fd fj s
  | .frsqrtS fd fj => Sys2Proof.Machine.execFrsqrtS fd fj s
  | .frsqrtD fd fj => Sys2Proof.Machine.execFrsqrtD fd fj s
  | .frecipeS fd fj => Sys2Proof.Machine.execFrecipeS fd fj s
  | .frecipeD fd fj => Sys2Proof.Machine.execFrecipeD fd fj s
  | .frsqrteS fd fj => Sys2Proof.Machine.execFrsqrteS fd fj s
  | .frsqrteD fd fj => Sys2Proof.Machine.execFrsqrteD fd fj s
  | .fmovS fd fj => Sys2Proof.Machine.execFmovS fd fj s
  | .fmovD fd fj => Sys2Proof.Machine.execFmovD fd fj s
  | .movgr2frW fd rj => Sys2Proof.Machine.execMovgr2frW fd rj s
  | .movgr2frD fd rj => Sys2Proof.Machine.execMovgr2frD fd rj s
  | .movgr2frhW fd rj => Sys2Proof.Machine.execMovgr2frhW fd rj s
  | .movfr2grS rd fj => Sys2Proof.Machine.execMovfr2grS rd fj s
  | .movfr2grD rd fj => Sys2Proof.Machine.execMovfr2grD rd fj s
  | .movfrh2grS rd fj => Sys2Proof.Machine.execMovfrh2grS rd fj s
  | .movgr2fcsr fcsr rj => Sys2Proof.Machine.execMovgr2fcsr fcsr rj s
  | .movfcsr2gr rd fcsr => Sys2Proof.Machine.execMovfcsr2gr rd fcsr s
  | .movfr2cf cd fj => Sys2Proof.Machine.execMovfr2cf cd fj s
  | .movcf2fr fd cj => Sys2Proof.Machine.execMovcf2fr fd cj s
  | .movgr2cf cd rj => Sys2Proof.Machine.execMovgr2cf cd rj s
  | .movcf2gr rd cj => Sys2Proof.Machine.execMovcf2gr rd cj s
  | .fcvtSD fd fj => Sys2Proof.Machine.execFcvtSD fd fj s
  | .fcvtDS fd fj => Sys2Proof.Machine.execFcvtDS fd fj s
  | .ftintrmWS fd fj => Sys2Proof.Machine.execFtintrmWS fd fj s
  | .ftintrmWD fd fj => Sys2Proof.Machine.execFtintrmWD fd fj s
  | .ftintrmLS fd fj => Sys2Proof.Machine.execFtintrmLS fd fj s
  | .ftintrmLD fd fj => Sys2Proof.Machine.execFtintrmLD fd fj s
  | .ftintrpWS fd fj => Sys2Proof.Machine.execFtintrpWS fd fj s
  | .ftintrpWD fd fj => Sys2Proof.Machine.execFtintrpWD fd fj s
  | .ftintrpLS fd fj => Sys2Proof.Machine.execFtintrpLS fd fj s
  | .ftintrpLD fd fj => Sys2Proof.Machine.execFtintrpLD fd fj s
  | .ftintrzWS fd fj => Sys2Proof.Machine.execFtintrzWS fd fj s
  | .ftintrzWD fd fj => Sys2Proof.Machine.execFtintrzWD fd fj s
  | .ftintrzLS fd fj => Sys2Proof.Machine.execFtintrzLS fd fj s
  | .ftintrzLD fd fj => Sys2Proof.Machine.execFtintrzLD fd fj s
  | .ftintrneWS fd fj => Sys2Proof.Machine.execFtintrneWS fd fj s
  | .ftintrneWD fd fj => Sys2Proof.Machine.execFtintrneWD fd fj s
  | .ftintrneLS fd fj => Sys2Proof.Machine.execFtintrneLS fd fj s
  | .ftintrneLD fd fj => Sys2Proof.Machine.execFtintrneLD fd fj s
  | .ftintWS fd fj => Sys2Proof.Machine.execFtintWS fd fj s
  | .ftintWD fd fj => Sys2Proof.Machine.execFtintWD fd fj s
  | .ftintLS fd fj => Sys2Proof.Machine.execFtintLS fd fj s
  | .ftintLD fd fj => Sys2Proof.Machine.execFtintLD fd fj s
  | .ffintSW fd fj => Sys2Proof.Machine.execFfintSW fd fj s
  | .ffintSL fd fj => Sys2Proof.Machine.execFfintSL fd fj s
  | .ffintDW fd fj => Sys2Proof.Machine.execFfintDW fd fj s
  | .ffintDL fd fj => Sys2Proof.Machine.execFfintDL fd fj s
  | .frintS fd fj => Sys2Proof.Machine.execFrintS fd fj s
  | .frintD fd fj => Sys2Proof.Machine.execFrintD fd fj s
  | .slti rd rj si12 => Sys2Proof.Machine.execSlti rd rj si12 s
  | .sltui rd rj si12 => Sys2Proof.Machine.execSltui rd rj si12 s
  | .addiW rd rj si12 => Sys2Proof.Machine.execAddiW rd rj si12 s
  | .addiD rd rj si12 => Sys2Proof.Machine.execAddiD rd rj si12 s
  | .lu52iD rd rj si12 => Sys2Proof.Machine.execLu52iD rd rj si12 s
  | .andi rd rj ui12 => Sys2Proof.Machine.execAndi rd rj ui12 s
  | .ori rd rj ui12 => Sys2Proof.Machine.execOri rd rj ui12 s
  | .xori rd rj ui12 => Sys2Proof.Machine.execXori rd rj ui12 s
  | .csrrd rd csr => Sys2Proof.Machine.execCsrrd rd csr s
  | .csrwr rd csr => Sys2Proof.Machine.execCsrwr rd csr s
  | .csrxchg rd rj csr => Sys2Proof.Machine.execCsrxchg rd rj csr s
  | .cacop op rj si12 => Sys2Proof.Machine.execCacop op rj si12 s
  | .lddir rd rj level => Sys2Proof.Machine.execLddir rd rj level s
  | .ldpte rj seq => Sys2Proof.Machine.execLdpte rj seq s
  | .iocsrrdB rd rj => Sys2Proof.Machine.execIocsrrdB rd rj s
  | .iocsrrdH rd rj => Sys2Proof.Machine.execIocsrrdH rd rj s
  | .iocsrrdW rd rj => Sys2Proof.Machine.execIocsrrdW rd rj s
  | .iocsrrdD rd rj => Sys2Proof.Machine.execIocsrrdD rd rj s
  | .iocsrwrB rd rj => Sys2Proof.Machine.execIocsrwrB rd rj s
  | .iocsrwrH rd rj => Sys2Proof.Machine.execIocsrwrH rd rj s
  | .iocsrwrW rd rj => Sys2Proof.Machine.execIocsrwrW rd rj s
  | .iocsrwrD rd rj => Sys2Proof.Machine.execIocsrwrD rd rj s
  | .tlbclr => Sys2Proof.Machine.execTlbclr s
  | .tlbflush => Sys2Proof.Machine.execTlbflush s
  | .tlbsrch => Sys2Proof.Machine.execTlbsrch s
  | .tlbrd => Sys2Proof.Machine.execTlbrd s
  | .tlbwr => Sys2Proof.Machine.execTlbwr s
  | .tlbfill => Sys2Proof.Machine.execTlbfill s
  | .ertn => Sys2Proof.Machine.execErtn s
  | .idle hint => Sys2Proof.Machine.execIdle hint s
  | .invtlb op rj rk => Sys2Proof.Machine.execInvtlb op rj rk s
  | .fmaddS fd fj fk fa => Sys2Proof.Machine.execFmaddS fd fj fk fa s
  | .fmaddD fd fj fk fa => Sys2Proof.Machine.execFmaddD fd fj fk fa s
  | .fmsubS fd fj fk fa => Sys2Proof.Machine.execFmsubS fd fj fk fa s
  | .fmsubD fd fj fk fa => Sys2Proof.Machine.execFmsubD fd fj fk fa s
  | .fnmaddS fd fj fk fa => Sys2Proof.Machine.execFnmaddS fd fj fk fa s
  | .fnmaddD fd fj fk fa => Sys2Proof.Machine.execFnmaddD fd fj fk fa s
  | .fnmsubS fd fj fk fa => Sys2Proof.Machine.execFnmsubS fd fj fk fa s
  | .fnmsubD fd fj fk fa => Sys2Proof.Machine.execFnmsubD fd fj fk fa s
  | .fcmpCafS cd fj fk => Sys2Proof.Machine.execFcmpCafS cd fj fk s
  | .fcmpSafS cd fj fk => Sys2Proof.Machine.execFcmpSafS cd fj fk s
  | .fcmpCltS cd fj fk => Sys2Proof.Machine.execFcmpCltS cd fj fk s
  | .fcmpSltS cd fj fk => Sys2Proof.Machine.execFcmpSltS cd fj fk s
  | .fcmpCeqS cd fj fk => Sys2Proof.Machine.execFcmpCeqS cd fj fk s
  | .fcmpSeqS cd fj fk => Sys2Proof.Machine.execFcmpSeqS cd fj fk s
  | .fcmpCleS cd fj fk => Sys2Proof.Machine.execFcmpCleS cd fj fk s
  | .fcmpSleS cd fj fk => Sys2Proof.Machine.execFcmpSleS cd fj fk s
  | .fcmpCunS cd fj fk => Sys2Proof.Machine.execFcmpCunS cd fj fk s
  | .fcmpSunS cd fj fk => Sys2Proof.Machine.execFcmpSunS cd fj fk s
  | .fcmpCultS cd fj fk => Sys2Proof.Machine.execFcmpCultS cd fj fk s
  | .fcmpSultS cd fj fk => Sys2Proof.Machine.execFcmpSultS cd fj fk s
  | .fcmpCueqS cd fj fk => Sys2Proof.Machine.execFcmpCueqS cd fj fk s
  | .fcmpSueqS cd fj fk => Sys2Proof.Machine.execFcmpSueqS cd fj fk s
  | .fcmpCuleS cd fj fk => Sys2Proof.Machine.execFcmpCuleS cd fj fk s
  | .fcmpSuleS cd fj fk => Sys2Proof.Machine.execFcmpSuleS cd fj fk s
  | .fcmpCneS cd fj fk => Sys2Proof.Machine.execFcmpCneS cd fj fk s
  | .fcmpSneS cd fj fk => Sys2Proof.Machine.execFcmpSneS cd fj fk s
  | .fcmpCorS cd fj fk => Sys2Proof.Machine.execFcmpCorS cd fj fk s
  | .fcmpSorS cd fj fk => Sys2Proof.Machine.execFcmpSorS cd fj fk s
  | .fcmpCuneS cd fj fk => Sys2Proof.Machine.execFcmpCuneS cd fj fk s
  | .fcmpSuneS cd fj fk => Sys2Proof.Machine.execFcmpSuneS cd fj fk s
  | .fcmpCafD cd fj fk => Sys2Proof.Machine.execFcmpCafD cd fj fk s
  | .fcmpSafD cd fj fk => Sys2Proof.Machine.execFcmpSafD cd fj fk s
  | .fcmpCltD cd fj fk => Sys2Proof.Machine.execFcmpCltD cd fj fk s
  | .fcmpSltD cd fj fk => Sys2Proof.Machine.execFcmpSltD cd fj fk s
  | .fcmpCeqD cd fj fk => Sys2Proof.Machine.execFcmpCeqD cd fj fk s
  | .fcmpSeqD cd fj fk => Sys2Proof.Machine.execFcmpSeqD cd fj fk s
  | .fcmpCleD cd fj fk => Sys2Proof.Machine.execFcmpCleD cd fj fk s
  | .fcmpSleD cd fj fk => Sys2Proof.Machine.execFcmpSleD cd fj fk s
  | .fcmpCunD cd fj fk => Sys2Proof.Machine.execFcmpCunD cd fj fk s
  | .fcmpSunD cd fj fk => Sys2Proof.Machine.execFcmpSunD cd fj fk s
  | .fcmpCultD cd fj fk => Sys2Proof.Machine.execFcmpCultD cd fj fk s
  | .fcmpSultD cd fj fk => Sys2Proof.Machine.execFcmpSultD cd fj fk s
  | .fcmpCueqD cd fj fk => Sys2Proof.Machine.execFcmpCueqD cd fj fk s
  | .fcmpSueqD cd fj fk => Sys2Proof.Machine.execFcmpSueqD cd fj fk s
  | .fcmpCuleD cd fj fk => Sys2Proof.Machine.execFcmpCuleD cd fj fk s
  | .fcmpSuleD cd fj fk => Sys2Proof.Machine.execFcmpSuleD cd fj fk s
  | .fcmpCneD cd fj fk => Sys2Proof.Machine.execFcmpCneD cd fj fk s
  | .fcmpSneD cd fj fk => Sys2Proof.Machine.execFcmpSneD cd fj fk s
  | .fcmpCorD cd fj fk => Sys2Proof.Machine.execFcmpCorD cd fj fk s
  | .fcmpSorD cd fj fk => Sys2Proof.Machine.execFcmpSorD cd fj fk s
  | .fcmpCuneD cd fj fk => Sys2Proof.Machine.execFcmpCuneD cd fj fk s
  | .fcmpSuneD cd fj fk => Sys2Proof.Machine.execFcmpSuneD cd fj fk s
  | .fsel fd fj fk ca => Sys2Proof.Machine.execFsel fd fj fk ca s
  | .addu16iD rd rj si16 => Sys2Proof.Machine.execAddu16iD rd rj si16 s
  | .lu12iW rd si20 => Sys2Proof.Machine.execLu12iW rd si20 s
  | .lu32iD rd si20 => Sys2Proof.Machine.execLu32iD rd si20 s
  | .pcaddi rd si20 => Sys2Proof.Machine.execPcaddi rd si20 s
  | .pcalau12i rd si20 => Sys2Proof.Machine.execPcalau12i rd si20 s
  | .pcaddu12i rd si20 => Sys2Proof.Machine.execPcaddu12i rd si20 s
  | .pcaddu18i rd si20 => Sys2Proof.Machine.execPcaddu18i rd si20 s
  | .llW rd rj si14 => Sys2Proof.Machine.execLlW rd rj si14 s
  | .scW rd rj si14 => Sys2Proof.Machine.execScW rd rj si14 s
  | .llD rd rj si14 => Sys2Proof.Machine.execLlD rd rj si14 s
  | .scD rd rj si14 => Sys2Proof.Machine.execScD rd rj si14 s
  | .ldptrW rd rj si14 => Sys2Proof.Machine.execLdptrW rd rj si14 s
  | .stptrW rd rj si14 => Sys2Proof.Machine.execStptrW rd rj si14 s
  | .ldptrD rd rj si14 => Sys2Proof.Machine.execLdptrD rd rj si14 s
  | .stptrD rd rj si14 => Sys2Proof.Machine.execStptrD rd rj si14 s
  | .ldB rd rj si12 => Sys2Proof.Machine.execLdB rd rj si12 s
  | .ldH rd rj si12 => Sys2Proof.Machine.execLdH rd rj si12 s
  | .ldW rd rj si12 => Sys2Proof.Machine.execLdW rd rj si12 s
  | .ldD rd rj si12 => Sys2Proof.Machine.execLdD rd rj si12 s
  | .stB rd rj si12 => Sys2Proof.Machine.execStB rd rj si12 s
  | .stH rd rj si12 => Sys2Proof.Machine.execStH rd rj si12 s
  | .stW rd rj si12 => Sys2Proof.Machine.execStW rd rj si12 s
  | .stD rd rj si12 => Sys2Proof.Machine.execStD rd rj si12 s
  | .ldBu rd rj si12 => Sys2Proof.Machine.execLdBu rd rj si12 s
  | .ldHu rd rj si12 => Sys2Proof.Machine.execLdHu rd rj si12 s
  | .ldWu rd rj si12 => Sys2Proof.Machine.execLdWu rd rj si12 s
  | .preld hint rj si12 => Sys2Proof.Machine.execPreld hint rj si12 s
  | .fldS fd rj si12 => Sys2Proof.Machine.execFldS fd rj si12 s
  | .fstS fd rj si12 => Sys2Proof.Machine.execFstS fd rj si12 s
  | .fldD fd rj si12 => Sys2Proof.Machine.execFldD fd rj si12 s
  | .fstD fd rj si12 => Sys2Proof.Machine.execFstD fd rj si12 s
  | .ldxB rd rj rk => Sys2Proof.Machine.execLdxB rd rj rk s
  | .ldxH rd rj rk => Sys2Proof.Machine.execLdxH rd rj rk s
  | .ldxW rd rj rk => Sys2Proof.Machine.execLdxW rd rj rk s
  | .ldxD rd rj rk => Sys2Proof.Machine.execLdxD rd rj rk s
  | .stxB rd rj rk => Sys2Proof.Machine.execStxB rd rj rk s
  | .stxH rd rj rk => Sys2Proof.Machine.execStxH rd rj rk s
  | .stxW rd rj rk => Sys2Proof.Machine.execStxW rd rj rk s
  | .stxD rd rj rk => Sys2Proof.Machine.execStxD rd rj rk s
  | .ldxBu rd rj rk => Sys2Proof.Machine.execLdxBu rd rj rk s
  | .ldxHu rd rj rk => Sys2Proof.Machine.execLdxHu rd rj rk s
  | .ldxWu rd rj rk => Sys2Proof.Machine.execLdxWu rd rj rk s
  | .preldx hint rj rk => Sys2Proof.Machine.execPreldx hint rj rk s
  | .fldxS fd rj rk => Sys2Proof.Machine.execFldxS fd rj rk s
  | .fldxD fd rj rk => Sys2Proof.Machine.execFldxD fd rj rk s
  | .fstxS fd rj rk => Sys2Proof.Machine.execFstxS fd rj rk s
  | .fstxD fd rj rk => Sys2Proof.Machine.execFstxD fd rj rk s
  | .scQ rd rj rk => Sys2Proof.Machine.execScQ rd rj rk s
  | .llacqW rd rj => Sys2Proof.Machine.execLlacqW rd rj s
  | .screlW rd rj => Sys2Proof.Machine.execScrelW rd rj s
  | .llacqD rd rj => Sys2Proof.Machine.execLlacqD rd rj s
  | .screlD rd rj => Sys2Proof.Machine.execScrelD rd rj s
  | .amcasB rd rj rk => Sys2Proof.Machine.execAmcasB rd rj rk s
  | .amcasH rd rj rk => Sys2Proof.Machine.execAmcasH rd rj rk s
  | .amcasW rd rj rk => Sys2Proof.Machine.execAmcasW rd rj rk s
  | .amcasD rd rj rk => Sys2Proof.Machine.execAmcasD rd rj rk s
  | .amcasDbB rd rj rk => Sys2Proof.Machine.execAmcasDbB rd rj rk s
  | .amcasDbH rd rj rk => Sys2Proof.Machine.execAmcasDbH rd rj rk s
  | .amcasDbW rd rj rk => Sys2Proof.Machine.execAmcasDbW rd rj rk s
  | .amcasDbD rd rj rk => Sys2Proof.Machine.execAmcasDbD rd rj rk s
  | .amswapB rd rj rk => Sys2Proof.Machine.execAmswapB rd rj rk s
  | .amswapH rd rj rk => Sys2Proof.Machine.execAmswapH rd rj rk s
  | .amaddB rd rj rk => Sys2Proof.Machine.execAmaddB rd rj rk s
  | .amaddH rd rj rk => Sys2Proof.Machine.execAmaddH rd rj rk s
  | .amswapDbB rd rj rk => Sys2Proof.Machine.execAmswapDbB rd rj rk s
  | .amswapDbH rd rj rk => Sys2Proof.Machine.execAmswapDbH rd rj rk s
  | .amaddDbB rd rj rk => Sys2Proof.Machine.execAmaddDbB rd rj rk s
  | .amaddDbH rd rj rk => Sys2Proof.Machine.execAmaddDbH rd rj rk s
  | .amswapW rd rj rk => Sys2Proof.Machine.execAmswapW rd rj rk s
  | .amswapD rd rj rk => Sys2Proof.Machine.execAmswapD rd rj rk s
  | .amaddW rd rj rk => Sys2Proof.Machine.execAmaddW rd rj rk s
  | .amaddD rd rj rk => Sys2Proof.Machine.execAmaddD rd rj rk s
  | .amandW rd rj rk => Sys2Proof.Machine.execAmandW rd rj rk s
  | .amandD rd rj rk => Sys2Proof.Machine.execAmandD rd rj rk s
  | .amorW rd rj rk => Sys2Proof.Machine.execAmorW rd rj rk s
  | .amorD rd rj rk => Sys2Proof.Machine.execAmorD rd rj rk s
  | .amxorW rd rj rk => Sys2Proof.Machine.execAmxorW rd rj rk s
  | .amxorD rd rj rk => Sys2Proof.Machine.execAmxorD rd rj rk s
  | .ammaxW rd rj rk => Sys2Proof.Machine.execAmmaxW rd rj rk s
  | .ammaxD rd rj rk => Sys2Proof.Machine.execAmmaxD rd rj rk s
  | .amminW rd rj rk => Sys2Proof.Machine.execAmminW rd rj rk s
  | .amminD rd rj rk => Sys2Proof.Machine.execAmminD rd rj rk s
  | .ammaxWu rd rj rk => Sys2Proof.Machine.execAmmaxWu rd rj rk s
  | .ammaxDu rd rj rk => Sys2Proof.Machine.execAmmaxDu rd rj rk s
  | .amminWu rd rj rk => Sys2Proof.Machine.execAmminWu rd rj rk s
  | .amminDu rd rj rk => Sys2Proof.Machine.execAmminDu rd rj rk s
  | .amswapDbW rd rj rk => Sys2Proof.Machine.execAmswapDbW rd rj rk s
  | .amswapDbD rd rj rk => Sys2Proof.Machine.execAmswapDbD rd rj rk s
  | .amaddDbW rd rj rk => Sys2Proof.Machine.execAmaddDbW rd rj rk s
  | .amaddDbD rd rj rk => Sys2Proof.Machine.execAmaddDbD rd rj rk s
  | .amandDbW rd rj rk => Sys2Proof.Machine.execAmandDbW rd rj rk s
  | .amandDbD rd rj rk => Sys2Proof.Machine.execAmandDbD rd rj rk s
  | .amorDbW rd rj rk => Sys2Proof.Machine.execAmorDbW rd rj rk s
  | .amorDbD rd rj rk => Sys2Proof.Machine.execAmorDbD rd rj rk s
  | .amxorDbW rd rj rk => Sys2Proof.Machine.execAmxorDbW rd rj rk s
  | .amxorDbD rd rj rk => Sys2Proof.Machine.execAmxorDbD rd rj rk s
  | .ammaxDbW rd rj rk => Sys2Proof.Machine.execAmmaxDbW rd rj rk s
  | .ammaxDbD rd rj rk => Sys2Proof.Machine.execAmmaxDbD rd rj rk s
  | .amminDbW rd rj rk => Sys2Proof.Machine.execAmminDbW rd rj rk s
  | .amminDbD rd rj rk => Sys2Proof.Machine.execAmminDbD rd rj rk s
  | .ammaxDbWu rd rj rk => Sys2Proof.Machine.execAmmaxDbWu rd rj rk s
  | .ammaxDbDu rd rj rk => Sys2Proof.Machine.execAmmaxDbDu rd rj rk s
  | .amminDbWu rd rj rk => Sys2Proof.Machine.execAmminDbWu rd rj rk s
  | .amminDbDu rd rj rk => Sys2Proof.Machine.execAmminDbDu rd rj rk s
  | .dbar hint => Sys2Proof.Machine.execDbar hint s
  | .ibar hint => Sys2Proof.Machine.execIbar hint s
  | .fldgtS fd rj rk => Sys2Proof.Machine.execFldgtS fd rj rk s
  | .fldgtD fd rj rk => Sys2Proof.Machine.execFldgtD fd rj rk s
  | .fldleS fd rj rk => Sys2Proof.Machine.execFldleS fd rj rk s
  | .fldleD fd rj rk => Sys2Proof.Machine.execFldleD fd rj rk s
  | .fstgtS fd rj rk => Sys2Proof.Machine.execFstgtS fd rj rk s
  | .fstgtD fd rj rk => Sys2Proof.Machine.execFstgtD fd rj rk s
  | .fstleS fd rj rk => Sys2Proof.Machine.execFstleS fd rj rk s
  | .fstleD fd rj rk => Sys2Proof.Machine.execFstleD fd rj rk s
  | .ldgtB rd rj rk => Sys2Proof.Machine.execLdgtB rd rj rk s
  | .ldgtH rd rj rk => Sys2Proof.Machine.execLdgtH rd rj rk s
  | .ldgtW rd rj rk => Sys2Proof.Machine.execLdgtW rd rj rk s
  | .ldgtD rd rj rk => Sys2Proof.Machine.execLdgtD rd rj rk s
  | .ldleB rd rj rk => Sys2Proof.Machine.execLdleB rd rj rk s
  | .ldleH rd rj rk => Sys2Proof.Machine.execLdleH rd rj rk s
  | .ldleW rd rj rk => Sys2Proof.Machine.execLdleW rd rj rk s
  | .ldleD rd rj rk => Sys2Proof.Machine.execLdleD rd rj rk s
  | .stgtB rd rj rk => Sys2Proof.Machine.execStgtB rd rj rk s
  | .stgtH rd rj rk => Sys2Proof.Machine.execStgtH rd rj rk s
  | .stgtW rd rj rk => Sys2Proof.Machine.execStgtW rd rj rk s
  | .stgtD rd rj rk => Sys2Proof.Machine.execStgtD rd rj rk s
  | .stleB rd rj rk => Sys2Proof.Machine.execStleB rd rj rk s
  | .stleH rd rj rk => Sys2Proof.Machine.execStleH rd rj rk s
  | .stleW rd rj rk => Sys2Proof.Machine.execStleW rd rj rk s
  | .stleD rd rj rk => Sys2Proof.Machine.execStleD rd rj rk s
  | .beqz rj offs21 => Sys2Proof.Machine.execBeqz rj offs21 s
  | .bnez rj offs21 => Sys2Proof.Machine.execBnez rj offs21 s
  | .bceqz cj offs21 => Sys2Proof.Machine.execBceqz cj offs21 s
  | .bcnez cj offs21 => Sys2Proof.Machine.execBcnez cj offs21 s
  | .jirl rd rj offs16 => Sys2Proof.Machine.execJirl rd rj offs16 s
  | .b offs26 => Sys2Proof.Machine.execB offs26 s
  | .bl offs26 => Sys2Proof.Machine.execBl offs26 s
  | .beq rj rd offs16 => Sys2Proof.Machine.execBeq rj rd offs16 s
  | .bne rj rd offs16 => Sys2Proof.Machine.execBne rj rd offs16 s
  | .blt rj rd offs16 => Sys2Proof.Machine.execBlt rj rd offs16 s
  | .bge rj rd offs16 => Sys2Proof.Machine.execBge rj rd offs16 s
  | .bltu rj rd offs16 => Sys2Proof.Machine.execBltu rj rd offs16 s
  | .bgeu rj rd offs16 => Sys2Proof.Machine.execBgeu rj rd offs16 s

end Sys2Proof.Machine
end

