-- ==== Sys2Proof/Machine/Env.lean ====
section
/-! DEFINITION. What happens between two instructions: the environment's input, the timer, and the choice of an
interrupt (60_exceptions.md R880 to R886; 13_csr_timer_ras_perf_watch_debug.md R155; 92_eei_decisions.md D6, D20, D35,
D44, D45; log 34, 35, 57). -/

namespace Sys2Proof.Machine

/-! ## The clock (R35, R155, D20) -/

/-- `{InitVal, 2'b00}`, the value that TCFG loads (R151, R155). -/
def timerInit (c : TimerCsrs) : Nat := c.tcfg.toNat / 4 * 4

/-- The count after `n` ticks that bring it to 0 or past it: a periodic timer is loaded again at each expiry, a one-shot
timer stays at 0 (R155, D20). -/
def timerExpired (c : TimerCsrs) (n : Nat) : Nat :=
  if c.tcfg.getLsbD 1 ∧ timerInit c ≠ 0 then timerInit c - (n - c.tval.toNat) % timerInit c else 0

/-- The timer after `n` ticks: it counts while En is 1, and TI is set when it reaches 0 (R155, R880). -/
def State.tickTimer (s : State) (n : Nat) : State :=
  let c := s.csr.timer
  if !c.tcfg.getLsbD 0 || c.tval = 0 then s
  else if n < c.tval.toNat then s.setTimer { c with tval := c.tval - BitVec.ofNat 64 n }
  else
    (s.setTimer { c with tval := BitVec.ofNat 64 (timerExpired c n) }).setBasic
      { s.csr.basic with estat := withBit s.csr.basic.estat 11 true }

/-- `n` ticks of the constant-frequency clock (R35, D20). -/
def State.tick (s : State) (n : Nat) : State :=
  { s with stable := s.stable + BitVec.ofNat 64 n }.tickTimer n

/-! ## Inputs (D6, D35) -/

/-- Bytes that other bus masters write; an address beyond the physical space is no address (R849, R250). -/
def State.busWrites (s : State) : List Host.Cell → State
  | [] => s
  | (a, b) :: l => (if a < 2 ^ Config.palen then s.storeByte a b else s).busWrites l

/-- The messages that arrive, where message interrupts are implemented (R886; log 38). -/
def State.arrive (s : State) (ms : List (BitVec 8)) : State :=
  if Config.msgInt then
    s.setMsg { s.csr.msg with msgis := ms.foldl (fun v k => v ||| (1#256 <<< k.toNat)) s.csr.msg.msgis }
  else s

/-- The levels of the interrupt lines from now on (R880). -/
def State.setLines (s : State) (hwi : BitVec 8) (ipi : Bool) : State := { s with hwi, ipi }

/-- A report of a machine error joins one that waits, which stays first (R868; log 36). -/
def State.report (s : State) (r : Option MerrReport) : State := { s with merrPending := s.merrPending.or r }

/-- The platform gives bytes of IOCSR registers a value (R816). -/
def State.platformWrites (s : State) (l : List Host.Cell) : State :=
  { s with iocsr := l.foldl (fun c x => cellSet c x.1 x.2) s.iocsr }

/-- Everything that one input does. -/
def State.applyInput (s : State) (i : EnvInput) : State :=
  let t := ((((s.tick i.ticks).setLines i.hwi i.ipi).report i.merr).arrive i.msgs).busWrites i.memWrites
  (if i.clearLL then t.setLL false else t).platformWrites i.iocsrWrites

/-- The next input, where there is one, is taken before the instruction (D6; log 34). -/
def State.takeInput (s : State) : State :=
  match s.inputs with
  | [] => s
  | i :: is => { s with inputs := is }.applyInput i

/-! ## Interrupts (R881, R882, R884, R886) -/

/-- An interrupt is pending and locally enabled, which ends the wait state whatever CRMD.IE is (49_privileged.md R849,
D44). -/
def State.wakes (s : State) : Bool := s.intVec != 0 || s.msgSel.isSome

/-- The exception number of the interrupt marked on the next instruction, if one is: a message before a line, the
highest line first (R864, R881, R882, R886). -/
def State.interrupt (s : State) : Option Nat :=
  if !s.ie then none
  else if s.msgSel.isSome then some 78
  else if s.intVec = 0 then none
  else some (64 + topBit 13 s.intVec)

end Sys2Proof.Machine
end

