-- ==== Sys2Proof/Machine/Exists.lean ====
section
/-! DEFINITION. Which instructions exist: the optional subsets and their CPUCFG bits (30_encoding.md R321, R322;
00_scope.md R7, R8; 46_fp_arith.md R631). -/

namespace Sys2Proof.Machine

/-- An optional subset (30_encoding.md R322). -/
inductive Feature where
  | la64 | fp | fpSp | fpDp | crc | iocsr | lspw | lam | lamBh | lamcas | llacqScrel | scq | frecipe | llftp
deriving DecidableEq, Repr

/-- The parameter that says whether the subset is implemented, which CPUCFG reports (R322; 00_scope.md R9). -/
def Feature.present : Feature → Bool
  | .la64 => Config.grlen == 64
  | .fp => Config.fp
  | .fpSp => Config.fpSp
  | .fpDp => Config.fpDp
  | .crc => Config.hasCrc
  | .iocsr => Config.hasIocsr
  | .lspw => Config.lspw
  | .lam => Config.lam
  | .lamBh => Config.lamBh
  | .lamcas => Config.lamcas
  | .llacqScrel => Config.llacqScrel
  | .scq => Config.scq
  | .frecipe => Config.frecipe
  | .llftp => Config.llftp

/-- The subsets that an instruction belongs to (R322). -/
def features (i : Instr) : List Feature :=
  match i with
  | .cloW _ _ => []
  | .clzW _ _ => []
  | .ctoW _ _ => []
  | .ctzW _ _ => []
  | .cloD _ _ => [.la64]
  | .clzD _ _ => [.la64]
  | .ctoD _ _ => [.la64]
  | .ctzD _ _ => [.la64]
  | .revb2H _ _ => []
  | .revb4H _ _ => [.la64]
  | .revb2W _ _ => [.la64]
  | .revbD _ _ => [.la64]
  | .revh2W _ _ => [.la64]
  | .revhD _ _ => [.la64]
  | .bitrev4B _ _ => []
  | .bitrev8B _ _ => [.la64]
  | .bitrevW _ _ => []
  | .bitrevD _ _ => [.la64]
  | .extWH _ _ => []
  | .extWB _ _ => []
  | .rdtimelW _ _ => [.llftp]
  | .rdtimehW _ _ => [.llftp]
  | .rdtimeD _ _ => [.la64, .llftp]
  | .cpucfg _ _ => []
  | .asrtleD _ _ => [.la64]
  | .asrtgtD _ _ => [.la64]
  | .alslW _ _ _ _ => []
  | .alslWu _ _ _ _ => [.la64]
  | .bytepickW _ _ _ _ => []
  | .bytepickD _ _ _ _ => [.la64]
  | .addW _ _ _ => []
  | .addD _ _ _ => [.la64]
  | .subW _ _ _ => []
  | .subD _ _ _ => [.la64]
  | .slt _ _ _ => []
  | .sltu _ _ _ => []
  | .maskeqz _ _ _ => []
  | .masknez _ _ _ => []
  | .nor _ _ _ => []
  | .and _ _ _ => []
  | .or _ _ _ => []
  | .xor _ _ _ => []
  | .orn _ _ _ => []
  | .andn _ _ _ => []
  | .sllW _ _ _ => []
  | .srlW _ _ _ => []
  | .sraW _ _ _ => []
  | .sllD _ _ _ => [.la64]
  | .srlD _ _ _ => [.la64]
  | .sraD _ _ _ => [.la64]
  | .rotrW _ _ _ => []
  | .rotrD _ _ _ => [.la64]
  | .mulW _ _ _ => []
  | .mulhW _ _ _ => []
  | .mulhWu _ _ _ => []
  | .mulD _ _ _ => [.la64]
  | .mulhD _ _ _ => [.la64]
  | .mulhDu _ _ _ => [.la64]
  | .mulwDW _ _ _ => [.la64]
  | .mulwDWu _ _ _ => [.la64]
  | .divW _ _ _ => []
  | .modW _ _ _ => []
  | .divWu _ _ _ => []
  | .modWu _ _ _ => []
  | .divD _ _ _ => [.la64]
  | .modD _ _ _ => [.la64]
  | .divDu _ _ _ => [.la64]
  | .modDu _ _ _ => [.la64]
  | .crcWBW _ _ _ => [.la64, .crc]
  | .crcWHW _ _ _ => [.la64, .crc]
  | .crcWWW _ _ _ => [.la64, .crc]
  | .crcWDW _ _ _ => [.la64, .crc]
  | .crccWBW _ _ _ => [.la64, .crc]
  | .crccWHW _ _ _ => [.la64, .crc]
  | .crccWWW _ _ _ => [.la64, .crc]
  | .crccWDW _ _ _ => [.la64, .crc]
  | .brk _ => []
  | .dbcl _ => []
  | .syscall _ => []
  | .alslD _ _ _ _ => [.la64]
  | .slliW _ _ _ => []
  | .slliD _ _ _ => [.la64]
  | .srliW _ _ _ => []
  | .srliD _ _ _ => [.la64]
  | .sraiW _ _ _ => []
  | .sraiD _ _ _ => [.la64]
  | .rotriW _ _ _ => []
  | .rotriD _ _ _ => [.la64]
  | .bstrinsW _ _ _ _ => []
  | .bstrpickW _ _ _ _ => []
  | .bstrinsD _ _ _ _ => [.la64]
  | .bstrpickD _ _ _ _ => [.la64]
  | .faddS _ _ _ => [.fp, .fpSp]
  | .faddD _ _ _ => [.fp, .fpDp]
  | .fsubS _ _ _ => [.fp, .fpSp]
  | .fsubD _ _ _ => [.fp, .fpDp]
  | .fmulS _ _ _ => [.fp, .fpSp]
  | .fmulD _ _ _ => [.fp, .fpDp]
  | .fdivS _ _ _ => [.fp, .fpSp]
  | .fdivD _ _ _ => [.fp, .fpDp]
  | .fmaxS _ _ _ => [.fp, .fpSp]
  | .fmaxD _ _ _ => [.fp, .fpDp]
  | .fminS _ _ _ => [.fp, .fpSp]
  | .fminD _ _ _ => [.fp, .fpDp]
  | .fmaxaS _ _ _ => [.fp, .fpSp]
  | .fmaxaD _ _ _ => [.fp, .fpDp]
  | .fminaS _ _ _ => [.fp, .fpSp]
  | .fminaD _ _ _ => [.fp, .fpDp]
  | .fscalebS _ _ _ => [.fp, .fpSp]
  | .fscalebD _ _ _ => [.fp, .fpDp]
  | .fcopysignS _ _ _ => [.fp, .fpSp]
  | .fcopysignD _ _ _ => [.fp, .fpDp]
  | .fabsS _ _ => [.fp, .fpSp]
  | .fabsD _ _ => [.fp, .fpDp]
  | .fnegS _ _ => [.fp, .fpSp]
  | .fnegD _ _ => [.fp, .fpDp]
  | .flogbS _ _ => [.fp, .fpSp]
  | .flogbD _ _ => [.fp, .fpDp]
  | .fclassS _ _ => [.fp, .fpSp]
  | .fclassD _ _ => [.fp, .fpDp]
  | .fsqrtS _ _ => [.fp, .fpSp]
  | .fsqrtD _ _ => [.fp, .fpDp]
  | .frecipS _ _ => [.fp, .fpSp]
  | .frecipD _ _ => [.fp, .fpDp]
  | .frsqrtS _ _ => [.fp, .fpSp]
  | .frsqrtD _ _ => [.fp, .fpDp]
  | .frecipeS _ _ => [.fp, .fpSp, .frecipe]
  | .frecipeD _ _ => [.fp, .fpDp, .frecipe]
  | .frsqrteS _ _ => [.fp, .fpSp, .frecipe]
  | .frsqrteD _ _ => [.fp, .fpDp, .frecipe]
  | .fmovS _ _ => [.fp, .fpSp]
  | .fmovD _ _ => [.fp, .fpDp]
  | .movgr2frW _ _ => [.fp]
  | .movgr2frD _ _ => [.fp, .la64, .fpDp]
  | .movgr2frhW _ _ => [.fp, .fpDp]
  | .movfr2grS _ _ => [.fp, .fpSp]
  | .movfr2grD _ _ => [.fp, .la64, .fpDp]
  | .movfrh2grS _ _ => [.fp, .fpSp, .fpDp]
  | .movgr2fcsr _ _ => [.fp]
  | .movfcsr2gr _ _ => [.fp]
  | .movfr2cf _ _ => [.fp]
  | .movcf2fr _ _ => [.fp]
  | .movgr2cf _ _ => [.fp]
  | .movcf2gr _ _ => [.fp]
  | .fcvtSD _ _ => [.fp, .fpSp, .fpDp]
  | .fcvtDS _ _ => [.fp, .fpSp, .fpDp]
  | .ftintrmWS _ _ => [.fp, .fpSp]
  | .ftintrmWD _ _ => [.fp, .fpDp]
  | .ftintrmLS _ _ => [.fp, .fpSp, .fpDp]
  | .ftintrmLD _ _ => [.fp, .fpDp]
  | .ftintrpWS _ _ => [.fp, .fpSp]
  | .ftintrpWD _ _ => [.fp, .fpDp]
  | .ftintrpLS _ _ => [.fp, .fpSp, .fpDp]
  | .ftintrpLD _ _ => [.fp, .fpDp]
  | .ftintrzWS _ _ => [.fp, .fpSp]
  | .ftintrzWD _ _ => [.fp, .fpDp]
  | .ftintrzLS _ _ => [.fp, .fpSp, .fpDp]
  | .ftintrzLD _ _ => [.fp, .fpDp]
  | .ftintrneWS _ _ => [.fp, .fpSp]
  | .ftintrneWD _ _ => [.fp, .fpDp]
  | .ftintrneLS _ _ => [.fp, .fpSp, .fpDp]
  | .ftintrneLD _ _ => [.fp, .fpDp]
  | .ftintWS _ _ => [.fp, .fpSp]
  | .ftintWD _ _ => [.fp, .fpDp]
  | .ftintLS _ _ => [.fp, .fpSp, .fpDp]
  | .ftintLD _ _ => [.fp, .fpDp]
  | .ffintSW _ _ => [.fp, .fpSp]
  | .ffintSL _ _ => [.fp, .fpSp, .fpDp]
  | .ffintDW _ _ => [.fp, .fpDp]
  | .ffintDL _ _ => [.fp, .fpDp]
  | .frintS _ _ => [.fp, .fpSp]
  | .frintD _ _ => [.fp, .fpDp]
  | .slti _ _ _ => []
  | .sltui _ _ _ => []
  | .addiW _ _ _ => []
  | .addiD _ _ _ => [.la64]
  | .lu52iD _ _ _ => [.la64]
  | .andi _ _ _ => []
  | .ori _ _ _ => []
  | .xori _ _ _ => []
  | .csrrd _ _ => []
  | .csrwr _ _ => []
  | .csrxchg _ _ _ => []
  | .cacop _ _ _ => []
  | .lddir _ _ _ => [.lspw]
  | .ldpte _ _ => [.lspw]
  | .iocsrrdB _ _ => [.iocsr]
  | .iocsrrdH _ _ => [.iocsr]
  | .iocsrrdW _ _ => [.iocsr]
  | .iocsrrdD _ _ => [.iocsr, .la64]
  | .iocsrwrB _ _ => [.iocsr]
  | .iocsrwrH _ _ => [.iocsr]
  | .iocsrwrW _ _ => [.iocsr]
  | .iocsrwrD _ _ => [.iocsr, .la64]
  | .tlbclr => []
  | .tlbflush => []
  | .tlbsrch => []
  | .tlbrd => []
  | .tlbwr => []
  | .tlbfill => []
  | .ertn => []
  | .idle _ => []
  | .invtlb _ _ _ => []
  | .fmaddS _ _ _ _ => [.fp, .fpSp]
  | .fmaddD _ _ _ _ => [.fp, .fpDp]
  | .fmsubS _ _ _ _ => [.fp, .fpSp]
  | .fmsubD _ _ _ _ => [.fp, .fpDp]
  | .fnmaddS _ _ _ _ => [.fp, .fpSp]
  | .fnmaddD _ _ _ _ => [.fp, .fpDp]
  | .fnmsubS _ _ _ _ => [.fp, .fpSp]
  | .fnmsubD _ _ _ _ => [.fp, .fpDp]
  | .fcmpCafS _ _ _ => [.fp, .fpSp]
  | .fcmpSafS _ _ _ => [.fp, .fpSp]
  | .fcmpCltS _ _ _ => [.fp, .fpSp]
  | .fcmpSltS _ _ _ => [.fp, .fpSp]
  | .fcmpCeqS _ _ _ => [.fp, .fpSp]
  | .fcmpSeqS _ _ _ => [.fp, .fpSp]
  | .fcmpCleS _ _ _ => [.fp, .fpSp]
  | .fcmpSleS _ _ _ => [.fp, .fpSp]
  | .fcmpCunS _ _ _ => [.fp, .fpSp]
  | .fcmpSunS _ _ _ => [.fp, .fpSp]
  | .fcmpCultS _ _ _ => [.fp, .fpSp]
  | .fcmpSultS _ _ _ => [.fp, .fpSp]
  | .fcmpCueqS _ _ _ => [.fp, .fpSp]
  | .fcmpSueqS _ _ _ => [.fp, .fpSp]
  | .fcmpCuleS _ _ _ => [.fp, .fpSp]
  | .fcmpSuleS _ _ _ => [.fp, .fpSp]
  | .fcmpCneS _ _ _ => [.fp, .fpSp]
  | .fcmpSneS _ _ _ => [.fp, .fpSp]
  | .fcmpCorS _ _ _ => [.fp, .fpSp]
  | .fcmpSorS _ _ _ => [.fp, .fpSp]
  | .fcmpCuneS _ _ _ => [.fp, .fpSp]
  | .fcmpSuneS _ _ _ => [.fp, .fpSp]
  | .fcmpCafD _ _ _ => [.fp, .fpDp]
  | .fcmpSafD _ _ _ => [.fp, .fpDp]
  | .fcmpCltD _ _ _ => [.fp, .fpDp]
  | .fcmpSltD _ _ _ => [.fp, .fpDp]
  | .fcmpCeqD _ _ _ => [.fp, .fpDp]
  | .fcmpSeqD _ _ _ => [.fp, .fpDp]
  | .fcmpCleD _ _ _ => [.fp, .fpDp]
  | .fcmpSleD _ _ _ => [.fp, .fpDp]
  | .fcmpCunD _ _ _ => [.fp, .fpDp]
  | .fcmpSunD _ _ _ => [.fp, .fpDp]
  | .fcmpCultD _ _ _ => [.fp, .fpDp]
  | .fcmpSultD _ _ _ => [.fp, .fpDp]
  | .fcmpCueqD _ _ _ => [.fp, .fpDp]
  | .fcmpSueqD _ _ _ => [.fp, .fpDp]
  | .fcmpCuleD _ _ _ => [.fp, .fpDp]
  | .fcmpSuleD _ _ _ => [.fp, .fpDp]
  | .fcmpCneD _ _ _ => [.fp, .fpDp]
  | .fcmpSneD _ _ _ => [.fp, .fpDp]
  | .fcmpCorD _ _ _ => [.fp, .fpDp]
  | .fcmpSorD _ _ _ => [.fp, .fpDp]
  | .fcmpCuneD _ _ _ => [.fp, .fpDp]
  | .fcmpSuneD _ _ _ => [.fp, .fpDp]
  | .fsel _ _ _ _ => [.fp]
  | .addu16iD _ _ _ => [.la64]
  | .lu12iW _ _ => []
  | .lu32iD _ _ => [.la64]
  | .pcaddi _ _ => []
  | .pcalau12i _ _ => []
  | .pcaddu12i _ _ => []
  | .pcaddu18i _ _ => [.la64]
  | .llW _ _ _ => []
  | .scW _ _ _ => []
  | .llD _ _ _ => [.la64]
  | .scD _ _ _ => [.la64]
  | .ldptrW _ _ _ => [.la64]
  | .stptrW _ _ _ => [.la64]
  | .ldptrD _ _ _ => [.la64]
  | .stptrD _ _ _ => [.la64]
  | .ldB _ _ _ => []
  | .ldH _ _ _ => []
  | .ldW _ _ _ => []
  | .ldD _ _ _ => [.la64]
  | .stB _ _ _ => []
  | .stH _ _ _ => []
  | .stW _ _ _ => []
  | .stD _ _ _ => [.la64]
  | .ldBu _ _ _ => []
  | .ldHu _ _ _ => []
  | .ldWu _ _ _ => [.la64]
  | .preld _ _ _ => []
  | .fldS _ _ _ => [.fp, .fpSp]
  | .fstS _ _ _ => [.fp, .fpSp]
  | .fldD _ _ _ => [.fp, .fpDp]
  | .fstD _ _ _ => [.fp, .fpDp]
  | .ldxB _ _ _ => [.la64]
  | .ldxH _ _ _ => [.la64]
  | .ldxW _ _ _ => [.la64]
  | .ldxD _ _ _ => [.la64]
  | .stxB _ _ _ => [.la64]
  | .stxH _ _ _ => [.la64]
  | .stxW _ _ _ => [.la64]
  | .stxD _ _ _ => [.la64]
  | .ldxBu _ _ _ => [.la64]
  | .ldxHu _ _ _ => [.la64]
  | .ldxWu _ _ _ => [.la64]
  | .preldx _ _ _ => [.la64]
  | .fldxS _ _ _ => [.fp, .fpSp, .la64]
  | .fldxD _ _ _ => [.fp, .fpDp, .la64]
  | .fstxS _ _ _ => [.fp, .fpSp, .la64]
  | .fstxD _ _ _ => [.fp, .fpDp, .la64]
  | .scQ _ _ _ => [.la64, .scq]
  | .llacqW _ _ => [.la64, .llacqScrel]
  | .screlW _ _ => [.la64, .llacqScrel]
  | .llacqD _ _ => [.la64, .llacqScrel]
  | .screlD _ _ => [.la64, .llacqScrel]
  | .amcasB _ _ _ => [.la64, .lamcas]
  | .amcasH _ _ _ => [.la64, .lamcas]
  | .amcasW _ _ _ => [.la64, .lamcas]
  | .amcasD _ _ _ => [.la64, .lamcas]
  | .amcasDbB _ _ _ => [.la64, .lamcas]
  | .amcasDbH _ _ _ => [.la64, .lamcas]
  | .amcasDbW _ _ _ => [.la64, .lamcas]
  | .amcasDbD _ _ _ => [.la64, .lamcas]
  | .amswapB _ _ _ => [.la64, .lamBh]
  | .amswapH _ _ _ => [.la64, .lamBh]
  | .amaddB _ _ _ => [.la64, .lamBh]
  | .amaddH _ _ _ => [.la64, .lamBh]
  | .amswapDbB _ _ _ => [.la64, .lamBh]
  | .amswapDbH _ _ _ => [.la64, .lamBh]
  | .amaddDbB _ _ _ => [.la64, .lamBh]
  | .amaddDbH _ _ _ => [.la64, .lamBh]
  | .amswapW _ _ _ => [.la64, .lam]
  | .amswapD _ _ _ => [.la64, .lam]
  | .amaddW _ _ _ => [.la64, .lam]
  | .amaddD _ _ _ => [.la64, .lam]
  | .amandW _ _ _ => [.la64, .lam]
  | .amandD _ _ _ => [.la64, .lam]
  | .amorW _ _ _ => [.la64, .lam]
  | .amorD _ _ _ => [.la64, .lam]
  | .amxorW _ _ _ => [.la64, .lam]
  | .amxorD _ _ _ => [.la64, .lam]
  | .ammaxW _ _ _ => [.la64, .lam]
  | .ammaxD _ _ _ => [.la64, .lam]
  | .amminW _ _ _ => [.la64, .lam]
  | .amminD _ _ _ => [.la64, .lam]
  | .ammaxWu _ _ _ => [.la64, .lam]
  | .ammaxDu _ _ _ => [.la64, .lam]
  | .amminWu _ _ _ => [.la64, .lam]
  | .amminDu _ _ _ => [.la64, .lam]
  | .amswapDbW _ _ _ => [.la64, .lam]
  | .amswapDbD _ _ _ => [.la64, .lam]
  | .amaddDbW _ _ _ => [.la64, .lam]
  | .amaddDbD _ _ _ => [.la64, .lam]
  | .amandDbW _ _ _ => [.la64, .lam]
  | .amandDbD _ _ _ => [.la64, .lam]
  | .amorDbW _ _ _ => [.la64, .lam]
  | .amorDbD _ _ _ => [.la64, .lam]
  | .amxorDbW _ _ _ => [.la64, .lam]
  | .amxorDbD _ _ _ => [.la64, .lam]
  | .ammaxDbW _ _ _ => [.la64, .lam]
  | .ammaxDbD _ _ _ => [.la64, .lam]
  | .amminDbW _ _ _ => [.la64, .lam]
  | .amminDbD _ _ _ => [.la64, .lam]
  | .ammaxDbWu _ _ _ => [.la64, .lam]
  | .ammaxDbDu _ _ _ => [.la64, .lam]
  | .amminDbWu _ _ _ => [.la64, .lam]
  | .amminDbDu _ _ _ => [.la64, .lam]
  | .dbar _ => []
  | .ibar _ => []
  | .fldgtS _ _ _ => [.fp, .fpSp, .la64]
  | .fldgtD _ _ _ => [.fp, .fpDp, .la64]
  | .fldleS _ _ _ => [.fp, .fpSp, .la64]
  | .fldleD _ _ _ => [.fp, .fpDp, .la64]
  | .fstgtS _ _ _ => [.fp, .fpSp, .la64]
  | .fstgtD _ _ _ => [.fp, .fpDp, .la64]
  | .fstleS _ _ _ => [.fp, .fpSp, .la64]
  | .fstleD _ _ _ => [.fp, .fpDp, .la64]
  | .ldgtB _ _ _ => [.la64]
  | .ldgtH _ _ _ => [.la64]
  | .ldgtW _ _ _ => [.la64]
  | .ldgtD _ _ _ => [.la64]
  | .ldleB _ _ _ => [.la64]
  | .ldleH _ _ _ => [.la64]
  | .ldleW _ _ _ => [.la64]
  | .ldleD _ _ _ => [.la64]
  | .stgtB _ _ _ => [.la64]
  | .stgtH _ _ _ => [.la64]
  | .stgtW _ _ _ => [.la64]
  | .stgtD _ _ _ => [.la64]
  | .stleB _ _ _ => [.la64]
  | .stleH _ _ _ => [.la64]
  | .stleW _ _ _ => [.la64]
  | .stleD _ _ _ => [.la64]
  | .beqz _ _ => []
  | .bnez _ _ => []
  | .bceqz _ _ => [.fp]
  | .bcnez _ _ => [.fp]
  | .jirl _ _ _ => []
  | .b _ => []
  | .bl _ => []
  | .beq _ _ _ => []
  | .bne _ _ _ => []
  | .blt _ _ _ => []
  | .bge _ _ _ => []
  | .bltu _ _ _ => []
  | .bgeu _ _ _ => []

/-- The instruction exists in this machine (R321 check 1). -/
def implemented (i : Instr) : Bool := (features i).all Feature.present

end Sys2Proof.Machine
end

