-- ==== Sys2Proof/Machine/Fetch.lean ====
section
/-! DEFINITION. Instruction fetch (20_memory.md R210, R215, R221; 60_exceptions.md R878 line 2; 13 R187, R191). -/

namespace Sys2Proof.Machine

/-- The effective address of the fetch: bits 63:32 are 0 in 32-bit address mode (11_csr_basic.md R93, D24). -/
def State.fetchVa (s : State) : Word := s.effVa s.pc

/-- An exception raised on the fetch itself has no instruction word: BADI receives any value (R867, #51; log 20). -/
def State.noWord (s : State) : State := { s with ir := low32 s.free }.drawn

/-- Fetch watchpoint `w` hits (13 R191). -/
def State.fwpHits (s : State) (w : Watchpoint) : Bool := s.watchArmed w && addrUnderMask w s.fetchVa

/-- FWPS replaced. -/
def State.setFwps (s : State) (v : BitVec 32) : State := s.setWatch { s.csr.watch with fwps := v }

/-- The fetch watchpoints, first of the fetch stage: a hit raises WPEF and sets its Status bits, unless Skip lets it
pass once (R187, R191, R876, R878). -/
def State.fetchWatched (s : State) (k : State → Out) : Out :=
  if hitMask s.fwpHits s.csr.watch.fwp = 0 then k s
  else if s.csr.watch.fwps.getLsbD 16 then k (s.setFwps (withBit s.csr.watch.fwps 16 false))
  else .next ((s.setFwps (s.csr.watch.fwps ||| hitMask s.fwpHits s.csr.watch.fwp)).noWord.raise
    (.wpef (debugOnlyHit s.fwpHits s.csr.watch.fwp)))

/-- Alignment, legality and translation of the four bytes of a fetch (R210, R251, R254). -/
def State.fetchPhys (s : State) : Res (List Phys) :=
  if s.fetchVa.toNat % 4 ≠ 0 ∨ !s.legal .fetch s.fetchVa then .exc (.adef s.fetchVa)
  else s.translateAll .fetch s.fetchVa (s.byteVas s.fetchVa 4)

/-- Some byte at these addresses may be seen with an earlier value (R221). -/
def State.fetchOpen (s : State) (pas : List Nat) : Bool := pas.any fun a => s.stale.any (·.1 == a)

/-- The word at the physical addresses: of present bytes, or a free choice among present and earlier ones (R221;
log 33). -/
def State.fetchWord (s : State) (pas : List Nat) : BitVec 32 :=
  s.fetchBytes (if s.fetchOpen pas then s.free.toNat else 0) pas

/-- The state after the fetch of a word: `ir` holds it, and a choice has been drawn where there was one. -/
def State.fetched (s : State) (pas : List Nat) : State :=
  { (if s.fetchOpen pas then s.drawn else s) with ir := s.fetchWord pas }

/-- A machine error that waits is taken on the fetch, last of the fetch stage (R868, R878; log 36). -/
def State.afterFetch (s : State) (k : State → Out) : Out :=
  match s.merrPending with
  | some r => .next ({ s with merrPending := none }.raiseMachineError r)
  | none => k s

/-- The fetch of the instruction at pc, and then `k`, with the word in `ir`. -/
def State.fetch (s : State) (k : State → Out) : Out :=
  s.fetchWatched fun t =>
    t.fetchPhys.run t.noWord fun ps => (t.fetched (physAddrs ps)).afterFetch k

/-- The word placed at the address of the fetch, no earlier value of its bytes left: for `withFetchWord`. -/
def State.placeWord (s : State) (w : BitVec 32) : State :=
  match s.fetchPhys with
  | .ok ps =>
    let t := s.storeBytes (physAddrs ps) (w.setWidth 64)
    { t with stale := t.stale.filter fun c => !(physAddrs ps).contains c.1 }
  | _ => s

end Sys2Proof.Machine
end

