-- ==== Sys2Proof/Machine/Run.lean ====
section
/-! DEFINITION. One instruction, from the interrupt check to its meaning (60_exceptions.md R878, R884;
30_encoding.md R320, R321). -/

namespace Sys2Proof.Machine

/-- The instruction whose word is in `ir`: INE where no row matches or the instruction does not exist, else its meaning
(R320, R321, R871). -/
noncomputable def State.runWord (s : State) : Out :=
  match decode s.ir with
  | none => .next (s.raise .ine)
  | some i => if implemented i then exec i s else .next (s.raise .ine)

/-- An interrupt where one is marked, else the instruction at pc (R878, R884). -/
noncomputable def State.runNext (s : State) : Out :=
  match s.interrupt with
  | some n => .next (s.raise (.int n))
  | none => s.fetch State.runWord

/-- The wait state of IDLE lasts until an interrupt wakes the core (49_privileged.md R849, D44). -/
noncomputable def State.runOrWait (s : State) : Out :=
  if s.waiting && !s.wakes then .next s else State.runNext { s with waiting := false }

/-- A step after its input: nothing has a meaning in a mode that the spec gives none (R73, R84; log 41, 42). -/
noncomputable def State.cycle (s : State) : Out :=
  match s.modeStop with
  | some r => .refused r
  | none => s.runOrWait

end Sys2Proof.Machine
end

