-- ==== Sys2Proof/Machine/Step.lean ====
section
/-! DEFINITION. One step of the machine: an input of the environment, then an interrupt, a wait or one instruction.
`noncomputable` says only that Lean compiles no program for it: the decoder builds constructors of `Instr` beyond the
number that compiled code can tag.  The kernel evaluates it (log 73). -/

namespace Sys2Proof.Machine

/-- One step. -/
noncomputable def step (s : State) : Host.Outcome State Fault Refusal := s.takeInput.cycle

/-- The state with the word `w` of `nbits` bits where the next step fetches, and not waiting (log 8). -/
def State.withFetchWord (s : State) (nbits w : Nat) : State :=
  { s with waiting := false }.placeWord (BitVec.ofNat 32 (w % 2 ^ nbits))

end Sys2Proof.Machine
end

