-- ==== Sys2Proof/Safety.lean ====
section
/-! DEFINITION. The terms in which claims are made: what every step keeps, what an instruction leaves as it was, and the
conditions under which an access or a floating-point operation completes. -/

namespace Sys2Proof.Machine

/-! ## What every step keeps -/

/-- Memory is in canonical form and holds nothing beyond the physical space (20_memory.md R200; R250). -/
def MemOk (s : State) : Prop := Memory.wf s.mem = true ∧ ∀ c ∈ s.mem, c.1 < 2 ^ Config.palen

/-- The TLB lists entries of the TLB alone, each once (49_privileged.md R830). -/
def TlbOk (s : State) : Prop := tlbWf s.tlb = true

/-- Each listed entry has a page size that PRCFG2 supports (12_csr_mmu.md R120; log 44). -/
def SizesOk (s : State) : Prop := pageSizeOk s.stlbPs.toNat = true ∧ ∀ e ∈ s.tlb, pageSizeOk (s.entryPs e) = true

/-- The reserved bits of the basic registers read 0 (11_csr_basic.md). -/
def BasicReservedOk (b : BasicCsrs) : Prop :=
  b.crmd &&& ~~~0x3FF#32 = 0 ∧ b.prmd &&& ~~~0xF#32 = 0 ∧ b.euen &&& ~~~0x1#32 = 0 ∧ b.misc &&& ~~~0x0007FEEE#32 = 0 ∧
  b.ecfg &&& ~~~0x00071FFF#32 = 0 ∧ b.estat &&& ~~~0x7FFF0803#32 = 0 ∧ b.eentry &&& 0xFFF#64 = 0 ∧
  b.rvacfg &&& ~~~0xF#32 = 0 ∧ b.llbctl &&& ~~~0x4#32 = 0

/-- The reserved bits of the translation registers read 0, and TLBEHI its sign extension (12_csr_mmu.md R110 to R120,
R128). -/
def MmuReservedOk (m : MmuCsrs) : Prop :=
  m.tlbidx &&& ~~~0xBF000FFF#32 = 0 ∧ m.tlbehi = (bits m.tlbehi 13 35 ++ 0#13).signExtend 64 ∧
  m.tlbelo0 &&& ~~~0xE000FFFFFFFFF07F#64 = 0 ∧ m.tlbelo1 &&& ~~~0xE000FFFFFFFFF07F#64 = 0 ∧ m.asid &&& ~~~0x3FF#32 = 0 ∧
  m.pgdl &&& 0xFFF#64 = 0 ∧ m.pgdh &&& 0xFFF#64 = 0 ∧ m.pwch &&& ~~~0xFFFFFF#32 = 0 ∧ m.stlbps &&& ~~~0x3F#32 = 0 ∧
  ∀ n : Fin 4, m.dmw[n] &&& ~~~0xF00000000000003F#64 = 0

/-- The reserved bits of the refill registers read 0, and TLBREHI its sign extension (12_csr_mmu.md R121 to R127). -/
def RefillReservedOk (r : RefillCsrs) : Prop :=
  r.entry &&& ~~~0xFFFFFFFFF000#64 = 0 ∧ r.era.getLsbD 1 = false ∧ r.elo0 &&& ~~~0xE000FFFFFFFFF07F#64 = 0 ∧
  r.elo1 &&& ~~~0xE000FFFFFFFFF07F#64 = 0 ∧ r.ehi = (bits r.ehi 13 35 ++ 0#7 ++ bits r.ehi 0 6).signExtend 64 ∧
  r.prmd &&& ~~~0x17#32 = 0

/-- The reserved bits of MWPS, FWPS and the watchpoints read 0 (13_csr_timer_ras_perf_watch_debug.md R181 to R190). -/
def WatchReservedOk (w : WatchCsrs) : Prop :=
  w.mwps &&& ~~~0x1000F#32 = 0 ∧ w.fwps &&& ~~~0x1000F#32 = 0 ∧
  ∀ n : Fin 4, w.mwp[n].cfg3 &&& ~~~0xF9F#32 = 0 ∧ w.mwp[n].cfg4 &&& ~~~0x3FF#32 = 0 ∧
    w.fwp[n].cfg3 &&& ~~~0x9F#32 = 0 ∧ w.fwp[n].cfg4 &&& ~~~0x3FF#32 = 0

/-- The fields that are R0 read 0 (10_state.md R41): the bits that no rule defines, in every control and status register
that has such bits, and in fcsr0. -/
def ReservedOk (s : State) : Prop :=
  BasicReservedOk s.csr.basic ∧ MmuReservedOk s.csr.mmu ∧ RefillReservedOk s.csr.refill ∧ WatchReservedOk s.csr.watch ∧
  s.csr.timer.tcfg.toNat < 2 ^ 48 ∧ s.csr.timer.tval.toNat < 2 ^ 48 ∧ s.csr.merr.ctl &&& ~~~0x00FF1FDF#32 = 0 ∧
  s.csr.merr.entry &&& ~~~0xFFFFFFFFF000#64 = 0 ∧ (∀ n : Fin 4, s.csr.perf.cfg[n] &&& ~~~0x1F03FF#32 = 0) ∧
  s.csr.dbgRegs.dbg &&& ~~~0x003F0F01#32 = 0 ∧ s.fcsr0 &&& ~~~fcsrDefined = 0

/-! ## What stays as it was -/

/-- Every general register is as it was. -/
def SameX (s t : State) : Prop := ∀ r, t.x r = s.x r
/-- Every floating-point register is as it was. -/
def SameF (s t : State) : Prop := ∀ r, t.f r = s.f r
/-- Every condition flag is as it was. -/
def SameCc (s t : State) : Prop := ∀ c, t.cc c = s.cc c
/-- fcsr0 is as it was. -/
def SameFcsr (s t : State) : Prop := t.fcsr0 = s.fcsr0
/-- Every byte of memory reads as it did. -/
def SameMem (s t : State) : Prop := ∀ a, t.byteAt a = s.byteAt a
/-- Every control and status register is as it was: status, mode, exception, translation, timer, debug registers. -/
def SameCsr (s t : State) : Prop := t.csr = s.csr
/-- LLbit and its address are as they were. -/
def SameLL (s t : State) : Prop := t.llbit = s.llbit ∧ t.llAddr = s.llAddr
/-- The Stable Counter, the TLB, the IOCSR registers, the interrupt lines, the wait state, a waiting machine error and the
coming inputs are as they were. -/
def SameUnits (s t : State) : Prop :=
  t.stable = s.stable ∧ t.tlb = s.tlb ∧ t.iocsr = s.iocsr ∧ t.hwi = s.hwi ∧ t.ipi = s.ipi ∧ t.waiting = s.waiting ∧
  t.merrPending = s.merrPending ∧ t.inputs = s.inputs

/-- All but the general registers and the pc is as it was. -/
def SameButX (s t : State) : Prop :=
  SameF s t ∧ SameCc s t ∧ SameFcsr s t ∧ SameMem s t ∧ t.stale = s.stale ∧ SameCsr s t ∧ SameLL s t ∧ SameUnits s t

/-- `rd` alone among the general registers holds `v`; as r0 it still reads 0 (10_state.md R20). -/
def OnlyX (s t : State) (rd : Reg) (v : Word) : Prop := ∀ r, t.x r = if r = rd ∧ rd ≠ 0 then v else s.x r

/-- `f[fd]` alone among the floating-point registers holds `v`. -/
def OnlyF (s t : State) (fd : FReg) (v : Word) : Prop := ∀ r, t.f r = if r = fd then v else s.f r

/-- `f[fd]` alone among the floating-point registers changes, and its low word is `v` (10_state.md R26). -/
def OnlyFs (s t : State) (fd : FReg) (v : BitVec 32) : Prop := t.fs fd = v ∧ ∀ r, r ≠ fd → t.f r = s.f r

/-- The next instruction in order is next. -/
def NextPc (s t : State) : Prop := t.pc = s.pc + 4

/-- The instruction completes with `v` in `rd` and goes on in order; nothing else changes. -/
def CompletesX (i : Instr) (s : State) (rd : Reg) (v : Word) : Prop :=
  ∃ t, exec i s = .next t ∧ OnlyX s t rd v ∧ NextPc s t ∧ SameButX s t

/-- The instruction completes, goes on in order, and changes nothing else. -/
def CompletesNothing (i : Instr) (s : State) : Prop :=
  ∃ t, exec i s = .next t ∧ SameX s t ∧ NextPc s t ∧ SameButX s t

/-- The instruction completes at the address `a`; nothing but the pc changes. -/
def CompletesAt (i : Instr) (s : State) (a : Word) : Prop :=
  ∃ t, exec i s = .next t ∧ t.pc = a ∧ SameX s t ∧ SameButX s t

/-- All but the floating-point registers, fcsr0 and the pc is as it was. -/
def SameButF (s t : State) : Prop :=
  SameX s t ∧ SameCc s t ∧ SameMem s t ∧ t.stale = s.stale ∧ SameCsr s t ∧ SameLL s t ∧ SameUnits s t

/-! ## Accesses -/

/-- No enabled load/store watchpoint matches the access (13 R185). -/
def Unwatched (s : State) (a : Access) : Prop := hitMask (s.mwpHits a) s.csr.watch.mwp = 0

/-- The access completes at the physical bytes `ps` (20_memory.md R215). -/
def Accesses (s : State) (a : Access) (ps : List Phys) : Prop := s.checkAccess a = .ok ps ∧ Unwatched s a

/-- The first byte of an access that does not translate raises `e` (R204; which page comes first: log 75). -/
def FirstRaises (s : State) (k : AccKind) (va : Word) (size : Nat) (e : Exc) : Prop :=
  ∃ n, n < size ∧ s.translate k va (s.effVa (va + BitVec.ofNat 64 n)) = .exc e ∧
    ∀ m, m < n → ∃ p, s.translate k va (s.effVa (va + BitVec.ofNat 64 m)) = .ok p

/-- The first byte of an access that does not translate stops the machine. -/
def FirstStops (s : State) (k : AccKind) (va : Word) (size : Nat) (r : Stop) : Prop :=
  ∃ n, n < size ∧ s.translate k va (s.effVa (va + BitVec.ofNat 64 n)) = .stop r ∧
    ∀ m, m < n → ∃ p, s.translate k va (s.effVa (va + BitVec.ofNat 64 m)) = .ok p

/-- Every byte of an access translates, byte `n` to `p n` (R204). -/
def BytesTranslate (s : State) (k : AccKind) (va : Word) (size : Nat) (p : Nat → Phys) : Prop :=
  ∀ n, n < size → s.translate k va (s.effVa (va + BitVec.ofNat 64 n)) = .ok (p n)

/-- The same machine with no load/store watchpoint set. -/
def State.unwatched (s : State) : State := s.setWatch { s.csr.watch with mwp := Vector.replicate _ Watchpoint.zero }

/-- Memory after a store of the low bytes of `v` at `as`, lowest first: byte `i` at the `i`-th address, where no later
byte of the store goes to the same address, and every other byte as it was (20_memory.md R204). -/
def Stored (s t : State) (as : List Nat) (v : Word) : Prop :=
  ∀ a, t.byteAt a = match (as.zipIdx.reverse.find? fun p => p.1 == a) with
    | some p => (v >>> (8 * p.2)).setWidth 8
    | none => s.byteAt a

/-- A store completes: its bytes are in memory, and nothing else but the pc changes. -/
def CompletesStore (i : Instr) (s : State) (as : List Nat) (v : Word) : Prop :=
  ∃ t, exec i s = .next t ∧ Stored s t as v ∧ NextPc s t ∧ SameX s t ∧ SameF s t ∧ SameCc s t ∧ SameFcsr s t ∧
    SameCsr s t ∧ SameLL s t ∧ SameUnits s t

/-- A load into `f[fd]` or a result that leaves fcsr0 alone: 64 bits. -/
def CompletesF (i : Instr) (s : State) (fd : FReg) (v : Word) : Prop :=
  ∃ t, exec i s = .next t ∧ OnlyF s t fd v ∧ NextPc s t ∧ SameFcsr s t ∧ SameButF s t

/-- A load into `f[fd]` or a result that leaves fcsr0 alone: 32 bits, the upper half open. -/
def CompletesFs (i : Instr) (s : State) (fd : FReg) (v : BitVec 32) : Prop :=
  ∃ t, exec i s = .next t ∧ OnlyFs s t fd v ∧ NextPc s t ∧ SameFcsr s t ∧ SameButF s t

/-! ## Counts of bits (41_int_shift_bit.md R401) -/

/-- `n` bits from bit `w - 1` of `x` down equal `b`, and the next of the low `w` bits does not. -/
def LeadsWith (b : Bool) (w : Nat) (x : Word) (n : Nat) : Prop :=
  n ≤ w ∧ (∀ k, k < n → x.getLsbD (w - 1 - k) = b) ∧ (n < w → x.getLsbD (w - 1 - n) = !b)

/-- `n` bits from bit 0 of `x` up equal `b`, and the next of the low `w` bits does not. -/
def TrailsWith (b : Bool) (w : Nat) (x : Word) (n : Nat) : Prop :=
  n ≤ w ∧ (∀ k, k < n → x.getLsbD k = b) ∧ (n < w → x.getLsbD n = !b)

/-! ## Memory instructions -/

/-- The number that the bytes at the addresses `as` make, lowest first (20_memory.md R203, R204). -/
def State.valueAt (s : State) : List Nat → Nat
  | [] => 0
  | a :: as => (s.byteAt a).toNat + 256 * s.valueAt as

/-- `n` bits, sign-extended. -/
def signedOf (n v : Nat) : Word := (BitVec.ofNat n v).signExtend 64
/-- `n` bits, zero-extended. -/
def unsignedOf (n v : Nat) : Word := (BitVec.ofNat n v).setWidth 64

/-- Wherever the access `a` completes, the load completes with the extended value of its bytes in `rd`. -/
def LoadsX (i : Instr) (s : State) (a : Access) (rd : Reg) (ext : Nat → Word) : Prop :=
  ∀ ps, Accesses s a ps → CompletesX i s rd (ext (s.valueAt (physAddrs ps)))

/-- Wherever the access `a` completes, the store completes with the low bytes of `v` in its bytes. -/
def StoresX (i : Instr) (s : State) (a : Access) (v : Word) : Prop :=
  ∀ ps, Accesses s a ps → CompletesStore i s (physAddrs ps) v

/-- A read-modify-write completes: `old` in `rd`, the low bytes of `new` at `as`, and nothing else changes (R540). -/
def CompletesRmw (i : Instr) (s : State) (rd : Reg) (old : Word) (as : List Nat) (new : Word) : Prop :=
  ∃ t, exec i s = .next t ∧ OnlyX s t rd old ∧ Stored s t as new ∧ NextPc s t ∧ SameF s t ∧ SameCc s t ∧
    SameFcsr s t ∧ SameCsr s t ∧ SameLL s t ∧ SameUnits s t

/-- A load-linked completes: `v` in `rd`, LLbit set, `va` recorded, and nothing else changes (R571). -/
def CompletesLinked (i : Instr) (s : State) (rd : Reg) (v va : Word) : Prop :=
  ∃ t, exec i s = .next t ∧ OnlyX s t rd v ∧ t.llbit = true ∧ t.llAddr = va ∧ NextPc s t ∧ SameF s t ∧ SameCc s t ∧
    SameFcsr s t ∧ SameMem s t ∧ SameCsr s t ∧ SameUnits s t

/-- A store-conditional completes: `flag` in `rd`, LLbit clear, memory as `m` says, and nothing else changes (R573). -/
def CompletesCond (i : Instr) (s : State) (rd : Reg) (flag : Word) (m : State → Prop) : Prop :=
  ∃ t, exec i s = .next t ∧ OnlyX s t rd flag ∧ t.llbit = false ∧ t.llAddr = s.llAddr ∧ m t ∧ NextPc s t ∧ SameF s t ∧
    SameCc s t ∧ SameFcsr s t ∧ SameCsr s t ∧ SameUnits s t

/-- Memory after SC.Q: the low half at the first eight bytes, the high half at the others (R575). -/
def StoredQ (s t : State) (as : List Nat) (lo hi : Word) : Prop :=
  ∃ u : State, Stored s u (as.take 8) lo ∧ Stored u t (as.drop 8) hi

/-! ## Floating-point operations (46_fp_arith.md R633) -/

/-- The floating-point unit is enabled (R630). -/
def FpOn (s : State) : Prop := s.csr.basic.euen.getLsbD 0 = true

/-- None of the exceptions `e` traps (R633). -/
def NoTrap (s : State) (e : FpExc) : Prop := e &&& s.fpEnables = 0

/-- fcsr0 after an untrapped operation that generates `e`: Cause is `e`, Flags have gained it, the rest stays (R633). -/
def FpRecorded (s t : State) (e : FpExc) : Prop :=
  t.fcsr0 = withBits (withBits s.fcsr0 24 e) 16 (s.fpFlags ||| e)

/-- An operation completes with the 64-bit result and the exceptions of `o` (R633). -/
def CompletesFpD (i : Instr) (s : State) (fd : FReg) (o : FpOut) : Prop :=
  ∃ t, exec i s = .next t ∧ OnlyF s t fd o.val ∧ FpRecorded s t o.exc ∧ NextPc s t ∧ SameButF s t

/-- An operation completes with the 32-bit result and the exceptions of `o` (R633). -/
def CompletesFpS (i : Instr) (s : State) (fd : FReg) (o : FpOut) : Prop :=
  ∃ t, exec i s = .next t ∧ OnlyFs s t fd (low32 o.val) ∧ FpRecorded s t o.exc ∧ NextPc s t ∧ SameButF s t

/-- A comparison completes with the truth `b` in `cfr[cd]` and the exceptions `e` (R633, R701). -/
def CompletesCc (i : Instr) (s : State) (cd : CReg) (b : Bool) (e : FpExc) : Prop :=
  ∃ t, exec i s = .next t ∧ (∀ c, t.cc c = if c = cd then b else s.cc c) ∧ FpRecorded s t e ∧ NextPc s t ∧
    SameX s t ∧ SameF s t ∧ SameMem s t ∧ SameCsr s t ∧ SameLL s t ∧ SameUnits s t

/-- An operation that generates the exceptions of `o` traps where one of them is enabled, its Cause recorded and nothing
else changed before; otherwise it completes with the 32-bit result of `o` (R633). -/
def FinishesS (i : Instr) (s : State) (fd : FReg) (o : FpOut) : Prop :=
  (NoTrap s o.exc → CompletesFpS i s fd o) ∧
    (¬NoTrap s o.exc → ∃ u, (u = s ∨ u = s.drawn) ∧ exec i s = .next ((u.setCause o.exc).raise .fpe))

/-- As `FinishesS`, with a 64-bit result (R633). -/
def FinishesD (i : Instr) (s : State) (fd : FReg) (o : FpOut) : Prop :=
  (NoTrap s o.exc → CompletesFpD i s fd o) ∧
    (¬NoTrap s o.exc → ∃ u, (u = s ∨ u = s.drawn) ∧ exec i s = .next ((u.setCause o.exc).raise .fpe))

/-- As `FinishesS`, of a comparison: the truth `b` into `cfr[cd]` (R633, R701). -/
def FinishesCc (i : Instr) (s : State) (cd : CReg) (b : Bool) (e : FpExc) : Prop :=
  (NoTrap s e → CompletesCc i s cd b e) ∧ (¬NoTrap s e → exec i s = .next ((s.setCause e).raise .fpe))

/-- The instruction completes with `b` in `cfr[cd]` and nothing else changed but the pc. -/
def MovesCc (i : Instr) (s : State) (cd : CReg) (b : Bool) : Prop :=
  ∃ t, exec i s = .next t ∧ (∀ c, t.cc c = if c = cd then b else s.cc c) ∧ NextPc s t ∧ SameX s t ∧ SameF s t ∧
    SameFcsr s t ∧ SameMem s t ∧ SameCsr s t ∧ SameLL s t ∧ SameUnits s t

/-- The instruction completes with `v` in fcsr0 and nothing else changed but the pc. -/
def MovesFcsr (i : Instr) (s : State) (v : BitVec 32) : Prop :=
  ∃ t, exec i s = .next t ∧ t.fcsr0 = v ∧ NextPc s t ∧ SameX s t ∧ SameF s t ∧ SameCc s t ∧ SameMem s t ∧
    SameCsr s t ∧ SameLL s t ∧ SameUnits s t

/-- The operand of FRECIPE or FRSQRTE is a number other than 0: its result may be an estimate (R680). -/
def FpEstimated (F : Fmt) (x : Word) : Prop := F.isFinite x = true ∧ F.isZero x = false

/-! ## The numbers that floating-point operations compute (46_fp_arith.md R634, R635, R653) -/

/-- The rational number that an exact value is. -/
def Exact.rat (v : Exact) : ℚ := (if v.neg then -1 else 1) * (v.m : ℚ) * (2 : ℚ) ^ v.e

/-- The rational number that a finite datum is (10_state.md R27). -/
def Fmt.num (F : Fmt) (w : Word) : ℚ := (F.value w).rat

/-- `o` is the number `q`, of the sign `zneg` where it is 0, rounded once (R634): the rounding of a value that lies as `q`
does among the numbers of p + 1 bits, which are all that a rounding to p bits or fewer compares with. -/
def Fmt.Rounds (F : Fmt) (rm : BitVec 2) (ue zneg : Bool) (q : ℚ) (o : FpOut) : Prop :=
  ∃ v : Exact, o = F.round rm ue v ∧ (v.neg = true ↔ if q = 0 then zneg = true else q < 0) ∧
    ∀ (n : Nat) (k : Int), n < 2 ^ (F.prec + 1) →
      (|v.rat| < n * 2 ^ k ↔ |q| < n * 2 ^ k) ∧ ((n : ℚ) * 2 ^ k < |v.rat| ↔ n * 2 ^ k < |q|)

/-- `o` is the result for operands of which one is a NaN, in order of priority: the first SNaN, quieted, with V, else the
first QNaN, with the exceptions `e` (R653). -/
def Fmt.PassesNan (F : Fmt) (ws : List Word) (e : FpExc) (o : FpOut) : Prop :=
  (∀ w, ws.find? F.isSnan = some w → o = ⟨w ||| 1#64 <<< (F.frac - 1), excV⟩) ∧
  (ws.find? F.isSnan = none → ∀ w, ws.find? F.isNan = some w → o = ⟨w, e⟩)

/-- A datum with its sign inverted. -/
def Fmt.opposite (F : Fmt) (w : Word) : Word := w ^^^ (1#64 <<< F.signBit)

/-- Addition and subtraction: NaNs, the rounded sum and difference of numbers, infinities, and V for infinities that cancel
(R634 to R639, R653). -/
def Fmt.SumsRight (F : Fmt) (qnan : Word) (rm : BitVec 2) (ue : Bool) (x y : Word) : Prop :=
  F.PassesNan [x, y] 0 (F.add rm ue x y) ∧ F.PassesNan [x, y] 0 (F.sub rm ue x y) ∧
  (F.isFinite x = true → F.isFinite y = true →
    F.Rounds rm ue (if F.sign x = F.sign y then F.sign x else rm == 3) (F.num x + F.num y) (F.add rm ue x y) ∧
    F.Rounds rm ue (if F.sign x = F.sign y then rm == 3 else F.sign x) (F.num x - F.num y) (F.sub rm ue x y)) ∧
  (F.isInf x = true → F.isFinite y = true → F.add rm ue x y = ⟨x, 0⟩ ∧ F.sub rm ue x y = ⟨x, 0⟩) ∧
  (F.isFinite x = true → F.isInf y = true → F.add rm ue x y = ⟨y, 0⟩ ∧ F.sub rm ue x y = ⟨F.opposite y, 0⟩) ∧
  (F.isInf x = true → F.isInf y = true →
    if F.sign x = F.sign y then F.add rm ue x y = ⟨x, 0⟩ ∧ F.sub rm ue x y = ⟨qnan, excV⟩
    else F.add rm ue x y = ⟨qnan, excV⟩ ∧ F.sub rm ue x y = ⟨x, 0⟩)

/-- Multiplication and division: NaNs, the rounded product and quotient of numbers, Z for a number divided by 0, infinities
and zeros, and V for 0 times an infinity, 0 by 0 and infinity by infinity; signs by exclusive or (R634, R635, R640 to R643,
R653). -/
def Fmt.ProductsRight (F : Fmt) (qnan : Word) (rm : BitVec 2) (ue : Bool) (x y : Word) : Prop :=
  F.PassesNan [x, y] 0 (F.mul rm ue x y) ∧ F.PassesNan [x, y] 0 (F.div rm ue x y) ∧
  ∀ neg : Bool, neg = (F.sign x != F.sign y) →
    (F.isFinite x = true → F.isFinite y = true → F.Rounds rm ue neg (F.num x * F.num y) (F.mul rm ue x y) ∧
      (F.isZero y = false → F.Rounds rm ue neg (F.num x / F.num y) (F.div rm ue x y)) ∧
      (F.isZero y = true →
        F.div rm ue x y = if F.isZero x = true then ⟨qnan, excV⟩ else ⟨F.inf neg, excZ⟩)) ∧
    (F.isInf x = true → F.isFinite y = true →
      F.mul rm ue x y = (if F.isZero y = true then ⟨qnan, excV⟩ else ⟨F.inf neg, 0⟩) ∧
        F.div rm ue x y = ⟨F.inf neg, 0⟩) ∧
    (F.isFinite x = true → F.isInf y = true →
      F.mul rm ue x y = (if F.isZero x = true then ⟨qnan, excV⟩ else ⟨F.inf neg, 0⟩) ∧
        F.div rm ue x y = ⟨F.pack neg 0, 0⟩) ∧
    (F.isInf x = true → F.isInf y = true → F.mul rm ue x y = ⟨F.inf neg, 0⟩ ∧ F.div rm ue x y = ⟨qnan, excV⟩)

/-- The fused x * y + z: NaNs in the order z, x, y; one rounding; V for 0 times an infinity, whatever z is, and for an
infinite product and the opposite infinity (R635, R644, R653; D39, log 60). -/
def Fmt.FusesRight (F : Fmt) (qnan : Word) (rm : BitVec 2) (ue : Bool) (x y z : Word) : Prop :=
  ∀ neg bad : Bool, neg = (F.sign x != F.sign y) →
    (bad = true ↔ (F.isZero x = true ∧ F.isInf y = true) ∨ (F.isInf x = true ∧ F.isZero y = true)) →
    F.PassesNan [z, x, y] (if bad then excV else 0) (F.fma rm ue x y z) ∧
    (F.isNan x = false → F.isNan y = false → F.isNan z = false →
      (bad = true → F.fma rm ue x y z = ⟨qnan, excV⟩) ∧
      (bad = false → F.isInf x = true ∨ F.isInf y = true →
        F.fma rm ue x y z = if F.isInf z = true ∧ F.sign z ≠ neg then ⟨qnan, excV⟩ else ⟨F.inf neg, 0⟩) ∧
      (F.isFinite x = true → F.isFinite y = true →
        (F.isInf z = true → F.fma rm ue x y z = ⟨z, 0⟩) ∧
        (F.isFinite z = true →
          F.Rounds rm ue (if neg = F.sign z then neg else rm == 3) (F.num x * F.num y + F.num z) (F.fma rm ue x y z))))

/-- The fused operations with the addend negated, the result negated, or both: those of FMADD, but that a NaN result may
have either sign (R644, R647 to R653; log 26). -/
def Fmt.FusesNegated (F : Fmt) (rm : BitVec 2) (ue pick : Bool) (x y z : Word) : Prop :=
  ∀ o p : FpOut, o = F.fma rm ue x y (F.opposite z) → p = F.fma rm ue x y z →
    ∀ q ∈ [(F.fms rm ue pick x y z, o, o.val), (F.fnms rm ue pick x y z, o, F.opposite o.val),
        (F.fnma rm ue pick x y z, p, F.opposite p.val)],
      q.1.exc = q.2.1.exc ∧ (if F.isNan q.2.1.val = true then F.mag q.1.val = F.mag q.2.1.val else q.1.val = q.2.2)

/-- Square root: the root of a number above 0 rounded once; a zero itself, +infinity itself, V below 0 (R672, R635, R653).
The value rounded lies among the numbers of p + 1 bits as the root does, whose square is the operand. -/
def Fmt.RootsRight (F : Fmt) (qnan : Word) (rm : BitVec 2) (ue : Bool) (x : Word) : Prop :=
  F.PassesNan [x] 0 (F.sqrt rm ue x) ∧ (F.isZero x = true → F.sqrt rm ue x = ⟨x, 0⟩) ∧
  (F.isNan x = false → F.isZero x = false → F.sign x = true → F.sqrt rm ue x = ⟨qnan, excV⟩) ∧
  (F.isInf x = true → F.sign x = false → F.sqrt rm ue x = ⟨x, 0⟩) ∧
  (F.isFinite x = true → F.isZero x = false → F.sign x = false →
    ∃ v : Exact, F.sqrt rm ue x = F.round rm ue v ∧ v.neg = false ∧ ∀ (n : Nat) (k : Int), n < 2 ^ (F.prec + 1) →
      (v.rat < n * 2 ^ k ↔ F.num x < ((n : ℚ) * 2 ^ k) ^ 2) ∧ ((n : ℚ) * 2 ^ k < v.rat ↔ ((n : ℚ) * 2 ^ k) ^ 2 < F.num x))

/-- Scaling by 2^n, rounded once; zeros and infinities stay (R685). -/
def Fmt.ScalesRight (F : Fmt) (rm : BitVec 2) (ue : Bool) (x : Word) (n : Int) : Prop :=
  F.PassesNan [x] 0 (F.scaleB rm ue x n) ∧ (F.isInf x = true ∨ F.isZero x = true → F.scaleB rm ue x n = ⟨x, 0⟩) ∧
  (F.isFinite x = true → F.isZero x = false → F.Rounds rm ue false (F.num x * 2 ^ n) (F.scaleB rm ue x n))

/-- The exponent of a number as a number, exactly; -infinity with Z of a zero, +infinity of an infinity; exponent 0 is +0
(R687; log 60). -/
def Fmt.LogsRight (F : Fmt) (x : Word) : Prop :=
  F.PassesNan [x] 0 (F.logB x) ∧ (F.isInf x = true → F.logB x = ⟨F.inf false, 0⟩) ∧
  (F.isZero x = true → F.logB x = ⟨F.inf true, excZ⟩) ∧
  (F.isFinite x = true → F.isZero x = false → ∀ l : Int, (2 : ℚ) ^ l ≤ |F.num x| → |F.num x| < (2 : ℚ) ^ (l + 1) →
    (F.logB x).exc = 0 ∧ F.isFinite (F.logB x).val = true ∧ F.num (F.logB x).val = l ∧ (l = 0 → (F.logB x).val = 0))

/-- Conversion to another format: a number rounded once, an infinity of the same sign (R724, R725). -/
def Fmt.ConvertsRight (F G : Fmt) (rm : BitVec 2) (ue : Bool) (x : Word) : Prop :=
  (F.isFinite x = true → G.Rounds rm ue (F.sign x) (F.num x) (F.convert G rm ue x)) ∧
  (F.isInf x = true → F.convert G rm ue x = ⟨G.inf (F.sign x), 0⟩)

/-- `n` is the number `q` rounded to an integer in the mode `rm`: the nearest, a tie to the even one; toward zero, up,
down (R634, R731). -/
def RoundedInt (rm : BitVec 2) (q : ℚ) (n : Int) : Prop :=
  (rm = 0 → |q - n| ≤ 1 / 2 ∧ (|q - n| = 1 / 2 → n % 2 = 0)) ∧ (rm = 1 → n = if q < 0 then ⌈q⌉ else ⌊q⌋) ∧
  (rm = 2 → n = ⌈q⌉) ∧ (rm = 3 → n = ⌊q⌋)

/-- Conversion to an integer of `w` bits: the rounded integer, I where it differs and is recorded, and V with any value
where it does not fit or the operand is no number (R731; log 23, 24). -/
def Fmt.ToSintRight (F : Fmt) (w : Nat) (rm : BitVec 2) (ie pick : Bool) (any x : Word) : Prop :=
  (F.isFinite x = false → F.toSint w rm ie pick any x = ⟨any, excV⟩) ∧
  (F.isFinite x = true → ∀ n : Int, RoundedInt rm (F.num x) n → F.toSint w rm ie pick any x =
    if -2 ^ (w - 1) ≤ n ∧ n < 2 ^ (w - 1) then
      ⟨BitVec.ofInt 64 n, if F.num x ≠ n ∧ (ie = true ∨ pick = true) then excI else 0⟩
    else ⟨any, excV⟩)

/-- Conversion to a number that is an integer: the rounded one, with the sign of the operand (R752; log 24). -/
def Fmt.ToIntegralRight (F : Fmt) (rm : BitVec 2) (ie pick : Bool) (x : Word) : Prop :=
  F.PassesNan [x] 0 (F.toIntegral rm ie pick x) ∧ (F.isInf x = true → F.toIntegral rm ie pick x = ⟨x, 0⟩) ∧
  (F.isFinite x = true → ∀ n : Int, RoundedInt rm (F.num x) n →
    F.isFinite (F.toIntegral rm ie pick x).val = true ∧ F.num (F.toIntegral rm ie pick x).val = n ∧
    F.sign (F.toIntegral rm ie pick x).val = F.sign x ∧
    (F.toIntegral rm ie pick x).exc = if F.num x ≠ n ∧ (ie = true ∨ pick = true) then excI else 0)

/-! ## Which operand a maximum or minimum prefers (46_fp_arith.md R654 to R662) -/

/-- `x` goes before `y`: the larger (`up`) or the smaller. -/
def FpBefore (up : Bool) (F : Fmt) (x y : Word) : Prop :=
  if up then F.order y < F.order x else F.order x < F.order y

/-- `x` goes before `y` by magnitude, and by value where the magnitudes are equal. -/
def FpBeforeMag (up : Bool) (F : Fmt) (x y : Word) : Prop :=
  (if up then F.mag y < F.mag x else F.mag x < F.mag y) ∨ (F.mag x = F.mag y ∧ FpBefore up F x y)

/-- What FMAX, FMIN, FMAXA and FMINA give for two operands (R654): an SNaN generates V and gives the NaN of R653, a number
beats a QNaN, and of two numbers one of them, ordered as asked; equal ones give either. -/
def FpSelects (F : Fmt) (before : Word → Word → Prop) (x y : Word) (o : FpOut) : Prop :=
  (F.isSnan x = true ∨ F.isSnan y = true → ∃ w, F.nanOf [x, y] = some ⟨w, excV⟩ ∧ o = ⟨w, excV⟩) ∧
  (F.isSnan x = false → F.isSnan y = false → o.exc = 0 ∧ (o.val = x ∨ o.val = y) ∧
    (F.isNan x = true → F.isNan y = false → o.val = y) ∧ (F.isNan x = false → F.isNan y = true → o.val = x) ∧
    (F.isNan x = true → F.isNan y = true → o.val = x) ∧
    (F.isNan x = false → F.isNan y = false → (before x y → o.val = x) ∧ (before y x → o.val = y)))

/-! ## Privileged instructions (49_privileged.md) -/

/-- An instruction on the register `c` completes: `old` in `rd`, `v` offered to `c`, and nothing else changes (R812 to
R815). -/
def CompletesCsr (i : Instr) (s : State) (rd : Reg) (old : Word) (c : CsrId) (v : Word) : Prop :=
  ∃ t, exec i s = .next t ∧ OnlyX s t rd old ∧ NextPc s t ∧ t.csr = (s.csrWrite c v).csr ∧
    t.llbit = (s.csrWrite c v).llbit ∧ t.llAddr = s.llAddr ∧ SameF s t ∧ SameCc s t ∧ SameFcsr s t ∧ SameMem s t ∧
    t.stale = s.stale ∧ SameUnits s t

/-- Offering a value to the register `c` may change what `d` reads: the register itself, and the views of other
registers that the spec names (R78, R117, R151, R154, R171; the message registers, log 38). -/
def CsrId.affects (c d : CsrId) : Bool :=
  c == d ||
    (match c, d with
      | .pgdl, .pgd | .pgdh, .pgd | .badv, .pgd | .tlbrbadv, .pgd | .tlbrera, .pgd => true
      | .tcfg, .tval | .ticlr, .estat | .pmcfg _, .estat | .pmcnt _, .estat => true
      | .msgis _, .msgis _ | .msgis _, .msgir | .msgie, .msgir => true
      | _, _ => false)

/-- The state with other translation registers, at the next instruction; nothing else differs. -/
def State.withMmu (s : State) (m : MmuCsrs) : State := { s with csr := { s.csr with mmu := m }, pc := s.pc + 4 }

/-- The state with other refill registers, at the next instruction; nothing else differs. -/
def State.withRefill (s : State) (r : RefillCsrs) : State :=
  { s with csr := { s.csr with refill := r }, pc := s.pc + 4 }

/-- The state with another TLB, at the next instruction; nothing else differs. -/
def State.withTlb (s : State) (l : List (Nat × TlbEntry)) : State := { s with tlb := l, pc := s.pc + 4 }

/-- The entries that match an address under the current ASID (21_address_translation.md R262). -/
def State.hitsOf (s : State) (va : Nat) : List (Nat × TlbEntry) :=
  s.tlb.filter fun e => (e.2.g || e.2.asid == bits s.csr.mmu.asid 0 10) &&
    decide (e.2.vppn.toNat * 2 ^ 13 / 2 ^ (s.entryPs e + 1) = va / 2 ^ (s.entryPs e + 1))

/-- TLBELO or TLBRELO holds the page `p` and the global bit `g`, its other bits 0 (12_csr_mmu.md R112). -/
def EloHolds (w : Word) (p : TlbPage) (g : Bool) : Prop :=
  pageOfElo w = p ∧ w.getLsbD 6 = g ∧ w &&& ~~~0xE000FFFFFFFFF07F#64 = 0

/-- The entry that TLBWR and TLBFILL make for index `i` from a page number register and two page registers (R837). -/
def EntryFrom (s : State) (i : Nat) (hi lo0 lo1 : Word) (ps : BitVec 6) (e : TlbEntry) : Prop :=
  e.asid = bits s.csr.mmu.asid 0 10 ∧ e.g = (lo0.getLsbD 6 && lo1.getLsbD 6) ∧ e.vppn = bits hi 13 35 ∧
    e.page0 = pageOfElo lo0 ∧ e.page1 = pageOfElo lo1 ∧ e.ps = (if i < 2048 then 0 else ps)

/-- What TLBWR and TLBFILL write at index `i`: from the refill registers in the refill context, else from TLBEHI and
TLBELO, or nothing where TLBIDX.NE is 1 (R837). -/
def EntryWritten (s : State) (i : Nat) (o : Option TlbEntry) : Prop :=
  (s.isTlbr = true → ∃ e, o = some e ∧
    EntryFrom s i s.csr.refill.ehi s.csr.refill.elo0 s.csr.refill.elo1 (bits s.csr.refill.ehi 0 6) e) ∧
  (s.isTlbr = false →
    (s.csr.mmu.tlbidx.getLsbD 31 = true → o = none) ∧
    (s.csr.mmu.tlbidx.getLsbD 31 = false → ∃ e, o = some e ∧
      EntryFrom s i s.csr.mmu.tlbehi s.csr.mmu.tlbelo0 s.csr.mmu.tlbelo1 (bits s.csr.mmu.tlbidx 24 6) e))

/-- The bad virtual address that the software page walk indexes by (R840). -/
def State.walkAddr (s : State) : Nat := (if s.isTlbr then s.csr.refill.badv else s.csr.basic.badv).toNat

/-- The address of entry `idx` of a table: entries of 8, 16, 24 or 32 bytes by PWCL.PTEWidth (R280). -/
def State.tableEntry (s : State) (base : Word) (idx : Nat) : Word :=
  base + BitVec.ofNat 64 (idx * (8 * ((bits s.csr.mmu.pwcl 30 2).toNat + 1)))

/-! ## The access of each memory instruction -/

/-- The data access that an instruction makes, where it makes one; CACOP aside.  AM* on words and doublewords with
rd = rj makes none (44_atomic_barrier.md R541), nor does a page walk below PLV0, past a huge page entry, or of a level
that does not exist (49_privileged.md R840, R841). -/
def State.accessOf (s : State) (i : Instr) : Option Access :=
  match i with
  | .ldB _ rj o | .ldBu _ rj o => some (s.ordLoad (s.addrSi12 rj o) 1)
  | .ldH _ rj o | .ldHu _ rj o => some (s.ordLoad (s.addrSi12 rj o) 2)
  | .ldW _ rj o | .ldWu _ rj o | .fldS _ rj o => some (s.ordLoad (s.addrSi12 rj o) 4)
  | .ldD _ rj o | .fldD _ rj o => some (s.ordLoad (s.addrSi12 rj o) 8)
  | .ldxB _ rj rk | .ldxBu _ rj rk => some (s.ordLoad (s.addrIndexed rj rk) 1)
  | .ldxH _ rj rk | .ldxHu _ rj rk => some (s.ordLoad (s.addrIndexed rj rk) 2)
  | .ldxW _ rj rk | .ldxWu _ rj rk | .fldxS _ rj rk => some (s.ordLoad (s.addrIndexed rj rk) 4)
  | .ldxD _ rj rk | .fldxD _ rj rk => some (s.ordLoad (s.addrIndexed rj rk) 8)
  | .ldptrW _ rj o => some (s.ordLoad (s.addrSi14 rj o) 4)
  | .ldptrD _ rj o => some (s.ordLoad (s.addrSi14 rj o) 8)
  | .stB _ rj o => some (s.ordStore (s.addrSi12 rj o) 1)
  | .stH _ rj o => some (s.ordStore (s.addrSi12 rj o) 2)
  | .stW _ rj o | .fstS _ rj o => some (s.ordStore (s.addrSi12 rj o) 4)
  | .stD _ rj o | .fstD _ rj o => some (s.ordStore (s.addrSi12 rj o) 8)
  | .stxB _ rj rk => some (s.ordStore (s.addrIndexed rj rk) 1)
  | .stxH _ rj rk => some (s.ordStore (s.addrIndexed rj rk) 2)
  | .stxW _ rj rk | .fstxS _ rj rk => some (s.ordStore (s.addrIndexed rj rk) 4)
  | .stxD _ rj rk | .fstxD _ rj rk => some (s.ordStore (s.addrIndexed rj rk) 8)
  | .stptrW _ rj o => some (s.ordStore (s.addrSi14 rj o) 4)
  | .stptrD _ rj o => some (s.ordStore (s.addrSi14 rj o) 8)
  | .ldgtB _ rj rk => some (s.boundLoad (s.x rj) 1 (s.boundGt rj rk))
  | .ldgtH _ rj rk => some (s.boundLoad (s.x rj) 2 (s.boundGt rj rk))
  | .ldgtW _ rj rk | .fldgtS _ rj rk => some (s.boundLoad (s.x rj) 4 (s.boundGt rj rk))
  | .ldgtD _ rj rk | .fldgtD _ rj rk => some (s.boundLoad (s.x rj) 8 (s.boundGt rj rk))
  | .ldleB _ rj rk => some (s.boundLoad (s.x rj) 1 (s.boundLe rj rk))
  | .ldleH _ rj rk => some (s.boundLoad (s.x rj) 2 (s.boundLe rj rk))
  | .ldleW _ rj rk | .fldleS _ rj rk => some (s.boundLoad (s.x rj) 4 (s.boundLe rj rk))
  | .ldleD _ rj rk | .fldleD _ rj rk => some (s.boundLoad (s.x rj) 8 (s.boundLe rj rk))
  | .stgtB _ rj rk => some (s.boundStore (s.x rj) 1 (s.boundGt rj rk))
  | .stgtH _ rj rk => some (s.boundStore (s.x rj) 2 (s.boundGt rj rk))
  | .stgtW _ rj rk | .fstgtS _ rj rk => some (s.boundStore (s.x rj) 4 (s.boundGt rj rk))
  | .stgtD _ rj rk | .fstgtD _ rj rk => some (s.boundStore (s.x rj) 8 (s.boundGt rj rk))
  | .stleB _ rj rk => some (s.boundStore (s.x rj) 1 (s.boundLe rj rk))
  | .stleH _ rj rk => some (s.boundStore (s.x rj) 2 (s.boundLe rj rk))
  | .stleW _ rj rk | .fstleS _ rj rk => some (s.boundStore (s.x rj) 4 (s.boundLe rj rk))
  | .stleD _ rj rk | .fstleD _ rj rk => some (s.boundStore (s.x rj) 8 (s.boundLe rj rk))
  | .amswapW rd rj _ | .amaddW rd rj _ | .amandW rd rj _ | .amorW rd rj _ | .amxorW rd rj _ | .ammaxW rd rj _
  | .amminW rd rj _ | .ammaxWu rd rj _ | .amminWu rd rj _ | .amswapDbW rd rj _ | .amaddDbW rd rj _
  | .amandDbW rd rj _ | .amorDbW rd rj _ | .amxorDbW rd rj _ | .ammaxDbW rd rj _ | .amminDbW rd rj _
  | .ammaxDbWu rd rj _ | .amminDbWu rd rj _ => if rd = rj then none else some (s.atomicAccess (s.x rj) 4)
  | .amswapD rd rj _ | .amaddD rd rj _ | .amandD rd rj _ | .amorD rd rj _ | .amxorD rd rj _ | .ammaxD rd rj _
  | .amminD rd rj _ | .ammaxDu rd rj _ | .amminDu rd rj _ | .amswapDbD rd rj _ | .amaddDbD rd rj _
  | .amandDbD rd rj _ | .amorDbD rd rj _ | .amxorDbD rd rj _ | .ammaxDbD rd rj _ | .amminDbD rd rj _
  | .ammaxDbDu rd rj _ | .amminDbDu rd rj _ => if rd = rj then none else some (s.atomicAccess (s.x rj) 8)
  | .amswapB _ rj _ | .amswapDbB _ rj _ | .amaddB _ rj _ | .amaddDbB _ rj _ | .amcasB _ rj _ | .amcasDbB _ rj _ =>
    some (s.atomicAccess (s.x rj) 1)
  | .amswapH _ rj _ | .amswapDbH _ rj _ | .amaddH _ rj _ | .amaddDbH _ rj _ | .amcasH _ rj _ | .amcasDbH _ rj _ =>
    some (s.atomicAccess (s.x rj) 2)
  | .amcasW _ rj _ | .amcasDbW _ rj _ => some (s.atomicAccess (s.x rj) 4)
  | .amcasD _ rj _ | .amcasDbD _ rj _ => some (s.atomicAccess (s.x rj) 8)
  | .llW _ rj o => some (s.linkedLoad (s.addrSi14 rj o) 4)
  | .llD _ rj o => some (s.linkedLoad (s.addrSi14 rj o) 8)
  | .llacqW _ rj => some (s.linkedLoad (s.x rj) 4)
  | .llacqD _ rj => some (s.linkedLoad (s.x rj) 8)
  | .scW _ rj o => some (s.condStore (s.addrSi14 rj o) 4)
  | .scD _ rj o => some (s.condStore (s.addrSi14 rj o) 8)
  | .screlW _ rj => some (s.condStore (s.x rj) 4)
  | .screlD _ rj => some (s.condStore (s.x rj) 8)
  | .scQ _ rj _ => some (s.condStore (s.x rj) 16)
  | .lddir _ rj level =>
    if s.plv ≠ 0 ∨ (s.x rj).getLsbD 6 = true then none
    else (s.dirFields level).map fun p => s.walkLoad (s.x rj + s.entryOffset (tableIndex s.walkVa p.1 p.2))
  | .ldpte rj seq =>
    if s.plv ≠ 0 ∨ (s.x rj).getLsbD 6 = true then none
    else some (s.walkLoad (s.x rj + s.entryOffset (s.pteIndex (seq.getLsbD 0))))
  | _ => none

/-! ## Inputs and the fetch -/

/-- What a fetch watchpoint lets pass: no watchpoint matches, or Skip was set and is now clear (13 R187, R191). -/
def FetchPasses (s u : State) : Prop :=
  (hitMask s.fwpHits s.csr.watch.fwp = 0 ∧ u = s) ∨
    (hitMask s.fwpHits s.csr.watch.fwp ≠ 0 ∧ s.csr.watch.fwps.getLsbD 16 = true ∧
      u = s.setFwps (withBit s.csr.watch.fwps 16 false))

/-- Nothing comes before the fetch: no wait, no interrupt, a mode that has a meaning (R878; log 41, 42). -/
def Fetches (s : State) : Prop := s.waiting = false ∧ s.modeStop = none ∧ s.interrupt = none

/-- The last of the bytes `l` that is written to `a`. -/
def lastWrite (l : List Host.Cell) (a : Nat) : Option Byte := (l.reverse.find? fun c => c.1 == a).map (·.2)

/-! ## Exceptions -/

/-- The instruction takes the exception `e` and has no other effect (60_exceptions.md R860). -/
def Raises (i : Instr) (s : State) (e : Exc) : Prop := exec i s = .next (s.raise e)

/-- General exception entry for the codes `ec`, `es` at the entry address `a` (R863): what is saved, what changes, what
stays. -/
def EnteredGeneral (s t : State) (ec : BitVec 6) (es : BitVec 9) (a : Word) : Prop :=
  t.pc = a ∧ t.csr.basic.era = s.effVa s.pc ∧
  bits t.csr.basic.prmd 0 2 = s.plv ∧ t.csr.basic.prmd.getLsbD 2 = s.ie ∧ t.csr.basic.prmd.getLsbD 3 = s.we ∧
  t.plv = 0 ∧ t.ie = false ∧ t.we = false ∧ t.da = s.da ∧ t.pg = s.pg ∧
  bits t.csr.basic.crmd 5 4 = bits s.csr.basic.crmd 5 4 ∧
  bits t.csr.basic.estat 16 6 = ec ∧ bits t.csr.basic.estat 22 9 = es ∧ bits t.csr.basic.estat 0 16 =
    bits s.csr.basic.estat 0 16 ∧
  SameX s t ∧ SameF s t ∧ SameCc s t ∧ SameFcsr s t ∧ SameMem s t ∧ SameLL s t ∧ SameUnits s t

end Sys2Proof.Machine
end

