-- ==== Sys2Proof/WellFormed.lean ====
section
/-! DEFINITION. When an instruction term has a word of its own.  Every field of every row takes every value of its
width, but for CSRXCHG, whose mask register cannot be r0 or r1: those words are CSRRD and CSRWR (30_encoding.md R311).
What a meaning refuses (a BSTRINS with msb < lsb, an INVTLB op above 6) is still a well-formed word. -/

namespace Sys2Proof

/-- The mask register of CSRXCHG is neither r0 nor r1 (30_encoding.md R311). -/
def csrMaskOk (rj : Reg) : Bool := rj != 0 && rj != 1

/-- The instruction has a word that decodes to it (30_encoding.md R311, R320). -/
def Instr.wf : Instr → Bool
  | .csrxchg _ rj _ => csrMaskOk rj
  | _ => true

end Sys2Proof
end

