-- ==== Sys2Proof/Certificates/Slice0/Obligations.lean ====
section
/-! DEFINITION. The statements for the provers, chapter by chapter of spec/.  The terms they are made in are those of
Safety.lean; OBLIGATIONS.json lists them with the rules they formalise. -/

section
open Sys2Proof Sys2Proof.Machine

/-! ## Integer arithmetic (40_int_arith.md) -/

/-- Addition, subtraction and shift-and-add (R341 to R350): the destination alone changes, results wrap. -/
def Obligations.IntAddSub : Prop :=
  ∀ (s : State) (rd rj rk : Reg) (si12 : BitVec 12) (si16 : BitVec 16) (sa2 : BitVec 2),
    CompletesX (.addW rd rj rk) s rd (((s.x rj).setWidth 32 + (s.x rk).setWidth 32).signExtend 64) ∧
    CompletesX (.addD rd rj rk) s rd (s.x rj + s.x rk) ∧
    CompletesX (.subW rd rj rk) s rd (((s.x rj).setWidth 32 - (s.x rk).setWidth 32).signExtend 64) ∧
    CompletesX (.subD rd rj rk) s rd (s.x rj - s.x rk) ∧
    CompletesX (.addiW rd rj si12) s rd (((s.x rj).setWidth 32 + si12.signExtend 32).signExtend 64) ∧
    CompletesX (.addiD rd rj si12) s rd (s.x rj + si12.signExtend 64) ∧
    CompletesX (.addu16iD rd rj si16) s rd (s.x rj + (si16 ++ 0#16).signExtend 64) ∧
    CompletesX (.alslW rd rj rk sa2) s rd
      ((((s.x rj).setWidth 32 <<< (sa2.toNat + 1)) + (s.x rk).setWidth 32).signExtend 64) ∧
    CompletesX (.alslWu rd rj rk sa2) s rd
      ((((s.x rj).setWidth 32 <<< (sa2.toNat + 1)) + (s.x rk).setWidth 32 : BitVec 32).setWidth 64) ∧
    CompletesX (.alslD rd rj rk sa2) s rd ((s.x rj <<< (sa2.toNat + 1)) + s.x rk)

/-- Immediate loads, comparisons and pc-relative addresses (R351 to R361); in 32-bit address mode a pc-relative result
is its low word, sign-extended (R93). -/
def Obligations.IntImmCompare : Prop :=
  ∀ (s : State) (rd rj rk : Reg) (si12 : BitVec 12) (si20 : BitVec 20),
    CompletesX (.lu12iW rd si20) s rd ((si20 ++ 0#12).signExtend 64) ∧
    CompletesX (.lu32iD rd si20) s rd (si20.signExtend 32 ++ (s.x rd).setWidth 32) ∧
    CompletesX (.lu52iD rd rj si12) s rd (si12 ++ (s.x rj).setWidth 52) ∧
    CompletesX (.slt rd rj rk) s rd (if (s.x rj).toInt < (s.x rk).toInt then 1 else 0) ∧
    CompletesX (.sltu rd rj rk) s rd (if (s.x rj).toNat < (s.x rk).toNat then 1 else 0) ∧
    CompletesX (.slti rd rj si12) s rd (if (s.x rj).toInt < si12.toInt then 1 else 0) ∧
    CompletesX (.sltui rd rj si12) s rd (if (s.x rj).toNat < (si12.signExtend 64).toNat then 1 else 0) ∧
    CompletesX (.pcaddi rd si20) s rd (s.linkVal (s.pc + (si20 ++ 0#2).signExtend 64)) ∧
    CompletesX (.pcaddu12i rd si20) s rd (s.linkVal (s.pc + (si20 ++ 0#12).signExtend 64)) ∧
    CompletesX (.pcaddu18i rd si20) s rd (s.linkVal (s.pc + (si20 ++ 0#18).signExtend 64)) ∧
    CompletesX (.pcalau12i rd si20) s rd
      (s.linkVal ((s.pc + (si20 ++ 0#12).signExtend 64) &&& ~~~0xFFF#64))

/-- Bitwise logic and conditional masks (R362 to R370, R445, R446): the immediates are zero-extended. -/
def Obligations.IntLogic : Prop :=
  ∀ (s : State) (rd rj rk : Reg) (ui12 : BitVec 12),
    CompletesX (.and rd rj rk) s rd (s.x rj &&& s.x rk) ∧
    CompletesX (.or rd rj rk) s rd (s.x rj ||| s.x rk) ∧
    CompletesX (.nor rd rj rk) s rd (~~~(s.x rj ||| s.x rk)) ∧
    CompletesX (.xor rd rj rk) s rd (s.x rj ^^^ s.x rk) ∧
    CompletesX (.andn rd rj rk) s rd (s.x rj &&& ~~~(s.x rk)) ∧
    CompletesX (.orn rd rj rk) s rd (s.x rj ||| ~~~(s.x rk)) ∧
    CompletesX (.andi rd rj ui12) s rd (s.x rj &&& (0#52 ++ ui12)) ∧
    CompletesX (.ori rd rj ui12) s rd (s.x rj ||| (0#52 ++ ui12)) ∧
    CompletesX (.xori rd rj ui12) s rd (s.x rj ^^^ (0#52 ++ ui12)) ∧
    CompletesX (.maskeqz rd rj rk) s rd (if s.x rk = 0 then 0 else s.x rj) ∧
    CompletesX (.masknez rd rj rk) s rd (if s.x rk = 0 then s.x rj else 0)

/-- Products, on the integers (R372 to R379). -/
def Obligations.IntMultiply : Prop :=
  ∀ (s : State) (rd rj rk : Reg) (a b : BitVec 32), a = (s.x rj).setWidth 32 → b = (s.x rk).setWidth 32 →
    CompletesX (.mulW rd rj rk) s rd ((BitVec.ofInt 32 (a.toInt * b.toInt)).signExtend 64) ∧
    CompletesX (.mulhW rd rj rk) s rd ((BitVec.ofInt 32 (a.toInt * b.toInt / 2 ^ 32)).signExtend 64) ∧
    CompletesX (.mulhWu rd rj rk) s rd ((BitVec.ofNat 32 (a.toNat * b.toNat / 2 ^ 32)).signExtend 64) ∧
    CompletesX (.mulD rd rj rk) s rd (BitVec.ofInt 64 ((s.x rj).toInt * (s.x rk).toInt)) ∧
    CompletesX (.mulhD rd rj rk) s rd (BitVec.ofInt 64 ((s.x rj).toInt * (s.x rk).toInt / 2 ^ 64)) ∧
    CompletesX (.mulhDu rd rj rk) s rd (BitVec.ofNat 64 ((s.x rj).toNat * (s.x rk).toNat / 2 ^ 64)) ∧
    CompletesX (.mulwDW rd rj rk) s rd (BitVec.ofInt 64 (a.toInt * b.toInt)) ∧
    CompletesX (.mulwDWu rd rj rk) s rd (BitVec.ofNat 64 (a.toNat * b.toNat))

/-- Quotients truncated toward zero and remainders with the sign of the dividend, for a divisor other than 0 (R381 to
R388); a division by 0 completes with some value in the destination, and nothing else changes (R380; log 14).  The words
are the low halves of the registers, whatever lies above, since DIV32 is 1 here (log 1).  That the most negative number
divided by -1 gives itself, with remainder 0 and no exception, is the model's choice (D29, marked in R380; log 65). -/
def Obligations.IntDivide : Prop :=
  ∀ (s : State) (rd rj rk : Reg),
    ((s.x rk).setWidth 32 ≠ 0#32 → ∀ a b : BitVec 32, a = (s.x rj).setWidth 32 → b = (s.x rk).setWidth 32 →
      CompletesX (.divW rd rj rk) s rd ((BitVec.ofInt 32 (a.toInt.tdiv b.toInt)).signExtend 64) ∧
      CompletesX (.modW rd rj rk) s rd ((BitVec.ofInt 32 (a.toInt.tmod b.toInt)).signExtend 64) ∧
      CompletesX (.divWu rd rj rk) s rd ((BitVec.ofNat 32 (a.toNat / b.toNat)).signExtend 64) ∧
      CompletesX (.modWu rd rj rk) s rd ((BitVec.ofNat 32 (a.toNat % b.toNat)).signExtend 64)) ∧
    (s.x rk ≠ 0 →
      CompletesX (.divD rd rj rk) s rd (BitVec.ofInt 64 ((s.x rj).toInt.tdiv (s.x rk).toInt)) ∧
      CompletesX (.modD rd rj rk) s rd (BitVec.ofInt 64 ((s.x rj).toInt.tmod (s.x rk).toInt)) ∧
      CompletesX (.divDu rd rj rk) s rd (BitVec.ofNat 64 ((s.x rj).toNat / (s.x rk).toNat)) ∧
      CompletesX (.modDu rd rj rk) s rd (BitVec.ofNat 64 ((s.x rj).toNat % (s.x rk).toNat))) ∧
    ((s.x rk).setWidth 32 = 0#32 →
      ∀ i ∈ [Instr.divW rd rj rk, .modW rd rj rk, .divWu rd rj rk, .modWu rd rj rk], ∃ v, CompletesX i s rd v) ∧
    (s.x rk = 0 →
      ∀ i ∈ [Instr.divD rd rj rk, .modD rd rj rk, .divDu rd rj rk, .modDu rd rj rk], ∃ v, CompletesX i s rd v)


/-! ## Shifts and bits (41_int_shift_bit.md) -/

/-- Shifts and rotations by a register or an immediate (R402 to R417): a register amount is taken modulo the width. -/
def Obligations.Shifts : Prop :=
  ∀ (s : State) (rd rj rk : Reg) (u5 : BitVec 5) (u6 : BitVec 6) (w : BitVec 32) (n m : Nat),
    w = (s.x rj).setWidth 32 → n = (s.x rk).toNat % 32 → m = (s.x rk).toNat % 64 →
    CompletesX (.sllW rd rj rk) s rd ((w <<< n).signExtend 64) ∧
    CompletesX (.srlW rd rj rk) s rd ((w >>> n).signExtend 64) ∧
    CompletesX (.sraW rd rj rk) s rd ((w.sshiftRight n).signExtend 64) ∧
    CompletesX (.rotrW rd rj rk) s rd ((w >>> n ||| w <<< (32 - n)).signExtend 64) ∧
    CompletesX (.slliW rd rj u5) s rd ((w <<< u5.toNat).signExtend 64) ∧
    CompletesX (.srliW rd rj u5) s rd ((w >>> u5.toNat).signExtend 64) ∧
    CompletesX (.sraiW rd rj u5) s rd ((w.sshiftRight u5.toNat).signExtend 64) ∧
    CompletesX (.rotriW rd rj u5) s rd ((w >>> u5.toNat ||| w <<< (32 - u5.toNat)).signExtend 64) ∧
    CompletesX (.sllD rd rj rk) s rd (s.x rj <<< m) ∧
    CompletesX (.srlD rd rj rk) s rd (s.x rj >>> m) ∧
    CompletesX (.sraD rd rj rk) s rd ((s.x rj).sshiftRight m) ∧
    CompletesX (.rotrD rd rj rk) s rd (s.x rj >>> m ||| s.x rj <<< (64 - m)) ∧
    CompletesX (.slliD rd rj u6) s rd (s.x rj <<< u6.toNat) ∧
    CompletesX (.srliD rd rj u6) s rd (s.x rj >>> u6.toNat) ∧
    CompletesX (.sraiD rd rj u6) s rd ((s.x rj).sshiftRight u6.toNat) ∧
    CompletesX (.rotriD rd rj u6) s rd (s.x rj >>> u6.toNat ||| s.x rj <<< (64 - u6.toNat))

/-- The count instructions give the count (R420 to R427, R401). -/
def Obligations.BitCounts : Prop :=
  ∀ (s : State) (rd rj : Reg) (n : Nat),
    (LeadsWith true 32 (s.x rj) n → CompletesX (.cloW rd rj) s rd (BitVec.ofNat 64 n)) ∧
    (LeadsWith false 32 (s.x rj) n → CompletesX (.clzW rd rj) s rd (BitVec.ofNat 64 n)) ∧
    (TrailsWith true 32 (s.x rj) n → CompletesX (.ctoW rd rj) s rd (BitVec.ofNat 64 n)) ∧
    (TrailsWith false 32 (s.x rj) n → CompletesX (.ctzW rd rj) s rd (BitVec.ofNat 64 n)) ∧
    (LeadsWith true 64 (s.x rj) n → CompletesX (.cloD rd rj) s rd (BitVec.ofNat 64 n)) ∧
    (LeadsWith false 64 (s.x rj) n → CompletesX (.clzD rd rj) s rd (BitVec.ofNat 64 n)) ∧
    (TrailsWith true 64 (s.x rj) n → CompletesX (.ctoD rd rj) s rd (BitVec.ofNat 64 n)) ∧
    (TrailsWith false 64 (s.x rj) n → CompletesX (.ctzD rd rj) s rd (BitVec.ofNat 64 n))

/-- Byte, halfword and bit reversals and the extensions, bit by bit of the result (R418, R419, R430 to R439): bit `i` of
the result is a bit of `x[rj]`. -/
def Obligations.ExtendAndReverse : Prop :=
  ∀ (s : State) (rd rj : Reg), ∀ p ∈ [
      (Instr.extWB rd rj, fun i => if i < 8 then i else 7),
      (.extWH rd rj, fun i => if i < 16 then i else 15),
      (.revb2H rd rj, fun i => if i < 16 then (i + 8) % 16 else if i < 32 then 16 + (i + 8) % 16 else 23),
      (.revb4H rd rj, fun i => i / 16 * 16 + (i + 8) % 16),
      (.revb2W rd rj, fun i => i / 32 * 32 + (3 - i / 8 % 4) * 8 + i % 8),
      (.revbD rd rj, fun i => (7 - i / 8) * 8 + i % 8),
      (.revh2W rd rj, fun i => i / 32 * 32 + (i + 16) % 32),
      (.revhD rd rj, fun i => (3 - i / 16) * 16 + i % 16),
      (.bitrev4B rd rj, fun i => if i < 32 then i / 8 * 8 + (7 - i % 8) else 24),
      (.bitrev8B rd rj, fun i => i / 8 * 8 + (7 - i % 8)),
      (.bitrevW rd rj, fun i => if i < 32 then 31 - i else 0),
      (.bitrevD rd rj, fun i => 63 - i)],
    ∃ v, CompletesX p.1 s rd v ∧ ∀ i, i < 64 → v.getLsbD i = (s.x rj).getLsbD (p.2 i)

/-- Byte picks and bit strings, bit by bit of the result (R428, R429, R440 to R444).  Which register BYTEPICK takes the
low part from is presumed (log 62), and that msb < lsb raises INE is the model's choice (log 51). -/
def Obligations.PickAndInsert : Prop :=
  ∀ (s : State) (rd rj rk : Reg) (sa2 : BitVec 2) (sa3 : BitVec 3) (m5 l5 : BitVec 5) (m6 l6 : BitVec 6),
    (∃ v : BitVec 32, CompletesX (.bytepickW rd rj rk sa2) s rd (v.signExtend 64) ∧ ∀ i, i < 32 → v.getLsbD i =
      if i < 8 * sa2.toNat then (s.x rj).getLsbD (32 - 8 * sa2.toNat + i) else (s.x rk).getLsbD (i - 8 * sa2.toNat)) ∧
    (∃ v, CompletesX (.bytepickD rd rj rk sa3) s rd v ∧ ∀ i, i < 64 → v.getLsbD i =
      if i < 8 * sa3.toNat then (s.x rj).getLsbD (64 - 8 * sa3.toNat + i) else (s.x rk).getLsbD (i - 8 * sa3.toNat)) ∧
    (if m5.toNat < l5.toNat then
      Raises (.bstrinsW rd rj m5 l5) s .ine ∧ Raises (.bstrpickW rd rj m5 l5) s .ine
    else
      (∃ v : BitVec 32, CompletesX (.bstrinsW rd rj m5 l5) s rd (v.signExtend 64) ∧ ∀ i, i < 32 → v.getLsbD i =
        if l5.toNat ≤ i ∧ i ≤ m5.toNat then (s.x rj).getLsbD (i - l5.toNat) else (s.x rd).getLsbD i) ∧
      (∃ v : BitVec 32, CompletesX (.bstrpickW rd rj m5 l5) s rd (v.signExtend 64) ∧ ∀ i, i < 32 → v.getLsbD i =
        if l5.toNat + i ≤ m5.toNat then (s.x rj).getLsbD (l5.toNat + i) else false)) ∧
    (if m6.toNat < l6.toNat then
      Raises (.bstrinsD rd rj m6 l6) s .ine ∧ Raises (.bstrpickD rd rj m6 l6) s .ine
    else
      (∃ v, CompletesX (.bstrinsD rd rj m6 l6) s rd v ∧ ∀ i, i < 64 → v.getLsbD i =
        if l6.toNat ≤ i ∧ i ≤ m6.toNat then (s.x rj).getLsbD (i - l6.toNat) else (s.x rd).getLsbD i) ∧
      (∃ v, CompletesX (.bstrpickD rd rj m6 l6) s rd v ∧ ∀ i, i < 64 → v.getLsbD i =
        if l6.toNat + i ≤ m6.toNat then (s.x rj).getLsbD (l6.toNat + i) else false))

/-! ## Branches and jumps (42_branch.md) -/

/-- Where a branch goes when its condition holds, and on in order when it does not; the links (R462 to R472).  In
32-bit address mode a link is its low word, sign-extended (R93).  That JIRL with rd = rj goes by the old value of rj is the
model's choice (D30, marked in R471; log 65). -/
def Obligations.BranchesAndJumps : Prop :=
  ∀ (s : State) (rd rj : Reg) (o16 : BitVec 16) (o21 : BitVec 21) (o26 : BitVec 26) (t16 t21 t26 n : Word),
    t16 = s.pc + (o16 ++ 0#2).signExtend 64 → t21 = s.pc + (o21 ++ 0#2).signExtend 64 →
    t26 = s.pc + (o26 ++ 0#2).signExtend 64 → n = s.pc + 4 →
    CompletesAt (.beq rj rd o16) s (if s.x rj = s.x rd then t16 else n) ∧
    CompletesAt (.bne rj rd o16) s (if s.x rj = s.x rd then n else t16) ∧
    CompletesAt (.blt rj rd o16) s (if (s.x rj).toInt < (s.x rd).toInt then t16 else n) ∧
    CompletesAt (.bge rj rd o16) s (if (s.x rd).toInt ≤ (s.x rj).toInt then t16 else n) ∧
    CompletesAt (.bltu rj rd o16) s (if (s.x rj).toNat < (s.x rd).toNat then t16 else n) ∧
    CompletesAt (.bgeu rj rd o16) s (if (s.x rd).toNat ≤ (s.x rj).toNat then t16 else n) ∧
    CompletesAt (.beqz rj o21) s (if s.x rj = 0 then t21 else n) ∧
    CompletesAt (.bnez rj o21) s (if s.x rj = 0 then n else t21) ∧
    CompletesAt (.b o26) s t26 ∧
    (∃ t, exec (.jirl rd rj o16) s = .next t ∧ OnlyX s t rd (s.linkVal n) ∧
      t.pc = s.x rj + (o16 ++ 0#2).signExtend 64 ∧ SameButX s t) ∧
    (∃ t, exec (.bl o26) s = .next t ∧ OnlyX s t 1 (s.linkVal n) ∧ t.pc = t26 ∧ SameButX s t)

/-! ## CRC and miscellaneous (45_crc_misc.md) -/

/-- Checksums (R600 to R608), one step of the division for each bit of the message, of a wide message the same as of its
bytes, lowest first, and configuration words (R616): words 1, 2, 3 and 6 are those of the reference configuration, which
is the model's choice (D1; log 1), undefined words read 0, and word 0 and the undefined fields are the model's 0 (log
32). -/
def Obligations.CrcAndCpucfg : Prop :=
  ∀ (s : State) (rd rj rk : Reg),
    CompletesX (.crcWBW rd rj rk) s rd ((crc32 0xEDB88320 8 (s.x rk) (s.x rj &&& 0xFF)).signExtend 64) ∧
    CompletesX (.crcWHW rd rj rk) s rd ((crc32 0xEDB88320 16 (s.x rk) (s.x rj &&& 0xFFFF)).signExtend 64) ∧
    CompletesX (.crcWWW rd rj rk) s rd ((crc32 0xEDB88320 32 (s.x rk) (s.x rj &&& 0xFFFFFFFF)).signExtend 64) ∧
    CompletesX (.crcWDW rd rj rk) s rd ((crc32 0xEDB88320 64 (s.x rk) (s.x rj)).signExtend 64) ∧
    CompletesX (.crccWBW rd rj rk) s rd ((crc32 0x82F63B78 8 (s.x rk) (s.x rj &&& 0xFF)).signExtend 64) ∧
    CompletesX (.crccWHW rd rj rk) s rd ((crc32 0x82F63B78 16 (s.x rk) (s.x rj &&& 0xFFFF)).signExtend 64) ∧
    CompletesX (.crccWWW rd rj rk) s rd ((crc32 0x82F63B78 32 (s.x rk) (s.x rj &&& 0xFFFFFFFF)).signExtend 64) ∧
    CompletesX (.crccWDW rd rj rk) s rd ((crc32 0x82F63B78 64 (s.x rk) (s.x rj)).signExtend 64) ∧
    CompletesX (.cpucfg rd rj) s rd ((Config.cpucfg (s.x rj)).signExtend 64) ∧
    (∀ p ∈ [(1#64, 0x03F2F2FE#32), (2, 0x7E60C00F), (3, 0xFC00), (6, 0x3F33)], s.x rj = p.1 →
      CompletesX (.cpucfg rd rj) s rd (p.2.signExtend 64)) ∧
    (6 < (s.x rj).toNat ∧ (s.x rj).toNat < 16 ∨ 20 < (s.x rj).toNat → CompletesX (.cpucfg rd rj) s rd 0) ∧
    (∀ poly c m : Word, crc32 poly 0 c m = (c ^^^ m).setWidth 32) ∧
    (∀ (poly c m v : Word) (n : Nat), v = (c &&& 0xFFFFFFFF) ^^^ m →
      crc32 poly (n + 1) c m = crc32 poly n 0 (if v.getLsbD 0 then (v >>> 1) ^^^ poly else v >>> 1)) ∧
    ∀ (poly c m : Word), ∀ n ∈ [16, 32, 64], poly.toNat < 2 ^ 32 → m.toNat < 2 ^ n →
      crc32 poly n c m = crc32 poly (n - 8) ((crc32 poly 8 c (m &&& 0xFF)).setWidth 64) (m >>> 8)



/-- System call, breakpoint and the assertions: the exceptions they take at every privilege level; an assertion that
holds does nothing (R609 to R611, R617).  The address recorded for a failed assertion is any value (log 21). -/
def Obligations.CallsAndAssertions : Prop :=
  ∀ (s : State) (code : BitVec 15) (rj rk : Reg),
    Raises (.syscall code) s .sys ∧ Raises (.brk code) s .brk ∧
    (if (s.x rj).toInt ≤ (s.x rk).toInt then CompletesNothing (.asrtleD rj rk) s
     else ∃ a, exec (.asrtleD rj rk) s = .next (s.drawn.raise (.bce a))) ∧
    (if (s.x rk).toInt < (s.x rj).toInt then CompletesNothing (.asrtgtD rj rk) s
     else ∃ a, exec (.asrtgtD rj rk) s = .next (s.drawn.raise (.bce a)))

/-! ## Loads and stores (43_load_store.md; 20_memory.md) -/

/-- Loads with a 12-bit offset, an index register or a 14-bit scaled offset: the little-endian value of the bytes,
extended (R483 to R489, R494 to R502, R505).  That memory is little-endian is presumed (R203; log 11). -/
def Obligations.Loads : Prop :=
  ∀ (s : State) (rd rj rk : Reg) (si12 : BitVec 12) (si14 : BitVec 14) (a x p : Word),
    a = s.x rj + si12.signExtend 64 → x = s.x rj + s.x rk → p = s.x rj + (si14 ++ 0#2).signExtend 64 →
    LoadsX (.ldB rd rj si12) s (s.ordLoad a 1) rd (signedOf 8) ∧
    LoadsX (.ldH rd rj si12) s (s.ordLoad a 2) rd (signedOf 16) ∧
    LoadsX (.ldW rd rj si12) s (s.ordLoad a 4) rd (signedOf 32) ∧
    LoadsX (.ldD rd rj si12) s (s.ordLoad a 8) rd (unsignedOf 64) ∧
    LoadsX (.ldBu rd rj si12) s (s.ordLoad a 1) rd (unsignedOf 8) ∧
    LoadsX (.ldHu rd rj si12) s (s.ordLoad a 2) rd (unsignedOf 16) ∧
    LoadsX (.ldWu rd rj si12) s (s.ordLoad a 4) rd (unsignedOf 32) ∧
    LoadsX (.ldxB rd rj rk) s (s.ordLoad x 1) rd (signedOf 8) ∧
    LoadsX (.ldxH rd rj rk) s (s.ordLoad x 2) rd (signedOf 16) ∧
    LoadsX (.ldxW rd rj rk) s (s.ordLoad x 4) rd (signedOf 32) ∧
    LoadsX (.ldxD rd rj rk) s (s.ordLoad x 8) rd (unsignedOf 64) ∧
    LoadsX (.ldxBu rd rj rk) s (s.ordLoad x 1) rd (unsignedOf 8) ∧
    LoadsX (.ldxHu rd rj rk) s (s.ordLoad x 2) rd (unsignedOf 16) ∧
    LoadsX (.ldxWu rd rj rk) s (s.ordLoad x 4) rd (unsignedOf 32) ∧
    LoadsX (.ldptrW rd rj si14) s (s.ordLoad p 4) rd (signedOf 32) ∧
    LoadsX (.ldptrD rd rj si14) s (s.ordLoad p 8) rd (unsignedOf 64)

/-- Stores: the low bytes of `x[rd]` at the bytes of the access, nothing else changed (R490 to R493, R500, R503, R504,
R506 to R509).  That memory is little-endian is presumed (R203; log 11). -/
def Obligations.Stores : Prop :=
  ∀ (s : State) (rd rj rk : Reg) (si12 : BitVec 12) (si14 : BitVec 14) (a x p : Word), MemOk s →
    a = s.x rj + si12.signExtend 64 → x = s.x rj + s.x rk → p = s.x rj + (si14 ++ 0#2).signExtend 64 →
    StoresX (.stB rd rj si12) s (s.ordStore a 1) (s.x rd) ∧ StoresX (.stH rd rj si12) s (s.ordStore a 2) (s.x rd) ∧
    StoresX (.stW rd rj si12) s (s.ordStore a 4) (s.x rd) ∧ StoresX (.stD rd rj si12) s (s.ordStore a 8) (s.x rd) ∧
    StoresX (.stxB rd rj rk) s (s.ordStore x 1) (s.x rd) ∧ StoresX (.stxH rd rj rk) s (s.ordStore x 2) (s.x rd) ∧
    StoresX (.stxW rd rj rk) s (s.ordStore x 4) (s.x rd) ∧ StoresX (.stxD rd rj rk) s (s.ordStore x 8) (s.x rd) ∧
    StoresX (.stptrW rd rj si14) s (s.ordStore p 4) (s.x rd) ∧ StoresX (.stptrD rd rj si14) s (s.ordStore p 8) (s.x rd)

/-- Bound-check loads and stores that pass their check (R512 to R528); that it compares unsigned is the model's choice
(log 52).  That memory is little-endian is presumed (R203; log 11). -/
def Obligations.BoundAccesses : Prop :=
  ∀ (s : State) (rd rj rk : Reg) (gt le : Bool) (v : Word), MemOk s →
    gt = decide ((s.x rk).toNat < (s.x rj).toNat) → le = decide ((s.x rj).toNat ≤ (s.x rk).toNat) → v = s.x rd →
    LoadsX (.ldgtB rd rj rk) s (s.boundLoad (s.x rj) 1 gt) rd (signedOf 8) ∧
    LoadsX (.ldgtH rd rj rk) s (s.boundLoad (s.x rj) 2 gt) rd (signedOf 16) ∧
    LoadsX (.ldgtW rd rj rk) s (s.boundLoad (s.x rj) 4 gt) rd (signedOf 32) ∧
    LoadsX (.ldgtD rd rj rk) s (s.boundLoad (s.x rj) 8 gt) rd (unsignedOf 64) ∧
    LoadsX (.ldleB rd rj rk) s (s.boundLoad (s.x rj) 1 le) rd (signedOf 8) ∧
    LoadsX (.ldleH rd rj rk) s (s.boundLoad (s.x rj) 2 le) rd (signedOf 16) ∧
    LoadsX (.ldleW rd rj rk) s (s.boundLoad (s.x rj) 4 le) rd (signedOf 32) ∧
    LoadsX (.ldleD rd rj rk) s (s.boundLoad (s.x rj) 8 le) rd (unsignedOf 64) ∧
    StoresX (.stgtB rd rj rk) s (s.boundStore (s.x rj) 1 gt) v ∧
    StoresX (.stgtH rd rj rk) s (s.boundStore (s.x rj) 2 gt) v ∧
    StoresX (.stgtW rd rj rk) s (s.boundStore (s.x rj) 4 gt) v ∧
    StoresX (.stgtD rd rj rk) s (s.boundStore (s.x rj) 8 gt) v ∧
    StoresX (.stleB rd rj rk) s (s.boundStore (s.x rj) 1 le) v ∧
    StoresX (.stleH rd rj rk) s (s.boundStore (s.x rj) 2 le) v ∧
    StoresX (.stleW rd rj rk) s (s.boundStore (s.x rj) 4 le) v ∧
    StoresX (.stleD rd rj rk) s (s.boundStore (s.x rj) 8 le) v

/-- A prefetch and DBAR do nothing; IBAR lets no fetch see an earlier value of a stored byte (R510, R511, R590 to
R592).  That DBAR has no effect on one core and every hint is hint 0 is deduced (log 54); that a prefetch matches no
watchpoint (D32; log 47) and that earlier values are what IBAR ends (log 33) are the model's choices. -/
def Obligations.PrefetchAndBarriers : Prop :=
  ∀ (s : State) (hint : BitVec 5) (h : BitVec 15) (rj rk : Reg) (si12 : BitVec 12),
    CompletesNothing (.preld hint rj si12) s ∧ CompletesNothing (.preldx hint rj rk) s ∧
    CompletesNothing (.dbar h) s ∧
    ∃ t, exec (.ibar h) s = .next t ∧ t.stale = [] ∧ SameX s t ∧ NextPc s t ∧ SameF s t ∧ SameCc s t ∧ SameFcsr s t ∧
      SameMem s t ∧ SameCsr s t ∧ SameLL s t ∧ SameUnits s t

/-- In direct address translation mode an access that is aligned where it must be, passes its bound check and meets no
watchpoint completes at the low 48 bits of its addresses (R250, R254, R204); that byte addresses wrap at 2^64 is the
model's choice (log 76).  Of mapped mode `AccessChecksInOrder` says the same. -/
def Obligations.DirectModeAccess : Prop :=
  ∀ (s : State) (a : Access), s.da = true → s.pg = false → s.rbits ≤ 8 → s.directMat a.kind ≠ 3 →
    (s.alignChecked a.align = true → a.va.toNat % a.size = 0) → a.boundOk = true → Unwatched s a →
    Accesses s a ((List.range a.size).map fun n =>
      ⟨(s.effVa (a.va + BitVec.ofNat 64 n)).toNat % 2 ^ 48, s.directMat a.kind⟩)

/-- The checks of a data access come in the order alignment, address legality, bound, translation, memory access type,
and an access that passes them, unwatched, completes at the bytes that its own translate to (R204, R212 to R215, R252,
R512).  In every mode: with `Translation` this says when a mapped access completes.  The model's choices: legality is
tested on every byte (log 74), the first byte in order that does not translate decides the exception (log 75), byte
addresses wrap (log 76), and bytes of different memory access types raise ALE whether pages or windows map them (log 79).
An address is legal in direct mode, in a direct mapping window that hits, and where its bits from VALEN - RBits up equal the
one below (R251, R252; VALEN where the source prints PALEN: C10); that no privilege level has a range of its own is the
model's choice (D3, marked in R253; log 50). -/
def Obligations.AccessChecksInOrder : Prop :=
  ∀ (s : State) (a : Access), s.da ≠ s.pg → s.rbits ≤ 8 →
    (∀ (k : AccKind) (va : Word) (v : Nat), v = 48 - (bits s.csr.basic.rvacfg 0 4).toNat →
      (s.legal k va = true ↔ s.da = true ∨
        (∃ w ∈ s.csr.mmu.dmw.toList.take (if k = .fetch then 2 else 4),
          bits va 60 4 = bits w 60 4 ∧ w.getLsbD s.plv.toNat = true) ∨
        ∀ n, v ≤ n → n < 64 → va.getLsbD n = va.getLsbD (v - 1))) ∧
    (s.alignChecked a.align = true → a.va.toNat % a.size ≠ 0 → s.checkAccess a = .exc (.ale a.va)) ∧
    ((s.alignChecked a.align = true → a.va.toNat % a.size = 0) →
      ((∃ n, n < a.size ∧ s.legal a.kind (s.effVa (a.va + BitVec.ofNat 64 n)) = false) →
        s.checkAccess a = .exc (.adem a.va)) ∧
      ((∀ n, n < a.size → s.legal a.kind (s.effVa (a.va + BitVec.ofNat 64 n)) = true) →
        (a.boundOk = false → s.checkAccess a = .exc (.bce a.va)) ∧
        (a.boundOk = true →
          (∀ e, FirstRaises s a.kind a.va a.size e → s.checkAccess a = .exc e) ∧
          (∀ r, FirstStops s a.kind a.va a.size r → s.checkAccess a = .stop r) ∧
          ∀ p, BytesTranslate s a.kind a.va a.size p →
            ((∃ n, n < a.size ∧ (p n).mat ≠ (p 0).mat) → s.checkAccess a = .exc (.ale a.va)) ∧
            ((∀ n, n < a.size → (p n).mat = (p 0).mat) →
              s.checkAccess a = .ok ((List.range a.size).map p) ∧
              (Unwatched s a → Accesses s a ((List.range a.size).map p))))))

/-- Storing bytes and loading them again gives the value stored, where the bytes are distinct (R200, R203, R204; the byte
order: log 11). -/
def Obligations.LoadAfterStore : Prop :=
  ∀ (s : State) (as : List Nat) (v : Word), MemOk s → as.Nodup →
    (s.storeBytes as v).valueAt as = v.toNat % 2 ^ (8 * as.length) ∧
    ∀ a, a ∉ as → (s.storeBytes as v).byteAt a = s.byteAt a

/-! ## Atomic accesses (44_atomic_barrier.md) -/

/-- AM* on words and doublewords, plain and `_DB`: the old value to rd, the operation's result to memory (R540 to R564,
R950 to R967).  With rd = rj they raise INE before any access; with rd = rk, not r0, the two values written are any
values (log 15).  That the access is checked as a store is the model's choice (D33; log 45).  That memory is
little-endian is presumed (R203; log 11). -/
def Obligations.AtomicWordDouble : Prop :=
  ∀ (s : State) (rd rj rk : Reg) (ps qs : List Phys) (k : BitVec 32), MemOk s → k = (s.x rk).setWidth 32 →
    (∀ p ∈ [((Instr.amswapW, Instr.amswapDbW), fun (_ v : BitVec 32) => v), ((.amaddW, .amaddDbW), (· + ·)),
        ((.amandW, .amandDbW), (· &&& ·)), ((.amorW, .amorDbW), (· ||| ·)), ((.amxorW, .amxorDbW), (· ^^^ ·)),
        ((.ammaxW, .ammaxDbW), fun m v => if m.toInt < v.toInt then v else m),
        ((.amminW, .amminDbW), fun m v => if v.toInt < m.toInt then v else m),
        ((.ammaxWu, .ammaxDbWu), fun m v => if m.toNat < v.toNat then v else m),
        ((.amminWu, .amminDbWu), fun m v => if v.toNat < m.toNat then v else m)],
      ∀ i ∈ [p.1.1 rd rj rk, p.1.2 rd rj rk],
        (rd = rj → Raises i s .ine) ∧
        (rd ≠ rj → Accesses s (s.atomicAccess (s.x rj) 4) ps →
          (rd ≠ rk ∨ rd = 0 → ∀ old : BitVec 32, old = BitVec.ofNat 32 (s.valueAt (physAddrs ps)) →
            CompletesRmw i s rd (old.signExtend 64) (physAddrs ps) ((p.2 old k).setWidth 64)) ∧
          (rd = rk → rd ≠ 0 → ∃ v m, CompletesRmw i s rd v (physAddrs ps) m))) ∧
    (∀ p ∈ [((Instr.amswapD, Instr.amswapDbD), fun (_ v : BitVec 64) => v), ((.amaddD, .amaddDbD), (· + ·)),
        ((.amandD, .amandDbD), (· &&& ·)), ((.amorD, .amorDbD), (· ||| ·)), ((.amxorD, .amxorDbD), (· ^^^ ·)),
        ((.ammaxD, .ammaxDbD), fun m v => if m.toInt < v.toInt then v else m),
        ((.amminD, .amminDbD), fun m v => if v.toInt < m.toInt then v else m),
        ((.ammaxDu, .ammaxDbDu), fun m v => if m.toNat < v.toNat then v else m),
        ((.amminDu, .amminDbDu), fun m v => if v.toNat < m.toNat then v else m)],
      ∀ i ∈ [p.1.1 rd rj rk, p.1.2 rd rj rk],
        (rd = rj → Raises i s .ine) ∧
        (rd ≠ rj → Accesses s (s.atomicAccess (s.x rj) 8) qs →
          (rd ≠ rk ∨ rd = 0 → ∀ old : BitVec 64, old = BitVec.ofNat 64 (s.valueAt (physAddrs qs)) →
            CompletesRmw i s rd old (physAddrs qs) (p.2 old (s.x rk))) ∧
          (rd = rk → rd ≠ 0 → ∃ v m, CompletesRmw i s rd v (physAddrs qs) m)))

/-- AMSWAP and AMADD on bytes and halfwords, plain and `_DB`; rd = rj raises nothing (R541, R565 to R569, R968 to R971);
with rd = rk, not r0, the two values written are any values (log 15, 53).  That the access is checked as a store is the
model's choice (D33; log 45).  That memory is little-endian is presumed (R203; log 11). -/
def Obligations.AtomicByteHalf : Prop :=
  ∀ (s : State) (rd rj rk : Reg) (n : Nat) (ps : List Phys) (v : Nat), MemOk s → (n = 1 ∨ n = 2) →
    Accesses s (s.atomicAccess (s.x rj) n) ps → v = s.valueAt (physAddrs ps) →
    ∀ p ∈ (if n = 1 then
        [(Instr.amswapB rd rj rk, s.x rk), (.amswapDbB rd rj rk, s.x rk),
          (.amaddB rd rj rk, BitVec.ofNat 64 v + s.x rk), (.amaddDbB rd rj rk, BitVec.ofNat 64 v + s.x rk)]
      else
        [(Instr.amswapH rd rj rk, s.x rk), (.amswapDbH rd rj rk, s.x rk),
          (.amaddH rd rj rk, BitVec.ofNat 64 v + s.x rk), (.amaddDbH rd rj rk, BitVec.ofNat 64 v + s.x rk)]),
      (rd ≠ rk ∨ rd = 0 → CompletesRmw p.1 s rd (signedOf (8 * n) v) (physAddrs ps) p.2) ∧
      (rd = rk → rd ≠ 0 → ∃ w m, CompletesRmw p.1 s rd w (physAddrs ps) m)

/-- AMCAS, plain and `_DB`: rk is stored where the bytes equal the low bytes of the old rd; rd receives the bytes (R583
to R587, R972 to R975).  The model's choices: rd = rj raises nothing (D36; log 53), and an AMCAS that stores nothing is
still checked as a store (D33; log 45).  That memory is little-endian is presumed (R203; log 11). -/
def Obligations.CompareAndSwap : Prop :=
  ∀ (s : State) (rd rj rk : Reg) (ps : List Phys) (v : Nat), MemOk s → v = s.valueAt (physAddrs ps) →
    ∀ p ∈ [(1, Instr.amcasB rd rj rk), (1, .amcasDbB rd rj rk), (2, .amcasH rd rj rk), (2, .amcasDbH rd rj rk),
        (4, .amcasW rd rj rk), (4, .amcasDbW rd rj rk), (8, .amcasD rd rj rk), (8, .amcasDbD rd rj rk)],
      Accesses s (s.atomicAccess (s.x rj) p.1) ps →
      CompletesRmw p.2 s rd (signedOf (8 * p.1) v) (if v = (s.x rd).toNat % 2 ^ (8 * p.1) then physAddrs ps else [])
        (s.x rk)

/-- LL and LLACQ of coherent cached memory: the value to rd, LLbit set, the address recorded; of other memory some value
(R570 to R572, R576, R577, R581).  That other memory sets LLbit and the address as well is the model's choice (log 16);
the scaled offset is presumed (log 63).  That memory is little-endian is presumed (R203; log 11). -/
def Obligations.LoadLinked : Prop :=
  ∀ (s : State) (rd rj : Reg) (si14 : BitVec 14) (ps : List Phys) (v : Nat), v = s.valueAt (physAddrs ps) →
    ∀ p ∈ [(4, Instr.llW rd rj si14, s.x rj + (si14 ++ 0#2).signExtend 64), (4, .llacqW rd rj, s.x rj),
        (8, .llD rd rj si14, s.x rj + (si14 ++ 0#2).signExtend 64), (8, .llacqD rd rj, s.x rj)],
      Accesses s (s.linkedLoad p.2.2 p.1) ps →
      if ∀ q ∈ ps, q.mat = 1 then CompletesLinked p.2.1 s rd (signedOf (8 * p.1) v) (s.effVa p.2.2)
      else ∃ w, CompletesLinked p.2.1 s rd w (s.effVa p.2.2)

/-- SC, SCREL and SC.Q on coherent cached memory: the store happens when LLbit is 1, rd receives LLbit, LLbit is cleared;
on other memory it may happen or not, and rd receives 0 or 1 (R573 to R575, R578 to R581).  The model's choices: the
store depends on LLbit alone and LLbit is always cleared (D34; log 45), on other memory too, where rd receives 0 or 1
(log 16).  The scaled offset is presumed (log 63).  That memory is little-endian is presumed (R203; log 11). -/
def Obligations.StoreConditional : Prop :=
  ∀ (s : State) (rd rj rk : Reg) (si14 : BitVec 14) (ps : List Phys), MemOk s →
    (∀ p ∈ [(4, Instr.scW rd rj si14, s.x rj + (si14 ++ 0#2).signExtend 64), (4, .screlW rd rj, s.x rj),
        (8, .scD rd rj si14, s.x rj + (si14 ++ 0#2).signExtend 64), (8, .screlD rd rj, s.x rj)],
      Accesses s (s.condStore p.2.2 p.1) ps →
      if ∀ q ∈ ps, q.mat = 1 then
        (s.llbit = true → CompletesCond p.2.1 s rd 1 fun t => Stored s t (physAddrs ps) (s.x rd)) ∧
        (s.llbit = false → CompletesCond p.2.1 s rd 0 fun t => SameMem s t)
      else ∃ b, (b = 0 ∨ b = 1) ∧
        CompletesCond p.2.1 s rd b fun t => SameMem s t ∨ Stored s t (physAddrs ps) (s.x rd)) ∧
    (Accesses s (s.condStore (s.x rj) 16) ps →
      if ∀ q ∈ ps, q.mat = 1 then
        (s.llbit = true → CompletesCond (.scQ rd rj rk) s rd 1 fun t => StoredQ s t (physAddrs ps) (s.x rd) (s.x rk)) ∧
        (s.llbit = false → CompletesCond (.scQ rd rj rk) s rd 0 fun t => SameMem s t)
      else ∃ b, (b = 0 ∨ b = 1) ∧ CompletesCond (.scQ rd rj rk) s rd b fun t =>
        SameMem s t ∨ StoredQ s t (physAddrs ps) (s.x rd) (s.x rk))

/-! ## Floating-point (46_fp_arith.md, 47_fp_cmp_cvt.md, 48_fp_move_branch_mem.md) -/

/-- Rounding to a whole number of units of `2^q` (R634): exact where nothing is cut off; toward zero, never away from it;
toward an infinity, never below or above; to nearest, by at most half a unit, a tie to the even one.  With `m` and `n`
units cut and kept, the value lies between `n * 2^d` and `(n + 1) * 2^d` in units of its own exponent. -/
def Obligations.RoundingOfUnits : Prop :=
  ∀ (rm : BitVec 2) (v : Exact) (q : Int) (n d : Nat) (x : Bool), roundUnits rm v q = (n, x) →
    (q ≤ v.e → n = v.m * 2 ^ (v.e - q).toNat ∧ x = false) ∧
    (v.e < q → d = (q - v.e).toNat →
      (x = false ↔ v.m = n * 2 ^ d) ∧
      (rm = 0 → 2 * v.m ≤ (2 * n + 1) * 2 ^ d ∧ 2 * n * 2 ^ d ≤ 2 * v.m + 2 ^ d ∧
        (2 * v.m = (2 * n + 1) * 2 ^ d ∨ 2 * n * 2 ^ d = 2 * v.m + 2 ^ d → n % 2 = 0)) ∧
      (rm = 1 ∨ (rm = 2 ∧ v.neg = true) ∨ (rm = 3 ∧ v.neg = false) → n * 2 ^ d ≤ v.m ∧ v.m < (n + 1) * 2 ^ d) ∧
      ((rm = 2 ∧ v.neg = false) ∨ (rm = 3 ∧ v.neg = true) → v.m ≤ n * 2 ^ d ∧ n * 2 ^ d < v.m + 2 ^ d))

/-- A value that the format holds is its own rounding in every mode, and generates nothing (R634). -/
def Obligations.RoundingIsExact : Prop :=
  ∀ F ∈ [single, double], ∀ (w : Word) (rm : BitVec 2), w.toNat < 2 ^ (F.signBit + 1) → F.isFinite w = true →
    F.round rm false (F.value w) = ⟨w, 0⟩

/-- FADD, FSUB, FMUL, FDIV and FMADD: the operation of the rounding mode on the operands, finished as R633 says (R634 to
R646).  Of numbers the operation is the exact sum, difference, product, quotient or x * y + z rounded once; V, Z,
infinities and NaNs are as R635 and R653 have them.  A single result leaves the upper half of the register open (R632).
The model's choices: on a trap Cause holds every exception generated, and Flags and the destination stay (D11, marked in
R633; log 59); a product of 0 and an infinity with a QNaN addend generates V (D39, marked in R635; log 60). -/
def Obligations.FpArithmetic : Prop :=
  ∀ (s : State) (fd fj fk fa : FReg) (rm : BitVec 2) (ue : Bool) (x y z : Word), FpOn s → rm = s.fpRm →
    ue = s.fpEnables.getLsbD 1 → x = (s.fs fj).setWidth 64 → y = (s.fs fk).setWidth 64 → z = (s.fs fa).setWidth 64 →
    FinishesS (.faddS fd fj fk) s fd (single.add rm ue x y) ∧ FinishesS (.fsubS fd fj fk) s fd (single.sub rm ue x y) ∧
    FinishesS (.fmulS fd fj fk) s fd (single.mul rm ue x y) ∧ FinishesS (.fdivS fd fj fk) s fd (single.div rm ue x y) ∧
    FinishesS (.fmaddS fd fj fk fa) s fd (single.fma rm ue x y z) ∧
    FinishesD (.faddD fd fj fk) s fd (double.add rm ue (s.f fj) (s.f fk)) ∧
    FinishesD (.fsubD fd fj fk) s fd (double.sub rm ue (s.f fj) (s.f fk)) ∧
    FinishesD (.fmulD fd fj fk) s fd (double.mul rm ue (s.f fj) (s.f fk)) ∧
    FinishesD (.fdivD fd fj fk) s fd (double.div rm ue (s.f fj) (s.f fk)) ∧
    FinishesD (.fmaddD fd fj fk fa) s fd (double.fma rm ue (s.f fj) (s.f fk) (s.f fa)) ∧
    ∀ p ∈ [(single, 0x7FC00000#64), (double, 0x7FF8000000000000#64)], ∀ (m : BitVec 2) (e : Bool) (a b c : Word),
      p.1.SumsRight p.2 m e a b ∧ p.1.ProductsRight p.2 m e a b ∧ p.1.FusesRight p.2 m e a b c

/-- FMSUB, FNMADD and FNMSUB: the fused operation with the addend negated, the result negated, or both; the sign of a NaN
result is any value (R644, R647 to R653; log 26).  They finish as R633 says, by the invalid operations of R635.  The
model's choices: on a trap Cause holds every exception generated, and Flags and the destination stay (D11, marked in
R633; log 59); a product of 0 and an infinity with a QNaN addend generates V (D39, marked in R635; log 60). -/
def Obligations.FpNegatedFused : Prop :=
  ∀ (s : State) (fd fj fk fa : FReg) (rm : BitVec 2) (ue : Bool) (x y z : Word), FpOn s → rm = s.fpRm →
    ue = s.fpEnables.getLsbD 1 → x = (s.fs fj).setWidth 64 → y = (s.fs fk).setWidth 64 → z = (s.fs fa).setWidth 64 →
    ∃ pick,
      FinishesS (.fmsubS fd fj fk fa) s fd (single.fms rm ue pick x y z) ∧
      FinishesS (.fnmaddS fd fj fk fa) s fd (single.fnma rm ue pick x y z) ∧
      FinishesS (.fnmsubS fd fj fk fa) s fd (single.fnms rm ue pick x y z) ∧
      FinishesD (.fmsubD fd fj fk fa) s fd (double.fms rm ue pick (s.f fj) (s.f fk) (s.f fa)) ∧
      FinishesD (.fnmaddD fd fj fk fa) s fd (double.fnma rm ue pick (s.f fj) (s.f fk) (s.f fa)) ∧
      FinishesD (.fnmsubD fd fj fk fa) s fd (double.fnms rm ue pick (s.f fj) (s.f fk) (s.f fa)) ∧
      ∀ F ∈ [single, double], ∀ (m : BitVec 2) (e p : Bool) (a b c : Word), F.FusesNegated m e p a b c

/-- Maximum and minimum, by value and by magnitude (R654 to R662); of equal operands either may result (log 27).  They
finish as R633 says.  That on a trap Cause holds every exception generated, and Flags and the destination stay, is the
model's choice (D11, marked in R633; log 59). -/
def Obligations.FpMaxMin : Prop :=
  ∀ (s : State) (fd fj fk : FReg) (x y : Word), FpOn s → x = (s.fs fj).setWidth 64 → y = (s.fs fk).setWidth 64 →
    ∀ p ∈ [(true, Instr.fmaxS fd fj fk, Instr.fmaxaS fd fj fk, Instr.fmaxD fd fj fk, Instr.fmaxaD fd fj fk),
        (false, .fminS fd fj fk, .fminaS fd fj fk, .fminD fd fj fk, .fminaD fd fj fk)],
      (∃ o, FpSelects single (FpBefore p.1 single) x y o ∧ FinishesS p.2.1 s fd o) ∧
      (∃ o, FpSelects single (FpBeforeMag p.1 single) x y o ∧ FinishesS p.2.2.1 s fd o) ∧
      (∃ o, FpSelects double (FpBefore p.1 double) (s.f fj) (s.f fk) o ∧ FinishesD p.2.2.2.1 s fd o) ∧
      ∃ o, FpSelects double (FpBeforeMag p.1 double) (s.f fj) (s.f fk) o ∧ FinishesD p.2.2.2.2 s fd o

/-- FABS, FNEG and FCOPYSIGN act on the sign bit alone, FCLASS gives one bit of ten (R663 to R671).  That none touches
fcsr0 or raises an exception of its own is the model's choice (D38 in R633; log 60). -/
def Obligations.FpSignAndClass : Prop :=
  ∀ (s : State) (fd fj fk : FReg), FpOn s →
    CompletesFs (.fabsS fd fj) s fd (s.fs fj &&& 0x7FFFFFFF) ∧
    CompletesFs (.fnegS fd fj) s fd (s.fs fj ^^^ 0x80000000) ∧
    CompletesFs (.fcopysignS fd fj fk) s fd ((s.fs fj &&& 0x7FFFFFFF) ||| (s.fs fk &&& 0x80000000)) ∧
    CompletesF (.fabsD fd fj) s fd (s.f fj &&& 0x7FFFFFFFFFFFFFFF) ∧
    CompletesF (.fnegD fd fj) s fd (s.f fj ^^^ 0x8000000000000000) ∧
    CompletesF (.fcopysignD fd fj fk) s fd ((s.f fj &&& 0x7FFFFFFFFFFFFFFF) ||| (s.f fk &&& 0x8000000000000000)) ∧
    ∀ p ∈ [(single, (s.fs fj).setWidth 64), (double, s.f fj)],
      ∃ c : Word, c.toNat < 1024 ∧ (if p.1 = single then CompletesFs (.fclassS fd fj) s fd (c.setWidth 32)
          else CompletesF (.fclassD fd fj) s fd c) ∧
        ∀ q ∈ [(0, p.1.isSnan p.2), (1, p.1.isNan p.2 && !p.1.isSnan p.2), (2, p.1.isInf p.2 && p.1.sign p.2),
            (3, p.1.isFinite p.2 && p.1.expo p.2 != 0 && p.1.sign p.2),
            (4, p.1.expo p.2 == 0 && !p.1.isZero p.2 && p.1.sign p.2), (5, p.1.isZero p.2 && p.1.sign p.2),
            (6, p.1.isInf p.2 && !p.1.sign p.2), (7, p.1.isFinite p.2 && p.1.expo p.2 != 0 && !p.1.sign p.2),
            (8, p.1.expo p.2 == 0 && !p.1.isZero p.2 && !p.1.sign p.2), (9, p.1.isZero p.2 && !p.1.sign p.2)],
          c.getLsbD q.1 = q.2

/-- Square root, reciprocal, reciprocal square root as a division by a square root (log 61), scaling by a power of 2 and
the exponent (R672 to R677, R685 to R688), each of a number the exact result rounded once.  The estimates FRECIPE and
FRSQRTE: at 2^N or 2^2N and at a zero, an infinity or a NaN the exact operation; elsewhere its result or a value within a
relative error of 2^-14, with the exact operation's exceptions (R680 to R684; log 31).  All finish as R633 says, rounded
by R634.  The exponent 0 is +0, the model's choice (R687; log 60).  That on a trap Cause holds every exception generated,
and Flags and the destination stay, is the model's choice (D11, marked in R633; log 59). -/
def Obligations.FpRootsAndScales : Prop :=
  ∀ (s : State) (fd fj fk : FReg) (rm : BitVec 2) (ue : Bool) (x : Word), FpOn s → rm = s.fpRm →
    ue = s.fpEnables.getLsbD 1 → x = (s.fs fj).setWidth 64 →
    FinishesS (.fsqrtS fd fj) s fd (single.sqrt rm ue x) ∧
    FinishesS (.frecipS fd fj) s fd (single.div rm ue 0x3F800000 x) ∧
    FinishesS (.frsqrtS fd fj) s fd ⟨(single.div rm ue 0x3F800000 (single.sqrt rm ue x).val).val,
      (single.sqrt rm ue x).exc ||| (single.div rm ue 0x3F800000 (single.sqrt rm ue x).val).exc⟩ ∧
    FinishesS (.fscalebS fd fj fk) s fd (single.scaleB rm ue x (s.fs fk).toInt) ∧
    FinishesS (.flogbS fd fj) s fd (single.logB x) ∧
    FinishesD (.fsqrtD fd fj) s fd (double.sqrt rm ue (s.f fj)) ∧
    FinishesD (.frecipD fd fj) s fd (double.div rm ue 0x3FF0000000000000 (s.f fj)) ∧
    FinishesD (.frsqrtD fd fj) s fd ⟨(double.div rm ue 0x3FF0000000000000 (double.sqrt rm ue (s.f fj)).val).val,
      (double.sqrt rm ue (s.f fj)).exc |||
        (double.div rm ue 0x3FF0000000000000 (double.sqrt rm ue (s.f fj)).val).exc⟩ ∧
    FinishesD (.fscalebD fd fj fk) s fd (double.scaleB rm ue (s.f fj) (s.f fk).toInt) ∧
    FinishesD (.flogbD fd fj) s fd (double.logB (s.f fj)) ∧
    (∀ p ∈ [(single, 0x7FC00000#64), (double, 0x7FF8000000000000#64)], ∀ (m : BitVec 2) (e : Bool) (w : Word) (n : Int),
      p.1.RootsRight p.2 m e w ∧ p.1.ScalesRight m e w n ∧ p.1.LogsRight w) ∧
    ∃ a b c d : Word,
      (a = (single.recip rm ue x).val ∨ (FpEstimated single x ∧ single.isPow2 x = false ∧ single.recipBound x a = true)) ∧
      (b = (single.rsqrt rm ue x).val ∨ (FpEstimated single x ∧ single.isPow4 x = false ∧ single.rsqrtBound x b = true)) ∧
      (c = (double.recip rm ue (s.f fj)).val ∨
        (FpEstimated double (s.f fj) ∧ double.isPow2 (s.f fj) = false ∧ double.recipBound (s.f fj) c = true)) ∧
      (d = (double.rsqrt rm ue (s.f fj)).val ∨
        (FpEstimated double (s.f fj) ∧ double.isPow4 (s.f fj) = false ∧ double.rsqrtBound (s.f fj) d = true)) ∧
      FinishesS (.frecipeS fd fj) s fd ⟨a, (single.recip rm ue x).exc⟩ ∧
      FinishesS (.frsqrteS fd fj) s fd ⟨b, (single.rsqrt rm ue x).exc⟩ ∧
      FinishesD (.frecipeD fd fj) s fd ⟨c, (double.recip rm ue (s.f fj)).exc⟩ ∧
      FinishesD (.frsqrteD fd fj) s fd ⟨d, (double.rsqrt rm ue (s.f fj)).exc⟩


/-- The 44 comparisons: the truth of the condition on the relation of the operands, and V on an SNaN, for a signaling
comparison on any NaN (R700 to R723, R976 to R997); they finish as R633 says.  That on a trap Cause holds every exception
generated, and Flags and the condition flag stay, is the model's choice (D11, marked in R633; log 59). -/
def Obligations.FpComparisons : Prop :=
  ∀ (s : State) (cd : CReg) (fj fk : FReg), FpOn s →
    ∀ p ∈ [((Instr.fcmpCafS, Instr.fcmpSafS, Instr.fcmpCafD, Instr.fcmpSafD), fun (_ _ _ _ : Bool) => false),
        ((.fcmpCunS, .fcmpSunS, .fcmpCunD, .fcmpSunD), fun _ _ _ un => un),
        ((.fcmpCeqS, .fcmpSeqS, .fcmpCeqD, .fcmpSeqD), fun _ eq _ _ => eq),
        ((.fcmpCueqS, .fcmpSueqS, .fcmpCueqD, .fcmpSueqD), fun _ eq _ un => un || eq),
        ((.fcmpCltS, .fcmpSltS, .fcmpCltD, .fcmpSltD), fun lt _ _ _ => lt),
        ((.fcmpCultS, .fcmpSultS, .fcmpCultD, .fcmpSultD), fun lt _ _ un => un || lt),
        ((.fcmpCleS, .fcmpSleS, .fcmpCleD, .fcmpSleD), fun lt eq _ _ => lt || eq),
        ((.fcmpCuleS, .fcmpSuleS, .fcmpCuleD, .fcmpSuleD), fun lt eq _ un => un || lt || eq),
        ((.fcmpCneS, .fcmpSneS, .fcmpCneD, .fcmpSneD), fun lt _ gt _ => lt || gt),
        ((.fcmpCorS, .fcmpSorS, .fcmpCorD, .fcmpSorD), fun lt eq gt _ => lt || eq || gt),
        ((.fcmpCuneS, .fcmpSuneS, .fcmpCuneD, .fcmpSuneD), fun lt _ gt un => un || lt || gt)],
      ∀ q ∈ [(single, (s.fs fj).setWidth 64, (s.fs fk).setWidth 64, p.1.1 cd fj fk, p.1.2.1 cd fj fk),
          (double, s.f fj, s.f fk, p.1.2.2.1 cd fj fk, p.1.2.2.2 cd fj fk)],
        ∀ un : Bool, ∀ b : Bool, un = (q.1.isNan q.2.1 || q.1.isNan q.2.2.1) →
          b = p.2 (!un && decide (q.1.order q.2.1 < q.1.order q.2.2.1))
            (!un && decide (q.1.order q.2.1 = q.1.order q.2.2.1))
            (!un && decide (q.1.order q.2.2.1 < q.1.order q.2.1)) un →
          FinishesCc q.2.2.2.1 s cd b (if q.1.isSnan q.2.1 || q.1.isSnan q.2.2.1 then excV else 0) ∧
          FinishesCc q.2.2.2.2 s cd b (if un then excV else 0)

/-- Conversions between the formats and from integers (R724 to R730), a number or an integer rounded once by R634 and
finished as R633 says; a NaN keeps its sign and the high bits of its fraction, quieted (R653).  That on a trap Cause holds
every exception generated, and Flags and the destination stay, is the model's choice (D11, marked in R633; log 59). -/
def Obligations.FpConversions : Prop :=
  ∀ (s : State) (fd fj : FReg) (rm : BitVec 2) (ue : Bool) (x : Word), FpOn s → rm = s.fpRm →
    ue = s.fpEnables.getLsbD 1 → x = (s.fs fj).setWidth 64 →
    FinishesS (.fcvtSD fd fj) s fd (double.convert single rm ue (s.f fj)) ∧
    FinishesD (.fcvtDS fd fj) s fd (single.convert double rm ue x) ∧
    FinishesS (.ffintSW fd fj) s fd (single.ofInt rm (s.fs fj).toInt) ∧
    FinishesS (.ffintSL fd fj) s fd (single.ofInt rm (s.f fj).toInt) ∧
    FinishesD (.ffintDW fd fj) s fd (double.ofInt rm (s.fs fj).toInt) ∧
    FinishesD (.ffintDL fd fj) s fd (double.ofInt rm (s.f fj).toInt) ∧
    ∀ (m : BitVec 2) (e : Bool) (w : Word) (i : Int),
      single.ConvertsRight double m e w ∧ double.ConvertsRight single m e w ∧
      single.Rounds m false false i (single.ofInt m i) ∧ double.Rounds m false false i (double.ofInt m i) ∧
      (single.isNan w = true → single.convert double m e w =
        ⟨bits w 31 1 ++ 0xFFF#12 ++ bits w 0 22 ++ 0#29, if single.isSnan w = true then excV else 0⟩) ∧
      (double.isNan w = true → double.convert single m e w =
        ⟨0#32 ++ bits w 63 1 ++ 0x1FF#9 ++ bits w 29 22, if double.isSnan w = true then excV else 0⟩)

/-- Conversions to an integer, each in its rounding mode, and FRINT, which gives the rounded number itself (R731 to
R754): the integer that the mode makes of the number.  The result of an invalid conversion is any value where the spec
states none (log 23), and so is whether an inexact one is recorded while I is not enabled (log 24).  They finish as R633
says.  That on a trap Cause holds every exception generated, and Flags and the destination stay, is the model's choice
(D11, marked in R633; log 59). -/
def Obligations.FpToInteger : Prop :=
  ∀ (s : State) (fd fj : FReg) (x : Word), FpOn s → x = (s.fs fj).setWidth 64 →
    (∃ (pick : Bool) (any : Word), ∀ p ∈ [
        (s.fpRm, Instr.ftintWS fd fj, Instr.ftintWD fd fj, Instr.ftintLS fd fj, Instr.ftintLD fd fj),
        (3, .ftintrmWS fd fj, .ftintrmWD fd fj, .ftintrmLS fd fj, .ftintrmLD fd fj),
        (2, .ftintrpWS fd fj, .ftintrpWD fd fj, .ftintrpLS fd fj, .ftintrpLD fd fj),
        (1, .ftintrzWS fd fj, .ftintrzWD fd fj, .ftintrzLS fd fj, .ftintrzLD fd fj),
        (0, .ftintrneWS fd fj, .ftintrneWD fd fj, .ftintrneLS fd fj, .ftintrneLD fd fj)],
      FinishesS p.2.1 s fd (single.toSint 32 p.1 (s.fcsr0.getLsbD 0) pick any x) ∧
      FinishesS p.2.2.1 s fd (double.toSint 32 p.1 (s.fcsr0.getLsbD 0) pick any (s.f fj)) ∧
      FinishesD p.2.2.2.1 s fd (single.toSint 64 p.1 (s.fcsr0.getLsbD 0) pick any x) ∧
      FinishesD p.2.2.2.2 s fd (double.toSint 64 p.1 (s.fcsr0.getLsbD 0) pick any (s.f fj))) ∧
    (∃ pick,
      FinishesS (.frintS fd fj) s fd (single.toIntegral s.fpRm (s.fcsr0.getLsbD 0) pick x) ∧
      FinishesD (.frintD fd fj) s fd (double.toIntegral s.fpRm (s.fcsr0.getLsbD 0) pick (s.f fj))) ∧
    ∀ F ∈ [single, double], ∀ (m : BitVec 2) (ie p : Bool) (any w : Word),
      F.ToSintRight 32 m ie p any w ∧ F.ToSintRight 64 m ie p any w ∧ F.ToIntegralRight m ie p w

/-- Moves among floating-point registers and between them and general registers, and FSEL (R761 to R763, R769 to R774); a
32-bit move into a floating-point register leaves its upper half open.  That FSEL and the moves other than FMOV leave
fcsr0 as it is, which the source says of FMOV alone, is the model's choice (D38, marked in R633 and R760; log 60). -/
def Obligations.FpMoves : Prop :=
  ∀ (s : State) (fd fj fk : FReg) (rd rj : Reg) (ca : CReg), FpOn s →
    CompletesFs (.fmovS fd fj) s fd (s.fs fj) ∧ CompletesF (.fmovD fd fj) s fd (s.f fj) ∧
    CompletesF (.fsel fd fj fk ca) s fd (if s.cc ca then s.f fk else s.f fj) ∧
    CompletesFs (.movgr2frW fd rj) s fd ((s.x rj).setWidth 32) ∧ CompletesF (.movgr2frD fd rj) s fd (s.x rj) ∧
    CompletesF (.movgr2frhW fd rj) s fd ((s.x rj).setWidth 32 ++ (s.f fd).setWidth 32) ∧
    CompletesX (.movfr2grS rd fj) s rd ((s.fs fj).signExtend 64) ∧ CompletesX (.movfr2grD rd fj) s rd (s.f fj) ∧
    CompletesX (.movfrh2grS rd fj) s rd ((s.f fj).sshiftRight 32)

/-- Moves to and from fcsr and the condition flags, and the branches on a flag (R775 to R782): fcsr1 to fcsr3 are parts
of fcsr0.  A number above 3 has no register: a read gives some value, a write leaves the undefined bits as they are (log
17); MOVCF2FR leaves the other bits of the register open (log 25).  That the bits of fcsr0 which no table defines read 0
and ignore writes, and that fcsr1 to fcsr3 read 0 and ignore writes outside their fields, is the model's choice (D10,
marked in R775 and R776; log 59).  That the flag moves, MOVFCSR2GR, BCEQZ and BCNEZ leave fcsr0 as it is, which the
source says of FMOV alone, is the model's choice (D38, marked in R633 and R760; log 60). -/
def Obligations.FcsrAndFlagMoves : Prop :=
  ∀ (s : State) (n : BitVec 5) (o : BitVec 21) (rd rj : Reg) (fd fj : FReg) (c : CReg) (m : BitVec 32), FpOn s →
    m = (if n = 0 then 0x1F1F031F else if n = 1 then 0x1F else if n = 2 then 0x1F1F0000 else 0x300) →
    (if n.toNat < 4 then
      MovesFcsr (.movgr2fcsr n rj) s ((s.fcsr0 &&& ~~~m) ||| ((s.x rj).setWidth 32 &&& m)) ∧
      CompletesX (.movfcsr2gr rd n) s rd ((s.fcsr0 &&& m).signExtend 64)
    else
      (∃ v, MovesFcsr (.movgr2fcsr n rj) s ((s.fcsr0 &&& ~~~0x1F1F031F#32) ||| (v &&& 0x1F1F031F))) ∧
      ∃ v, CompletesX (.movfcsr2gr rd n) s rd v) ∧
    MovesCc (.movfr2cf c fj) s c ((s.f fj).getLsbD 0) ∧ MovesCc (.movgr2cf c rj) s c ((s.x rj).getLsbD 0) ∧
    CompletesX (.movcf2gr rd c) s rd (if s.cc c then 1 else 0) ∧
    CompletesAt (.bceqz c o) s (if s.cc c then s.pc + 4 else s.pc + (o ++ 0#2).signExtend 64) ∧
    CompletesAt (.bcnez c o) s (if s.cc c then s.pc + (o ++ 0#2).signExtend 64 else s.pc + 4) ∧
    ∃ v, v.getLsbD 0 = s.cc c ∧ CompletesF (.movcf2fr fd c) s fd v

/-- Floating-point loads and stores, plain, indexed and bound-checked (R783 to R800); that the bound compares unsigned is
the model's choice (D31; log 52).  That memory is little-endian is presumed (R203; log 11).  That they leave fcsr0 as it
is, which the source says of FMOV alone, is the model's choice (D38, marked in R633 and R760; log 60). -/
def Obligations.FpLoadsAndStores : Prop :=
  ∀ (s : State) (fd : FReg) (rj rk : Reg) (si12 : BitVec 12) (gt le : Bool) (ps : List Phys), FpOn s → MemOk s →
    gt = decide ((s.x rk).toNat < (s.x rj).toNat) → le = decide ((s.x rj).toNat ≤ (s.x rk).toNat) →
    (∀ p ∈ [(Instr.fldS fd rj si12, s.ordLoad (s.x rj + si12.signExtend 64) 4),
        (.fldxS fd rj rk, s.ordLoad (s.x rj + s.x rk) 4), (.fldgtS fd rj rk, s.boundLoad (s.x rj) 4 gt),
        (.fldleS fd rj rk, s.boundLoad (s.x rj) 4 le)],
      Accesses s p.2 ps → CompletesFs p.1 s fd (BitVec.ofNat 32 (s.valueAt (physAddrs ps)))) ∧
    (∀ p ∈ [(Instr.fldD fd rj si12, s.ordLoad (s.x rj + si12.signExtend 64) 8),
        (.fldxD fd rj rk, s.ordLoad (s.x rj + s.x rk) 8), (.fldgtD fd rj rk, s.boundLoad (s.x rj) 8 gt),
        (.fldleD fd rj rk, s.boundLoad (s.x rj) 8 le)],
      Accesses s p.2 ps → CompletesF p.1 s fd (BitVec.ofNat 64 (s.valueAt (physAddrs ps)))) ∧
    (∀ p ∈ [(Instr.fstS fd rj si12, s.ordStore (s.x rj + si12.signExtend 64) 4),
        (.fstxS fd rj rk, s.ordStore (s.x rj + s.x rk) 4), (.fstgtS fd rj rk, s.boundStore (s.x rj) 4 gt),
        (.fstleS fd rj rk, s.boundStore (s.x rj) 4 le), (.fstD fd rj si12, s.ordStore (s.x rj + si12.signExtend 64) 8),
        (.fstxD fd rj rk, s.ordStore (s.x rj + s.x rk) 8), (.fstgtD fd rj rk, s.boundStore (s.x rj) 8 gt),
        (.fstleD fd rj rk, s.boundStore (s.x rj) 8 le)],
      Accesses s p.2 ps → CompletesStore p.1 s (physAddrs ps) (s.f fd))

/-! ## Control and status registers, IOCSR, the wait state (49_privileged.md; 11 to 13) -/

/-- CSRRD, CSRWR and CSRXCHG at PLV0: the old value to rd, the new one offered to the register; CSRXCHG changes the bits
of the mask alone, and leaves a write-1-to-clear bit outside it as it is.  A number without a register gives any value
(log 18).  Below PLV0 CSRRD reads the performance counters that MISC.RPCNTL opens, and else raises IPE (R810 to R815,
R43). -/
def Obligations.CsrAccess : Prop :=
  ∀ (s : State) (rd rj : Reg) (num : BitVec 14),
    (s.plv = 0 →
      (∀ c, csrId num = some c →
        CompletesX (.csrrd rd num) s rd (s.csrRead c) ∧
        CompletesCsr (.csrwr rd num) s rd (s.csrRead c) c (s.x rd) ∧
        CompletesCsr (.csrxchg rd rj num) s rd (s.csrRead c) c
          ((s.csrRead c &&& ~~~(s.x rj) &&& ~~~(if c = .mwps ∨ c = .fwps then 0xF else 0)) |||
            (s.x rd &&& s.x rj))) ∧
      (csrId num = none → ∃ v, CompletesX (.csrrd rd num) s rd v ∧ CompletesX (.csrwr rd num) s rd v ∧
        CompletesX (.csrxchg rd rj num) s rd v)) ∧
    (s.plv ≠ 0 →
      (∀ n, csrId num = some (.pmcnt n) → s.csr.basic.misc.getLsbD (8 + s.plv.toNat) = true →
        CompletesX (.csrrd rd num) s rd (s.csrRead (.pmcnt n))) ∧
      ((∀ n, csrId num = some (.pmcnt n) → s.csr.basic.misc.getLsbD (8 + s.plv.toNat) = false) →
        Raises (.csrrd rd num) s .ipe))

/-- What a register reads after a value is offered to it: its RW bits take the value, its other bits stay, and a
read-only register stays whole; every other register reads as before, but for the views that the spec ties to it (R41,
R812; the RW bits are those of 11_csr_basic.md, 12_csr_mmu.md and 13).  The model's choices: CTAG holds 64 bits (log 9),
MERRINFO1 and MERRINFO2 are read-only (log 10), EUEN has FPE alone, there are eight SAVE registers, PGD is chosen by bit 63
(D12, D15, D17; log 64), a write of TCFG loads TVAL (D20; log 57). -/
def Obligations.CsrFields : Prop :=
  ∀ (s : State) (v : Word),
    (∀ p ∈ [(CsrId.crmd, 0x3FF#32), (.prmd, 0xF#32), (.euen, 0x1#32), (.misc, 0x7FEEE#32), (.ecfg, 0x71FFF#32),
        (.estat, 0x3#32), (.tlbidx, 0xBF000FFF#32), (.asid, 0x3FF#32), (.pwcl, 0xFFFFFFFF#32), (.pwch, 0xFFFFFF#32),
        (.stlbps, 0x3F#32), (.rvacfg, 0xF#32), (.tid, 0xFFFFFFFF#32), (.tlbrprmd, 0x17#32), (.merrctl, 0x1FDE#32),
        (.pmcfg 0, 0x1F03FF#32), (.pmcfg 1, 0x1F03FF#32), (.pmcfg 2, 0x1F03FF#32), (.pmcfg 3, 0x1F03FF#32)],
      (s.csrWrite p.1 v).csrRead p.1 =
        (((s.csrRead p.1).setWidth 32 &&& ~~~p.2) ||| (v.setWidth 32 &&& p.2)).signExtend 64) ∧
    (∀ c ∈ [CsrId.era, .badv, .cntc, .tlbrbadv, .tlbrsave, .merrera, .merrsave, .ctag, .dera, .dsave],
      (s.csrWrite c v).csrRead c = v) ∧
    (∀ n, (s.csrWrite (.save n) v).csrRead (.save n) = v) ∧
    (∀ n, (s.csrWrite (.pmcnt n) v).csrRead (.pmcnt n) = v) ∧
    (∀ p ∈ [(CsrId.eentry, 0xFFFFFFFFFFFFF000#64), (.pgdl, 0xFFFFFFFFFFFFF000#64), (.pgdh, 0xFFFFFFFFFFFFF000#64),
        (.tlbelo0, 0xE000FFFFFFFFF07F#64), (.tlbelo1, 0xE000FFFFFFFFF07F#64), (.tlbrelo0, 0xE000FFFFFFFFF07F#64),
        (.tlbrelo1, 0xE000FFFFFFFFF07F#64), (.tlbrentry, 0xFFFFFFFFF000#64), (.merrentry, 0xFFFFFFFFF000#64),
        (.tlbrera, 0xFFFFFFFFFFFFFFFD#64), (.tcfg, 0xFFFFFFFFFFFF#64), (.dmw 0, 0xF00000000000003F#64),
        (.dmw 1, 0xF00000000000003F#64), (.dmw 2, 0xF00000000000003F#64), (.dmw 3, 0xF00000000000003F#64)],
      (s.csrWrite p.1 v).csrRead p.1 = (s.csrRead p.1 &&& ~~~p.2) ||| (v &&& p.2)) ∧
    (s.csrWrite .tlbehi v).csrRead .tlbehi = (bits v 13 35 ++ 0#13).signExtend 64 ∧
    (s.csrWrite .tlbrehi v).csrRead .tlbrehi = (bits v 13 35 ++ 0#7 ++ bits v 0 6).signExtend 64 ∧
    (s.csrWrite .tcfg v).csrRead .tval =
      (if v.getLsbD 0 then BitVec.ofNat 64 (v.toNat % 2 ^ 48 / 4 * 4) else s.csrRead .tval) ∧
    (s.csrWrite .llbctl v).llbit = (s.llbit && !v.getLsbD 1) ∧
    ((s.csrWrite .llbctl v).csrRead .llbctl).getLsbD 2 = v.getLsbD 2 ∧
    (∀ c ∈ [CsrId.mwps, .fwps], ((s.csrWrite c v).csrRead c).setWidth 4 = (s.csrRead c &&& ~~~v).setWidth 4 ∧
      ((s.csrWrite c v).csrRead c).getLsbD 16 = v.getLsbD 16) ∧
    (∀ n : Fin 4, ∀ p ∈ [(CsrId.mwpcfg3 n, 0xF9E#32, [(CsrId.mwpcfg1 n, 0xFFFFFFFFFFFFFFFF#64),
          (.mwpcfg2 n, 0xFFFFFFFFFFFFFFFF#64), (.mwpcfg4 n, 0x3FF#64)]),
        (.fwpcfg3 n, 0x9E#32, [(.fwpcfg1 n, 0xFFFFFFFFFFFFFFFF#64), (.fwpcfg2 n, 0xFFFFFFFFFFFFFFFF#64),
          (.fwpcfg4 n, 0x3FF#64)])],
      (s.inDebug = false → (s.csrRead p.1).getLsbD 0 = true →
        s.csrWrite p.1 v = s ∧ ∀ q ∈ p.2.2, s.csrWrite q.1 v = s) ∧
      (s.inDebug = true ∨ (s.csrRead p.1).getLsbD 0 = false →
        ((s.csrWrite p.1 v).csrRead p.1).setWidth 32 =
          (((s.csrRead p.1).setWidth 32 &&& ~~~(p.2.1 ||| if s.inDebug then 1 else 0)) |||
            (v.setWidth 32 &&& (p.2.1 ||| if s.inDebug then 1 else 0))) ∧
        ∀ q ∈ p.2.2, ((s.csrWrite q.1 v).csrRead q.1 &&& q.2) = v &&& q.2)) ∧
    (∀ c ∈ [CsrId.badi, .pgd, .cpuid, .prcfg1, .prcfg2, .prcfg3, .tval, .merrinfo1, .merrinfo2, .mwpc, .fwpc,
        .dbg], s.csrWrite c v = s) ∧
    ∀ c d, CsrId.affects c d = false → (s.csrWrite c v).csrRead d = s.csrRead d

/-- IOCSRRD and IOCSRWR at PLV0: where a register has the byte, the bytes at the address in rj, lowest first; a byte
without a register reads as any value and takes nothing; an access that is unaligned raises ALE where MISC.ALCL of the
level says so (R816 to R825).  The model's choices: a byte without a register takes nothing and a register holds what was
stored (log 19), the address is taken modulo 2^32 (log 1), an unaligned access without the check (log 69). -/
def Obligations.Iocsr : Prop :=
  ∀ (s : State) (rd rj : Reg), s.plv = 0 →
    ∀ p ∈ [(1, Instr.iocsrrdB rd rj, Instr.iocsrwrB rd rj), (2, .iocsrrdH rd rj, .iocsrwrH rd rj),
        (4, .iocsrrdW rd rj, .iocsrwrW rd rj), (8, .iocsrrdD rd rj, .iocsrwrD rd rj)],
      ∀ (bad : Bool) (at_ : Nat → Nat), bad = decide ((s.x rj).toNat % p.1 ≠ 0) →
        (∀ k, at_ k = ((s.x rj).toNat + k) % 2 ^ 32) →
        if bad = true ∧ s.csr.basic.misc.getLsbD 12 = true then
          Raises p.2.1 s (.ale (s.x rj)) ∧ Raises p.2.2 s (.ale (s.x rj))
        else
          (∃ v : Nat, CompletesX p.2.1 s rd (signedOf (8 * p.1) v) ∧
            (bad = false → ∀ k b, k < p.1 → cellFind s.iocsr (at_ k) = some b → v / 256 ^ k % 256 = b.toNat)) ∧
          ∃ l, exec p.2.2 s = .next { s with iocsr := l, pc := s.pc + 4 } ∧
            (bad = true → l = s.iocsr) ∧
            (bad = false → ∀ k, k < p.1 → cellFind l (at_ k) =
              (cellFind s.iocsr (at_ k)).map fun _ => (s.x rd >>> (8 * k)).setWidth 8) ∧
            ∀ a, (∀ k, k < p.1 → a ≠ at_ k) → cellFind l a = cellFind s.iocsr a

/-- CACOP at PLV0 changes nothing that a program sees, since CPUCFG word 0x10 names no cache here (R823; log 1, 55).
What it does by `cacheOp`, whichever caches there are: nothing where op[2:0] names no cache or for an index operation; a
hit operation on a named cache completes when its address translates as a one-byte load, and takes the exceptions of that
(D41; log 55).  DBCL outside debug mode enters it: DBG.DST and DCL set, DERA the pc, execution on at the debug entry, and
nothing else changed; ERTN leaves it again to DERA (R845, R848, 13 R193, R194; D23, log 37). -/
def Obligations.CacheOpsAndDebugCall : Prop :=
  (∀ (s : State) (op : BitVec 5) (rj : Reg) (si12 : BitVec 12) (a : Access), s.plv = 0 →
     a = s.cacopQuery (s.x rj + si12.signExtend 64) →
     CompletesNothing (.cacop op rj si12) s ∧
     exec (.cacop op rj si12) s = cacheOp (Config.cacheNamed (bits op 0 3)) op a s ∧
     (∀ named, named = false ∨ bits op 3 2 ≠ 2 → cacheOp named op a s = .next s.advance) ∧
     (bits op 3 2 = 2 → (∀ ps, s.checkAccess a = .ok ps → cacheOp true op a s = .next s.advance) ∧
       ∀ e, s.checkAccess a = .exc e → cacheOp true op a s = .next (s.raise e))) ∧
  ∀ (s : State) (code : BitVec 15), s.plv = 0 → s.inDebug = false → ∃ t, exec (.dbcl code) s = .next t ∧
    t.inDebug = true ∧ t.csr.dbgRegs.dbg.getLsbD 9 = true ∧ t.csr.dbgRegs.dera = s.pc ∧ t.pc = Config.debugEntry ∧
      t = { s with
        pc := t.pc
        csr := { s.csr with dbgRegs := { s.csr.dbgRegs with dbg := t.csr.dbgRegs.dbg, dera := s.pc } } } ∧
      ∃ u, exec .ertn t = .next u ∧ u.pc = s.pc ∧ u.inDebug = false ∧ u.csr.basic.crmd = s.csr.basic.crmd



/-! ## The TLB and the page walk (49_privileged.md; 21_address_translation.md) -/

/-- TLBSRCH: the index of the one matching entry and NE = 0, or NE = 1; more than one match has no behaviour.  TLBRD: the
entry of the index in the registers, or zeros and NE = 1 with ASID any value (log 22); an index beyond the TLB has no
behaviour (R831, R832).  The model's choices: every STLB entry is examined, whatever its set (C13; log 39), and under
an unsupported page size, of STLBPS or of an entry, there is no behaviour (R120; log 44). -/
def Obligations.TlbSearchRead : Prop :=
  ∀ (s : State) (hi : Word) (m : MmuCsrs) (l : List (Nat × TlbEntry)) (i : Nat), s.plv = 0 → m = s.csr.mmu →
    hi = (if s.isTlbr then s.csr.refill.ehi else m.tlbehi) → l = s.hitsOf (hi.toNat % 2 ^ 48 / 2 ^ 13 * 2 ^ 13) →
    i = (bits m.tlbidx 0 12).toNat →
    (¬SizesOk s → exec .tlbsrch s = .refused .pageSizeUnsupported) ∧
    (SizesOk s →
      (l = [] → ∃ x, exec .tlbsrch s = .next (s.withMmu { m with tlbidx := x }) ∧ x.getLsbD 31 = true ∧
        bits x 0 31 = bits m.tlbidx 0 31) ∧
      (∀ p, l = [p] → ∃ x, exec .tlbsrch s = .next (s.withMmu { m with tlbidx := x }) ∧
        bits x 0 12 = BitVec.ofNat 12 p.1 ∧ bits x 12 19 = bits m.tlbidx 12 19 ∧ x.getLsbD 31 = false) ∧
      (2 ≤ l.length → exec .tlbsrch s = .fault .multipleTlbHits)) ∧
    (2112 ≤ i → exec .tlbrd s = .fault .tlbIndexOutOfRange) ∧
    (i < 2112 →
      (∀ e, tlbAt s.tlb i = some e →
        if pageSizeOk (s.entryPs (i, e)) = true then
          ∃ lo0 lo1 x a, exec .tlbrd s = .next (s.withMmu
            { m with tlbehi := (e.vppn ++ 0#13).signExtend 64, tlbelo0 := lo0, tlbelo1 := lo1, tlbidx := x, asid := a }) ∧
          EloHolds lo0 e.page0 e.g ∧ EloHolds lo1 e.page1 e.g ∧ bits x 0 24 = bits m.tlbidx 0 24 ∧
          bits x 24 6 = BitVec.ofNat 6 (s.entryPs (i, e)) ∧ x.getLsbD 31 = false ∧ bits a 0 10 = e.asid
        else exec .tlbrd s = .refused .pageSizeUnsupported) ∧
      (tlbAt s.tlb i = none → ∃ x a, exec .tlbrd s = .next (s.drawn.withMmu
          { m with tlbehi := 0, tlbelo0 := 0, tlbelo1 := 0, tlbidx := x, asid := a }) ∧
        bits x 0 24 = bits m.tlbidx 0 24 ∧ bits x 24 6 = 0 ∧ x.getLsbD 31 = true))

/-- TLBWR writes the entry of the index, TLBFILL one of the STLB set of its page number or of the MTLB, and every other
entry stays; an index beyond the TLB and an STLB entry in another set or of another page size have no behaviour (R833,
R834, R837).  The model's choices: with PS = 12 both sets of the page pair are sets of the page number, either for TLBWR and
any for TLBFILL (R261; log 39), the entry that TLBFILL takes (log 29), that an unsupported page size has no behaviour, in an
entry that exists or, for an STLB index and for TLBFILL, in STLBPS (R120; log 44), and that an MTLB entry may have the
STLB's page size (R261; log 77). -/
def Obligations.TlbWriteFill : Prop :=
  ∀ (s : State) (i set : Nat) (ok : Nat → Prop), s.plv = 0 → TlbOk s → i = (bits s.csr.mmu.tlbidx 0 12).toNat →
    set = (bits s.ehi 13 35).toNat * 2 ^ 13 / 2 ^ s.stlbPs.toNat % 256 →
    (∀ n, ok n ↔ n % 256 = set ∨ (s.stlbPs = 12 ∧ n % 256 = set + 1)) →
    (2112 ≤ i → exec .tlbwr s = .fault .tlbIndexOutOfRange) ∧
    (i < 2048 → s.stlbPsBad = true → exec .tlbwr s = .refused .pageSizeUnsupported) ∧
    (i < 2048 → s.stlbPsBad = false → s.newPs ≠ s.stlbPs ∨ ¬ok i → exec .tlbwr s = .fault .stlbConflict) ∧
    (i < 2112 → (i < 2048 → s.stlbPsBad = false ∧ s.newPs = s.stlbPs ∧ ok i) →
      (s.newPsBad = true → exec .tlbwr s = .refused .pageSizeUnsupported) ∧
      (s.newPsBad = false → ∃ l, exec .tlbwr s = .next (s.withTlb l) ∧ EntryWritten s i (tlbAt l i) ∧
        ∀ j, j ≠ i → tlbAt l j = tlbAt s.tlb j)) ∧
    (s.stlbPsBad = true ∨ s.newPsBad = true → exec .tlbfill s = .refused .pageSizeUnsupported) ∧
    (s.stlbPsBad = false → s.newPsBad = false →
      ∃ l k, exec .tlbfill s = .next (s.drawn.withTlb l) ∧ EntryWritten s k (tlbAt l k) ∧
      (if s.newPs = s.stlbPs then k < 2048 ∧ ok k else 2048 ≤ k ∧ k < 2112) ∧
      ∀ j, j ≠ k → tlbAt l j = tlbAt s.tlb j)

/-- TLBCLR, TLBFLUSH and INVTLB remove exactly the entries that their conditions name; an INVTLB op above 6 raises INE
(R835, R836, R838).  That the ops which compare page numbers have no behaviour under an unsupported page size, of STLBPS
or of an entry, is the model's choice (R120; log 44).  That INVTLB ignores the registers that its op does not use, and
bits of rj above 9, is the model's choice (D42, marked in R838; log 80). -/
def Obligations.TlbInvalidate : Prop :=
  ∀ (s : State) (op : BitVec 5) (rj rk : Reg) (i : Nat) (asid ra : BitVec 10) (grp va : Nat × TlbEntry → Prop),
    s.plv = 0 → i = (bits s.csr.mmu.tlbidx 0 12).toNat → asid = bits s.csr.mmu.asid 0 10 → ra = bits (s.x rj) 0 10 →
    (∀ e, grp e ↔ if i < 2048 then e.1 < 2048 ∧ e.1 % 256 = i % 256 else 2048 ≤ e.1) →
    (∀ e, va e ↔ e.2.vppn.toNat * 2 ^ 13 / 2 ^ (s.entryPs e + 1) =
      (s.x rk).toNat % 2 ^ 48 / 2 ^ (s.entryPs e + 1)) →
    (∀ p ∈ [(Instr.tlbclr, fun e => grp e ∧ e.2.g = false ∧ e.2.asid = asid), (.tlbflush, grp)],
      ∃ l, exec p.1 s = .next (s.withTlb l) ∧ ∀ e, e ∈ l ↔ e ∈ s.tlb ∧ ¬p.2 e) ∧
    (∀ p ∈ [(0, fun _ : Nat × TlbEntry => True), (1, fun _ => True), (2, fun e => e.2.g = true),
        (3, fun e => e.2.g = false), (4, fun e => e.2.g = false ∧ e.2.asid = ra),
        (5, fun e => e.2.g = false ∧ e.2.asid = ra ∧ va e), (6, fun e => (e.2.g = true ∨ e.2.asid = ra) ∧ va e)],
      op.toNat = p.1 → (5 ≤ p.1 → SizesOk s) →
      ∃ l, exec (.invtlb op rj rk) s = .next (s.withTlb l) ∧ ∀ e, e ∈ l ↔ e ∈ s.tlb ∧ ¬p.2 e) ∧
    (op.toNat = 5 ∨ op.toNat = 6 → ¬SizesOk s → exec (.invtlb op rj rk) s = .refused .pageSizeUnsupported) ∧
    (6 < op.toNat → Raises (.invtlb op rj rk) s .ine)

/-- LDDIR: the entry of the level's directory for the bad address, or the huge page entry passed on; a level that does
not exist leaves any value (log 30).  LDPTE: TLBRELO0 or TLBRELO1 and TLBREHI.PS from the last-level entry or from a half
of a huge page (R840 to R842; the page size: log 56); with PWCL.Dir1_base = 0 the page size and the page number of the
upper half are any value (log 56).  The exceptions of the load of a table entry are those of the instruction.  That
memory is little-endian is presumed (R203; log 11). -/
def Obligations.PageWalk : Prop :=
  ∀ (s : State) (rd rj : Reg) (lv sq : BitVec 8) (b w h : Word) (l c : BitVec 32) (r : RefillCsrs) (a : Access)
    (ps : List Phys), s.plv = 0 → b = s.x rj → l = s.csr.mmu.pwcl → c = s.csr.mmu.pwch → r = s.csr.refill →
    a = s.walkLoad (s.tableEntry b (s.walkAddr / 2 ^ (bits l 0 5).toNat % 2 ^ (bits l 5 5).toNat / 2 * 2 +
      if sq.getLsbD 0 then 1 else 0)) →
    (b.getLsbD 6 = true → CompletesX (.lddir rd rj lv) s rd b) ∧
    (b.getLsbD 6 = false →
      (∀ p ∈ [(1, bits l 10 5, bits l 15 5), (2, bits l 20 5, bits l 25 5)], lv.toNat = p.1 →
        if p.2.2 = 0 then ∃ v, CompletesX (.lddir rd rj lv) s rd v
        else ∀ d, d = s.walkLoad (s.tableEntry b (s.walkAddr / 2 ^ p.2.1.toNat % 2 ^ p.2.2.toNat)) →
          LoadsX (.lddir rd rj lv) s d rd (unsignedOf 64) ∧
          ∀ e, s.checkAccess d = .exc e → Raises (.lddir rd rj lv) s e) ∧
      (∀ p ∈ [(3, bits c 0 6, bits c 6 6), (4, bits c 12 6, bits c 18 6)], lv.toNat = p.1 →
        if p.2.2 = 0 then ∃ v, CompletesX (.lddir rd rj lv) s rd v
        else ∀ d, d = s.walkLoad (s.tableEntry b (s.walkAddr / 2 ^ p.2.1.toNat % 2 ^ p.2.2.toNat)) →
          LoadsX (.lddir rd rj lv) s d rd (unsignedOf 64) ∧
          ∀ e, s.checkAccess d = .exc e → Raises (.lddir rd rj lv) s e) ∧
      (lv.toNat = 0 ∨ 4 < lv.toNat → ∃ v, CompletesX (.lddir rd rj lv) s rd v)) ∧
    (b.getLsbD 6 = false →
      (∀ e, s.checkAccess a = .exc e → Raises (.ldpte rj sq) s e) ∧
      (Accesses s a ps → w = BitVec.ofNat 64 (s.valueAt (physAddrs ps)) &&& 0xE000FFFFFFFFF07F →
        bits h 0 6 = (bits l 0 5).setWidth 6 → bits h 6 58 = bits r.ehi 6 58 →
        exec (.ldpte rj sq) s = .next (s.withRefill
          (if sq.getLsbD 0 then { r with elo1 := w, ehi := h } else { r with elo0 := w, ehi := h })))) ∧
    (b.getLsbD 6 = true → bits l 10 5 = 0 → ∃ w h, exec (.ldpte rj sq) s = .next (s.drawn.withRefill
        (if sq.getLsbD 0 then { r with elo1 := w, ehi := h } else { r with elo0 := w, ehi := h })) ∧
      bits w 0 6 = bits b 0 6 ∧ w.getLsbD 6 = b.getLsbD 12 ∧ bits w 61 3 = bits b 61 3 ∧ w &&& 0x1FFF000000000F80 = 0 ∧
      (sq.getLsbD 0 = false → bits w 12 36 = bits b 12 36) ∧ bits h 6 58 = bits r.ehi 6 58) ∧
    (b.getLsbD 6 = true → bits l 10 5 ≠ 0 → bits w 0 6 = bits b 0 6 → w.getLsbD 6 = b.getLsbD 12 → bits w 61 3 = bits b 61 3 →
      w &&& 0x1FFF000000000F80 = 0 →
      bits w 12 36 = BitVec.ofNat 36 ((b.toNat % 2 ^ 48 / 2 ^ (bits l 10 5).toNat * 2 ^ (bits l 10 5).toNat +
        if sq.getLsbD 0 then 2 ^ (bits l 10 5).toNat / 2 else 0) / 2 ^ 12) →
      bits h 0 6 = (bits l 10 5).setWidth 6 - 1 → bits h 6 58 = bits r.ehi 6 58 →
      exec (.ldpte rj sq) s = .next (s.withRefill
        (if sq.getLsbD 0 then { r with elo1 := w, ehi := h } else { r with elo0 := w, ehi := h })))

/-- Address translation in mapped mode: the lowest-numbered direct mapping window that hits, else the TLB: refill where
no entry matches, then the page checks in their order, then the physical address (R254, R255, R262 to R267).  The model's
choices: the lowest-numbered window (D7; log 49), every STLB entry examined (C13; log 39), a lookup under an unsupported page
size, of STLBPS or of an entry, and the memory access type 3 without behaviour (log 44, 43).  That a refill records the byte
that missed and a page exception the first address is deduced (D47; log 40). -/
def Obligations.Translation : Prop :=
  ∀ (s : State) (k : AccKind) (first va : Word), s.da = false → s.pg = true → s.rbits ≤ 8 →
    (∀ (w : Word) (n : Nat), (s.windows k)[n]? = some w → bits w 60 4 = bits va 60 4 → w.getLsbD s.plv.toNat = true →
      (∀ (m : Nat) (u : Word), m < n → (s.windows k)[m]? = some u → bits u 60 4 = bits va 60 4 → u.getLsbD s.plv.toNat = false) →
      bits w 4 2 ≠ 3 → s.translate k first va = .ok ⟨va.toNat % 2 ^ 48, bits w 4 2⟩) ∧
    ((∀ w ∈ s.windows k, bits w 60 4 = bits va 60 4 → w.getLsbD s.plv.toNat = false) →
      (¬SizesOk s → s.translate k first va = .stop (.refuse .pageSizeUnsupported)) ∧
      (SizesOk s → s.hitsOf (va.toNat % 2 ^ 48) = [] → s.translate k first va = .exc (.tlbr va)) ∧
      (SizesOk s → 2 ≤ (s.hitsOf (va.toNat % 2 ^ 48)).length →
        s.translate k first va = .stop (.fault .multipleTlbHits)) ∧
      ∀ e n p, SizesOk s → s.hitsOf (va.toNat % 2 ^ 48) = [e] → n = s.entryPs e →
        p = (if va.toNat / 2 ^ n % 2 = 1 then e.2.page1 else e.2.page0) →
        s.translate k first va =
          if p.v = false then
            .exc (match k with | .fetch => .pif first | .load => .pil first | .store => .pis first)
          else if k = .fetch ∧ p.nx = true then .exc (.pnx first)
          else if (p.rplv = true ∧ s.plv ≠ p.plv) ∨ (p.rplv = false ∧ p.plv < s.plv) then .exc (.ppi first)
          else if k = .load ∧ p.nr = true then .exc (.pnr first)
          else if k = .store ∧ p.d = false ∧ (s.plv = 3 ∨ s.csr.basic.misc.getLsbD (16 + s.plv.toNat) = false) then
            .exc (.pme first)
          else if p.mat = 3 then .stop (.refuse .memoryTypeReserved)
          else .ok ⟨p.ppn.toNat * 2 ^ 12 / 2 ^ n * 2 ^ n + va.toNat % 2 ^ n, p.mat⟩)

/-! ## Exceptions and interrupts (60_exceptions.md) -/

/-- ERTN at PLV0 in its four contexts, debug before machine error before TLB refill before general; LLbit is cleared
unless LLBCTL.KLO keeps it once (R845, R869). -/
def Obligations.ExceptionReturn : Prop :=
  ∀ (s : State) (c ctl prmd : BitVec 32), s.plv = 0 → c = s.csr.basic.crmd → ctl = s.csr.merr.ctl →
    prmd = (if s.isTlbr then s.csr.refill.prmd else s.csr.basic.prmd) →
    ∃ t, exec .ertn s = .next t ∧
      (if s.inDebug then t.pc = s.csr.dbgRegs.dera ∧ t.inDebug = false ∧ t.csr.basic.crmd = c
      else if s.isMerr then t.pc = s.csr.merr.era ∧ t.isMerr = false ∧ t.plv = bits ctl 2 2 ∧ t.ie = ctl.getLsbD 4 ∧
        t.we = ctl.getLsbD 6 ∧ t.da = ctl.getLsbD 7 ∧ t.pg = ctl.getLsbD 8 ∧
        bits t.csr.basic.crmd 5 2 = bits ctl 9 2 ∧ bits t.csr.basic.crmd 7 2 = bits ctl 11 2
      else if s.isTlbr then t.pc = bits s.csr.refill.era 2 62 ++ 0#2 ∧ t.isTlbr = false ∧ t.plv = bits prmd 0 2 ∧
        t.ie = prmd.getLsbD 2 ∧ t.we = prmd.getLsbD 4 ∧ t.da = false ∧ t.pg = true ∧
        bits t.csr.basic.crmd 5 4 = bits c 5 4
      else t.pc = s.csr.basic.era ∧ t.plv = bits prmd 0 2 ∧ t.ie = prmd.getLsbD 2 ∧ t.we = prmd.getLsbD 3 ∧
        t.da = s.da ∧ t.pg = s.pg ∧ bits t.csr.basic.crmd 5 4 = bits c 5 4) ∧
      t.llbit = (s.klo && s.llbit) ∧ t.klo = false ∧ t.llAddr = s.llAddr ∧
      (s.inDebug = true ∨ s.isMerr = true → t.isTlbr = s.isTlbr) ∧ (s.inDebug = true → t.isMerr = s.isMerr) ∧
      t.csr.basic.prmd = s.csr.basic.prmd ∧ t.csr.basic.era = s.csr.basic.era ∧ t.csr.refill.prmd = s.csr.refill.prmd ∧
      t.csr.basic.estat = s.csr.basic.estat ∧ SameX s t ∧ SameF s t ∧ SameCc s t ∧ SameFcsr s t ∧ SameMem s t ∧
      SameUnits s t

/-- Entry of a general exception outside debug mode: the mode saved and cleared, the pc in ERA, the codes of the table
in ESTAT, the address and instruction records, the entry address (R862 to R865, R867).  The offset of the entry by N =
Ecode, and Ecode 0 for an interrupt whatever VS is, are the decision D46 (log 78). -/
def Obligations.GeneralEntry : Prop :=
  ∀ (s : State) (va : Word) (d : Bool) (n vs : Nat), s.inDebug = false → vs = (bits s.csr.basic.ecfg 16 3).toNat →
    ∀ p ∈ [(Exc.pil va, 0x1#6, 0#9), (.pis va, 0x2#6, 0#9), (.pif va, 0x3#6, 0#9), (.pme va, 0x4#6, 0#9),
        (.pnr va, 0x5#6, 0#9), (.pnx va, 0x6#6, 0#9), (.ppi va, 0x7#6, 0#9), (.adef va, 0x8#6, 0#9),
        (.adem va, 0x8#6, 1#9), (.ale va, 0x9#6, 0#9), (.bce va, 0xA#6, 0#9), (.sys, 0xB#6, 0#9), (.brk, 0xC#6, 0#9),
        (.ine, 0xD#6, 0#9), (.ipe, 0xE#6, 0#9), (.fpd, 0xF#6, 0#9), (.fpe, 0x12#6, 0#9), (.wpef d, 0x13#6, 0#9),
        (.wpem d, 0x13#6, 1#9), (.int n, 0#6, 0#9)],
      EnteredGeneral s (s.raise p.1) p.2.1 p.2.2
        (s.csr.basic.eentry ||| if vs = 0 then 0 else
          BitVec.ofNat 64 (2 ^ (vs + 2) * if p.1 = .int n then n else p.2.1.toNat)) ∧
      (s.raise p.1).csr.basic.badv =
        (if p.1 ∈ [.pil va, .pis va, .pif va, .pme va, .pnr va, .pnx va, .ppi va, .adef va, .adem va, .ale va, .bce va]
         then va else s.csr.basic.badv) ∧
      (s.raise p.1).csr.mmu.tlbehi =
        (if p.1 ∈ [.pil va, .pis va, .pif va, .pme va, .pnr va, .pnx va, .ppi va]
         then (bits va 13 35 ++ 0#13).signExtend 64 else s.csr.mmu.tlbehi) ∧
      (s.raise p.1).csr.basic.badi = (if p.1 = .int n then s.csr.basic.badi else s.ir)

/-- Entry of a TLB refill exception and of a machine error exception: their own registers save, direct mode begins, and
the registers of a general exception stay (R866, R868; BADI of a refill: D14). -/
def Obligations.RefillAndErrorEntry : Prop :=
  ∀ (s t u : State) (va : Word) (r : MerrReport), s.inDebug = false → t = s.raise (.tlbr va) →
    u = s.raiseMachineError r →
    (t.pc = s.csr.refill.entry ∧ bits t.csr.refill.era 2 62 = bits s.pc 2 62 ∧ t.isTlbr = true ∧
      t.csr.refill.badv = va ∧ bits t.csr.refill.ehi 13 35 = bits va 13 35 ∧
      bits t.csr.refill.ehi 0 6 = bits s.csr.refill.ehi 0 6 ∧
      bits t.csr.refill.prmd 0 2 = s.plv ∧ t.csr.refill.prmd.getLsbD 2 = s.ie ∧ t.csr.refill.prmd.getLsbD 4 = s.we ∧
      t.plv = 0 ∧ t.ie = false ∧ t.we = false ∧ t.da = true ∧ t.pg = false ∧
      bits t.csr.basic.crmd 5 4 = bits s.csr.basic.crmd 5 4 ∧
      t = { s with
        pc := t.pc
        csr := { s.csr with
          basic := { s.csr.basic with crmd := t.csr.basic.crmd, badi := s.ir }
          refill := { s.csr.refill with
            era := t.csr.refill.era, badv := va, ehi := t.csr.refill.ehi, prmd := t.csr.refill.prmd } } }) ∧
    (u.pc = s.csr.merr.entry ∧ u.csr.merr.era = s.pc ∧ u.isMerr = true ∧ bits u.csr.merr.ctl 16 8 = r.cause ∧
      u.csr.merr.ctl.getLsbD 1 = r.repairable ∧ bits u.csr.merr.ctl 2 2 = s.plv ∧ u.csr.merr.ctl.getLsbD 4 = s.ie ∧
      u.csr.merr.ctl.getLsbD 6 = s.we ∧ u.csr.merr.ctl.getLsbD 7 = s.da ∧ u.csr.merr.ctl.getLsbD 8 = s.pg ∧
      bits u.csr.merr.ctl 9 2 = bits s.csr.basic.crmd 5 2 ∧ bits u.csr.merr.ctl 11 2 = bits s.csr.basic.crmd 7 2 ∧
      u.csr.merr.info1 = r.info1 ∧ u.csr.merr.info2 = r.info2 ∧ u.csr.basic.crmd = 0x8 ∧
      u = { s with
        pc := u.pc
        csr := { s.csr with
          basic := { s.csr.basic with crmd := 0x8 }
          merr := { s.csr.merr with ctl := u.csr.merr.ctl, info1 := r.info1, info2 := r.info2, era := s.pc } } })

/-- A step first takes the next input, where there is one: its ticks, lines, machine error, bus and IOCSR writes, and
nothing else (log 34).  Then it takes the highest-numbered interrupt that is pending, enabled in ECFG.LIE and let through
by CRMD.IE, before the instruction at pc; none is taken where IE is 0 or none is both pending and enabled (R881, R882,
R884).  IDLE waits at the next instruction; a step of the waiting machine does no more while no interrupt that ECFG.LIE
enables is pending, and goes on with the next instruction when one is, whatever CRMD.IE is (R849, D44; log 35). -/
def Obligations.InterruptsAndIdle : Prop :=
  (∀ (s : State) (i : EnvInput) (is : List EnvInput),
     (s.inputs = [] → s.takeInput = s) ∧
     (s.inputs = i :: is → MemOk s → ∀ t, t = s.takeInput →
       t.inputs = is ∧ t.hwi = i.hwi ∧ t.ipi = i.ipi ∧ t.stable = s.stable + BitVec.ofNat 64 i.ticks ∧
       t.csr = (s.tick i.ticks).csr ∧ t.llbit = (s.llbit && !i.clearLL) ∧ t.llAddr = s.llAddr ∧
       t.merrPending = s.merrPending.or i.merr ∧
       (∀ a, t.byteAt a = if a < 2 ^ 48 then (lastWrite i.memWrites a).getD (s.byteAt a) else s.byteAt a) ∧
       (∀ a, cellFind t.iocsr a = (lastWrite i.iocsrWrites a).or (cellFind s.iocsr a)) ∧
       t.pc = s.pc ∧ t.ir = s.ir ∧ t.tlb = s.tlb ∧ t.waiting = s.waiting ∧ SameX s t ∧ SameF s t ∧ SameCc s t ∧
       SameFcsr s t)) ∧
  (∀ (s₀ s : State) (v : BitVec 13), s = s₀.takeInput → v = s.is &&& bits s.csr.basic.ecfg 0 13 →
     (s.modeStop = none → s.ie = true → ∀ n, n < 13 → v.getLsbD n = true →
       (∀ m, n < m → m < 13 → v.getLsbD m = false) →
       step s₀ = .next ({ s with waiting := false }.raise (.int (64 + n)))) ∧
     (s.ie = false ∨ v = 0 → s.interrupt = none) ∧
     (s.modeStop = none → s.waiting = true →
       (v = 0 → step s₀ = .next s) ∧ (v ≠ 0 → step s₀ = step { s₀ with waiting := false }))) ∧
  ∀ (s : State) (hint : BitVec 15), s.plv = 0 →
    exec (.idle hint) s = .next { s with waiting := true, pc := s.pc + 4 }

/-- Below PLV0 every privileged instruction raises IPE; while EUEN.FPE is 0 every floating-point instruction raises FPD
(R810, R630).  That these come before an instruction's own checks is the model's choice (D27; log 51). -/
def Obligations.PrivilegeAndEnableTraps : Prop :=
  ∀ (s : State) (i : Instr) (rd rj rk : Reg) (num : BitVec 14) (op : BitVec 5) (si12 : BitVec 12) (n : BitVec 8)
    (code : BitVec 15),
    (s.plv ≠ 0 →
      i ∈ [.csrwr rd num, .csrxchg rd rj num, .iocsrrdB rd rj, .iocsrrdH rd rj, .iocsrrdW rd rj, .iocsrrdD rd rj,
        .iocsrwrB rd rj, .iocsrwrH rd rj, .iocsrwrW rd rj, .iocsrwrD rd rj, .cacop op rj si12, .tlbsrch, .tlbrd, .tlbwr,
        .tlbfill, .tlbclr, .tlbflush, .invtlb op rj rk, .lddir rd rj n, .ldpte rj n, .ertn, .dbcl code, .idle code] →
      Raises i s .ipe) ∧
    (s.csr.basic.euen.getLsbD 0 = false → Feature.fp ∈ features i → Raises i s .fpd)

/-- The exception of a data access, a page walk's among them, is the exception of the instruction, which then has no
other effect; a setting without behaviour stops it; a load/store watchpoint that matches an access free of them raises WPEM
with its Status bits set, or, with Skip set, lets the instruction do what it does without watchpoints and clears Skip
(R215, R878, R876, 13 R181, R185; the place of WPEM: log 48; which bytes an access presents: log 47). -/
def Obligations.AccessExceptions : Prop :=
  ∀ (s : State) (i : Instr) (a : Access), s.accessOf i = some a → (Feature.fp ∈ features i → FpOn s) →
    (∀ e, s.checkAccess a = .exc e → Raises i s e) ∧
    (∀ r, s.checkAccess a = .stop r → exec i s = r.out) ∧
    ∀ ps, s.checkAccess a = .ok ps → hitMask (s.mwpHits a) s.csr.watch.mwp ≠ 0 →
      (s.csr.watch.mwps.getLsbD 16 = false →
        exec i s = .next ((s.setMwps (s.csr.watch.mwps ||| hitMask (s.mwpHits a) s.csr.watch.mwp)).raise
          (.wpem (debugOnlyHit (s.mwpHits a) s.csr.watch.mwp)))) ∧
      (s.csr.watch.mwps.getLsbD 16 = true →
        ∃ t, exec i s.unwatched = .next t ∧
          exec i s = .next (t.setWatch { s.csr.watch with mwps := withBit s.csr.watch.mwps 16 false }))

/-- No instruction below PLV0 changes the TLB, an IOCSR register or the wait state, and none changes a control and status
register but by taking an exception of its own, at its pc and with its word, and MWPS where a watchpoint matched its
access: Skip cleared as it completes, or the Status bits set as it raises WPEM (13 R181, R876); none enters debug mode by
a debug call (R810).  Which bytes an access presents to the watchpoints: log 47. -/
def Obligations.UserModeKeepsPrivilege : Prop :=
  ∀ (s t : State) (i : Instr), s.plv ≠ 0 → exec i s = .next t →
    t.tlb = s.tlb ∧ t.iocsr = s.iocsr ∧ t.waiting = s.waiting ∧ t.stable = s.stable ∧ t.hwi = s.hwi ∧ t.ipi = s.ipi ∧
      (t.csr = s.csr ∨
        (∃ a, s.accessOf i = some a ∧ hitMask (s.mwpHits a) s.csr.watch.mwp ≠ 0 ∧ s.csr.watch.mwps.getLsbD 16 = true ∧
          t.csr = (s.setMwps (withBit s.csr.watch.mwps 16 false)).csr) ∨
        ∃ u e, t = State.raise u e ∧ u.pc = s.pc ∧ u.ir = s.ir ∧ e ≠ .dbcl ∧
          (u.csr = s.csr ∨
            ∃ a, s.accessOf i = some a ∧ hitMask (s.mwpHits a) s.csr.watch.mwp ≠ 0 ∧
              s.csr.watch.mwps.getLsbD 16 = false ∧ e = .wpem (debugOnlyHit (s.mwpHits a) s.csr.watch.mwp) ∧
              u.csr = (s.setMwps (s.csr.watch.mwps ||| hitMask (s.mwpHits a) s.csr.watch.mwp)).csr))

/-! ## Time, the step and reset -/

/-- Reading the Stable Counter: the counter plus CNTC, or a half of it, to rd, the Counter ID to rj; where MISC.DRDTL of
the level forbids it, IPE (R612 to R615).  With rd = rj the one register receives either value (log 28).  After `n`
ticks: an enabled timer that has not expired counts down, and at 0 sets TI; a one-shot timer stays at 0, a periodic one
starts again; TICLR.CLR clears TI (R155, 13 R154, R35, D20; log 57). -/
def Obligations.TimeAndTimer : Prop :=
  (∀ (s : State) (rd rj : Reg) (t id : Word), t = s.stable + s.csr.timer.cntc → id = s.csr.timer.tid.signExtend 64 →
     ∀ p ∈ [(Instr.rdtimelW rd rj, (t.setWidth 32).signExtend 64), (.rdtimehW rd rj, t.sshiftRight 32),
         (.rdtimeD rd rj, t)],
       if s.plv ≠ 0 ∧ s.csr.basic.misc.getLsbD (4 + s.plv.toNat) = true then Raises p.1 s .ipe
       else if rd = rj ∧ rd ≠ 0 then CompletesX p.1 s rd p.2 ∨ CompletesX p.1 s rd id
       else ∃ u, exec p.1 s = .next u ∧
         (∀ r, u.x r = if r = 0 then 0 else if r = rd then p.2 else if r = rj then id else s.x r) ∧
         NextPc s u ∧ SameButX s u) ∧
  ∀ (s t : State) (n : Nat) (c : TimerCsrs), c = s.csr.timer → t = s.tick n →
    t.stable = s.stable + BitVec.ofNat 64 n ∧
    (c.tcfg.getLsbD 0 = false ∨ c.tval = 0 → t.csr = s.csr) ∧
    (c.tcfg.getLsbD 0 = true → c.tval ≠ 0 →
      (n < c.tval.toNat → t.csr.timer.tval.toNat = c.tval.toNat - n ∧ t.csr.basic = s.csr.basic) ∧
      (c.tval.toNat ≤ n → t.csr.basic.estat.getLsbD 11 = true ∧
        (c.tcfg.getLsbD 1 = false → t.csr.timer.tval = 0) ∧
        (c.tcfg.getLsbD 1 = true → n = c.tval.toNat → t.csr.timer.tval = c.tcfg &&& ~~~3))) ∧
    ((s.csrWrite .ticlr 1).is.getLsbD 11 = false)

/-- A step, after its input, with no wait and no interrupt, runs the instruction whose word lies at pc: `exec` of it, the
word kept for BADI; a word that decodes to no instruction raises INE (R320, R321, R871).  Before it come, in this order,
a fetch watchpoint, with its Status bits set, unless Skip lets it pass; ADEF of a misaligned or illegal pc; the
exceptions of the translation; a machine error that waits (R210, R868, R876, R878, 13 R187, R191; log 36).  An exception
of the fetch itself records any word in BADI (log 20), and a byte stored since the last IBAR may be fetched with an
earlier value (log 33).  That memory is little-endian is presumed (R203; log 11). -/
def Obligations.StepRunsDecoded : Prop :=
  ∀ s₀ s : State, s = s₀.takeInput → Fetches s →
    (hitMask s.fwpHits s.csr.watch.fwp ≠ 0 → s.csr.watch.fwps.getLsbD 16 = false →
      ∃ w, step s₀ = .next (({ s.setFwps (s.csr.watch.fwps ||| hitMask s.fwpHits s.csr.watch.fwp) with
        ir := w } : State).drawn.raise (.wpef (debugOnlyHit s.fwpHits s.csr.watch.fwp)))) ∧
    ∀ (u : State) (a : Word), FetchPasses s u → a = s.effVa s.pc →
      (a.toNat % 4 ≠ 0 ∨ u.legal .fetch a = false →
        ∃ w, step s₀ = .next (({ u with ir := w } : State).drawn.raise (.adef a))) ∧
      (a.toNat % 4 = 0 → u.legal .fetch a = true →
        (∀ e, FirstRaises u .fetch a 4 e → ∃ w, step s₀ = .next (({ u with ir := w } : State).drawn.raise e)) ∧
        (∀ r, FirstStops u .fetch a 4 r → step s₀ = r.out) ∧
        ∀ p as v, BytesTranslate u .fetch a 4 p → as = (List.range 4).map (fun n => (p n).pa) → v = u.fetched as →
          (u.fetchOpen as = false → v = { u with ir := BitVec.ofNat 32 (u.valueAt as) }) ∧
          (∀ r, u.merrPending = some r →
            step s₀ = .next (({ v with merrPending := none } : State).raiseMachineError r)) ∧
          (u.merrPending = none →
            (∀ i, decode v.ir = some i → step s₀ = exec i v) ∧
            (decode v.ir = none → step s₀ = .next (v.raise .ine))))

/-- Decoding the encoding of a well-formed instruction gives the instruction back, with every operand at every value
(30_encoding.md R302 to R315, R320). -/
def Obligations.DecodeEncode : Prop := ∀ i : Instr, i.wf = true → decode (encode i) = some i

/-- Words of the spec's examples decode to their instructions, one from each chapter (40 to 49). -/
def Obligations.DecodeWords : Prop :=
  ∀ p ∈ [(0x001f18a4#32, Instr.mulwDW 4 5 6), (0x1a000024#32, .pcalau12i 4 1), (0x000898a4#32, .bytepickW 4 5 6 1),
      (0x00bf80a4#32, .bstrinsD 4 5 63 32), (0x580010a6#32, .beq 5 6 4), (0x381018a4#32, .stxB 4 5 6),
      (0x387f18a4#32, .stleW 4 5 6), (0x385d98a4#32, .amaddH 4 5 6), (0x386d18a4#32, .amxorDbW 4 5 6),
      (0x002518a4#32, .crcWWW 4 5 6), (0x01140441#32, .fabsS 1 2), (0x08a20c41#32, .fnmaddD 1 2 3 4),
      (0x011b2441#32, .ftintLS 1 2), (0x0c230c41#32, .fcmpCleD 1 2 3), (0x2b7fe0a1#32, .fstS 1 5 4088),
      (0x064814a4#32, .iocsrwrH 4 5)],
    decode p.1 = some p.2

/-- Every step keeps memory and the TLB in form, and the reserved bits of every control and status register and of fcsr0 as
they read (R41, R200, R250, R830; the RW bits are those of 11_csr_basic.md, 12_csr_mmu.md and 13). -/
def Obligations.StepKeepsInvariant : Prop :=
  ∀ s t : State, MemOk s → TlbOk s → ReservedOk s → step s = .next t → MemOk t ∧ TlbOk t ∧ ReservedOk t

/-- The machine after reset meets what every step keeps. -/
def Obligations.ResetInvariant : Prop := MemOk State.reset ∧ TlbOk State.reset ∧ ReservedOk State.reset

/-- What reset leaves where the spec gives a value (R920 to R922, R615). -/
def Obligations.ResetValues : Prop :=
  ∀ s : State, s = State.reset →
    s.pc = 0x1C000000 ∧ s.csr.basic.crmd = 0x8 ∧ s.csr.basic.euen = 0 ∧ s.csr.basic.misc = 0 ∧ s.csr.basic.ecfg = 0 ∧
    bits s.csr.basic.estat 0 2 = 0 ∧ s.rbits = 0 ∧ s.csr.timer.tcfg.getLsbD 0 = false ∧ s.klo = false ∧
    s.isTlbr = false ∧ s.isMerr = false ∧ (∀ n : Fin 4, bits s.csr.mmu.dmw[n] 0 4 = 0) ∧
    (∀ n : Fin 4, s.csr.perf.cfg[n] &&& 0x1F0000 = 0) ∧ s.csr.watch.mwps = 0 ∧ s.csr.watch.fwps = 0 ∧
    (∀ n : Fin 4, s.csr.watch.mwp[n] = ⟨0, 0, 0, 0⟩ ∧ s.csr.watch.fwp[n] = ⟨0, 0, 0, 0⟩) ∧ s.inDebug = false ∧
    s.stable = 0 ∧ s.plv = 0 ∧ s.interrupt = none ∧ s.x 0 = 0 ∧
    s.fetchPhys = .ok ((List.range 4).map fun n => ⟨0x1C000000 + n, 0⟩)

end
end

