-- ==== Sys2Proof/Laws/State.lean ====
section
/-! SUPPORT. One lemma per field per update of the state, so that no proof unfolds a record update. -/

namespace Sys2Proof.Machine

/-! ### setF -/
@[simp] theorem State.setF_gpr (s : State) (r : FReg) (v : Word) : (s.setF r v).gpr = s.gpr := rfl
@[simp] theorem State.setF_fcc (s : State) (r : FReg) (v : Word) : (s.setF r v).fcc = s.fcc := rfl
@[simp] theorem State.setF_fcsr0 (s : State) (r : FReg) (v : Word) : (s.setF r v).fcsr0 = s.fcsr0 := rfl
@[simp] theorem State.setF_pc (s : State) (r : FReg) (v : Word) : (s.setF r v).pc = s.pc := rfl
@[simp] theorem State.setF_ir (s : State) (r : FReg) (v : Word) : (s.setF r v).ir = s.ir := rfl
@[simp] theorem State.setF_csr (s : State) (r : FReg) (v : Word) : (s.setF r v).csr = s.csr := rfl
@[simp] theorem State.setF_llbit (s : State) (r : FReg) (v : Word) : (s.setF r v).llbit = s.llbit := rfl
@[simp] theorem State.setF_llAddr (s : State) (r : FReg) (v : Word) : (s.setF r v).llAddr = s.llAddr := rfl
@[simp] theorem State.setF_stable (s : State) (r : FReg) (v : Word) : (s.setF r v).stable = s.stable := rfl
@[simp] theorem State.setF_tlb (s : State) (r : FReg) (v : Word) : (s.setF r v).tlb = s.tlb := rfl
@[simp] theorem State.setF_mem (s : State) (r : FReg) (v : Word) : (s.setF r v).mem = s.mem := rfl
@[simp] theorem State.setF_stale (s : State) (r : FReg) (v : Word) : (s.setF r v).stale = s.stale := rfl
@[simp] theorem State.setF_iocsr (s : State) (r : FReg) (v : Word) : (s.setF r v).iocsr = s.iocsr := rfl
@[simp] theorem State.setF_hwi (s : State) (r : FReg) (v : Word) : (s.setF r v).hwi = s.hwi := rfl
@[simp] theorem State.setF_ipi (s : State) (r : FReg) (v : Word) : (s.setF r v).ipi = s.ipi := rfl
@[simp] theorem State.setF_waiting (s : State) (r : FReg) (v : Word) : (s.setF r v).waiting = s.waiting := rfl
@[simp] theorem State.setF_merrPending (s : State) (r : FReg) (v : Word) : (s.setF r v).merrPending = s.merrPending := rfl
@[simp] theorem State.setF_inputs (s : State) (r : FReg) (v : Word) : (s.setF r v).inputs = s.inputs := rfl
@[simp] theorem State.setF_freeCtr (s : State) (r : FReg) (v : Word) : (s.setF r v).freeCtr = s.freeCtr := rfl

/-! ### setCc -/
@[simp] theorem State.setCc_gpr (s : State) (c : CReg) (b : Bool) : (s.setCc c b).gpr = s.gpr := rfl
@[simp] theorem State.setCc_fpr (s : State) (c : CReg) (b : Bool) : (s.setCc c b).fpr = s.fpr := rfl
@[simp] theorem State.setCc_fcsr0 (s : State) (c : CReg) (b : Bool) : (s.setCc c b).fcsr0 = s.fcsr0 := rfl
@[simp] theorem State.setCc_pc (s : State) (c : CReg) (b : Bool) : (s.setCc c b).pc = s.pc := rfl
@[simp] theorem State.setCc_ir (s : State) (c : CReg) (b : Bool) : (s.setCc c b).ir = s.ir := rfl
@[simp] theorem State.setCc_csr (s : State) (c : CReg) (b : Bool) : (s.setCc c b).csr = s.csr := rfl
@[simp] theorem State.setCc_llbit (s : State) (c : CReg) (b : Bool) : (s.setCc c b).llbit = s.llbit := rfl
@[simp] theorem State.setCc_llAddr (s : State) (c : CReg) (b : Bool) : (s.setCc c b).llAddr = s.llAddr := rfl
@[simp] theorem State.setCc_stable (s : State) (c : CReg) (b : Bool) : (s.setCc c b).stable = s.stable := rfl
@[simp] theorem State.setCc_tlb (s : State) (c : CReg) (b : Bool) : (s.setCc c b).tlb = s.tlb := rfl
@[simp] theorem State.setCc_mem (s : State) (c : CReg) (b : Bool) : (s.setCc c b).mem = s.mem := rfl
@[simp] theorem State.setCc_stale (s : State) (c : CReg) (b : Bool) : (s.setCc c b).stale = s.stale := rfl
@[simp] theorem State.setCc_iocsr (s : State) (c : CReg) (b : Bool) : (s.setCc c b).iocsr = s.iocsr := rfl
@[simp] theorem State.setCc_hwi (s : State) (c : CReg) (b : Bool) : (s.setCc c b).hwi = s.hwi := rfl
@[simp] theorem State.setCc_ipi (s : State) (c : CReg) (b : Bool) : (s.setCc c b).ipi = s.ipi := rfl
@[simp] theorem State.setCc_waiting (s : State) (c : CReg) (b : Bool) : (s.setCc c b).waiting = s.waiting := rfl
@[simp] theorem State.setCc_merrPending (s : State) (c : CReg) (b : Bool) : (s.setCc c b).merrPending = s.merrPending := rfl
@[simp] theorem State.setCc_inputs (s : State) (c : CReg) (b : Bool) : (s.setCc c b).inputs = s.inputs := rfl
@[simp] theorem State.setCc_freeCtr (s : State) (c : CReg) (b : Bool) : (s.setCc c b).freeCtr = s.freeCtr := rfl

/-! ### setPc -/
@[simp] theorem State.setPc_gpr (s : State) (a : Word) : (s.setPc a).gpr = s.gpr := rfl
@[simp] theorem State.setPc_fpr (s : State) (a : Word) : (s.setPc a).fpr = s.fpr := rfl
@[simp] theorem State.setPc_fcc (s : State) (a : Word) : (s.setPc a).fcc = s.fcc := rfl
@[simp] theorem State.setPc_fcsr0 (s : State) (a : Word) : (s.setPc a).fcsr0 = s.fcsr0 := rfl
@[simp] theorem State.setPc_pc (s : State) (a : Word) : (s.setPc a).pc = a := rfl
@[simp] theorem State.setPc_ir (s : State) (a : Word) : (s.setPc a).ir = s.ir := rfl
@[simp] theorem State.setPc_csr (s : State) (a : Word) : (s.setPc a).csr = s.csr := rfl
@[simp] theorem State.setPc_llbit (s : State) (a : Word) : (s.setPc a).llbit = s.llbit := rfl
@[simp] theorem State.setPc_llAddr (s : State) (a : Word) : (s.setPc a).llAddr = s.llAddr := rfl
@[simp] theorem State.setPc_stable (s : State) (a : Word) : (s.setPc a).stable = s.stable := rfl
@[simp] theorem State.setPc_tlb (s : State) (a : Word) : (s.setPc a).tlb = s.tlb := rfl
@[simp] theorem State.setPc_mem (s : State) (a : Word) : (s.setPc a).mem = s.mem := rfl
@[simp] theorem State.setPc_stale (s : State) (a : Word) : (s.setPc a).stale = s.stale := rfl
@[simp] theorem State.setPc_iocsr (s : State) (a : Word) : (s.setPc a).iocsr = s.iocsr := rfl
@[simp] theorem State.setPc_hwi (s : State) (a : Word) : (s.setPc a).hwi = s.hwi := rfl
@[simp] theorem State.setPc_ipi (s : State) (a : Word) : (s.setPc a).ipi = s.ipi := rfl
@[simp] theorem State.setPc_waiting (s : State) (a : Word) : (s.setPc a).waiting = s.waiting := rfl
@[simp] theorem State.setPc_merrPending (s : State) (a : Word) : (s.setPc a).merrPending = s.merrPending := rfl
@[simp] theorem State.setPc_inputs (s : State) (a : Word) : (s.setPc a).inputs = s.inputs := rfl
@[simp] theorem State.setPc_freeCtr (s : State) (a : Word) : (s.setPc a).freeCtr = s.freeCtr := rfl

/-! ### advance -/
@[simp] theorem State.advance_gpr (s : State) : (s.advance).gpr = s.gpr := rfl
@[simp] theorem State.advance_fpr (s : State) : (s.advance).fpr = s.fpr := rfl
@[simp] theorem State.advance_fcc (s : State) : (s.advance).fcc = s.fcc := rfl
@[simp] theorem State.advance_fcsr0 (s : State) : (s.advance).fcsr0 = s.fcsr0 := rfl
@[simp] theorem State.advance_pc (s : State) : (s.advance).pc = s.pc + 4 := rfl
@[simp] theorem State.advance_ir (s : State) : (s.advance).ir = s.ir := rfl
@[simp] theorem State.advance_csr (s : State) : (s.advance).csr = s.csr := rfl
@[simp] theorem State.advance_llbit (s : State) : (s.advance).llbit = s.llbit := rfl
@[simp] theorem State.advance_llAddr (s : State) : (s.advance).llAddr = s.llAddr := rfl
@[simp] theorem State.advance_stable (s : State) : (s.advance).stable = s.stable := rfl
@[simp] theorem State.advance_tlb (s : State) : (s.advance).tlb = s.tlb := rfl
@[simp] theorem State.advance_mem (s : State) : (s.advance).mem = s.mem := rfl
@[simp] theorem State.advance_stale (s : State) : (s.advance).stale = s.stale := rfl
@[simp] theorem State.advance_iocsr (s : State) : (s.advance).iocsr = s.iocsr := rfl
@[simp] theorem State.advance_hwi (s : State) : (s.advance).hwi = s.hwi := rfl
@[simp] theorem State.advance_ipi (s : State) : (s.advance).ipi = s.ipi := rfl
@[simp] theorem State.advance_waiting (s : State) : (s.advance).waiting = s.waiting := rfl
@[simp] theorem State.advance_merrPending (s : State) : (s.advance).merrPending = s.merrPending := rfl
@[simp] theorem State.advance_inputs (s : State) : (s.advance).inputs = s.inputs := rfl
@[simp] theorem State.advance_freeCtr (s : State) : (s.advance).freeCtr = s.freeCtr := rfl

/-! ### setFcsr0 -/
@[simp] theorem State.setFcsr0_gpr (s : State) (v : BitVec 32) : (s.setFcsr0 v).gpr = s.gpr := rfl
@[simp] theorem State.setFcsr0_fpr (s : State) (v : BitVec 32) : (s.setFcsr0 v).fpr = s.fpr := rfl
@[simp] theorem State.setFcsr0_fcc (s : State) (v : BitVec 32) : (s.setFcsr0 v).fcc = s.fcc := rfl
@[simp] theorem State.setFcsr0_fcsr0 (s : State) (v : BitVec 32) : (s.setFcsr0 v).fcsr0 = v := rfl
@[simp] theorem State.setFcsr0_pc (s : State) (v : BitVec 32) : (s.setFcsr0 v).pc = s.pc := rfl
@[simp] theorem State.setFcsr0_ir (s : State) (v : BitVec 32) : (s.setFcsr0 v).ir = s.ir := rfl
@[simp] theorem State.setFcsr0_csr (s : State) (v : BitVec 32) : (s.setFcsr0 v).csr = s.csr := rfl
@[simp] theorem State.setFcsr0_llbit (s : State) (v : BitVec 32) : (s.setFcsr0 v).llbit = s.llbit := rfl
@[simp] theorem State.setFcsr0_llAddr (s : State) (v : BitVec 32) : (s.setFcsr0 v).llAddr = s.llAddr := rfl
@[simp] theorem State.setFcsr0_stable (s : State) (v : BitVec 32) : (s.setFcsr0 v).stable = s.stable := rfl
@[simp] theorem State.setFcsr0_tlb (s : State) (v : BitVec 32) : (s.setFcsr0 v).tlb = s.tlb := rfl
@[simp] theorem State.setFcsr0_mem (s : State) (v : BitVec 32) : (s.setFcsr0 v).mem = s.mem := rfl
@[simp] theorem State.setFcsr0_stale (s : State) (v : BitVec 32) : (s.setFcsr0 v).stale = s.stale := rfl
@[simp] theorem State.setFcsr0_iocsr (s : State) (v : BitVec 32) : (s.setFcsr0 v).iocsr = s.iocsr := rfl
@[simp] theorem State.setFcsr0_hwi (s : State) (v : BitVec 32) : (s.setFcsr0 v).hwi = s.hwi := rfl
@[simp] theorem State.setFcsr0_ipi (s : State) (v : BitVec 32) : (s.setFcsr0 v).ipi = s.ipi := rfl
@[simp] theorem State.setFcsr0_waiting (s : State) (v : BitVec 32) : (s.setFcsr0 v).waiting = s.waiting := rfl
@[simp] theorem State.setFcsr0_merrPending (s : State) (v : BitVec 32) : (s.setFcsr0 v).merrPending = s.merrPending := rfl
@[simp] theorem State.setFcsr0_inputs (s : State) (v : BitVec 32) : (s.setFcsr0 v).inputs = s.inputs := rfl
@[simp] theorem State.setFcsr0_freeCtr (s : State) (v : BitVec 32) : (s.setFcsr0 v).freeCtr = s.freeCtr := rfl

/-! ### setLL -/
@[simp] theorem State.setLL_gpr (s : State) (b : Bool) : (s.setLL b).gpr = s.gpr := rfl
@[simp] theorem State.setLL_fpr (s : State) (b : Bool) : (s.setLL b).fpr = s.fpr := rfl
@[simp] theorem State.setLL_fcc (s : State) (b : Bool) : (s.setLL b).fcc = s.fcc := rfl
@[simp] theorem State.setLL_fcsr0 (s : State) (b : Bool) : (s.setLL b).fcsr0 = s.fcsr0 := rfl
@[simp] theorem State.setLL_pc (s : State) (b : Bool) : (s.setLL b).pc = s.pc := rfl
@[simp] theorem State.setLL_ir (s : State) (b : Bool) : (s.setLL b).ir = s.ir := rfl
@[simp] theorem State.setLL_csr (s : State) (b : Bool) : (s.setLL b).csr = s.csr := rfl
@[simp] theorem State.setLL_llbit (s : State) (b : Bool) : (s.setLL b).llbit = b := rfl
@[simp] theorem State.setLL_llAddr (s : State) (b : Bool) : (s.setLL b).llAddr = s.llAddr := rfl
@[simp] theorem State.setLL_stable (s : State) (b : Bool) : (s.setLL b).stable = s.stable := rfl
@[simp] theorem State.setLL_tlb (s : State) (b : Bool) : (s.setLL b).tlb = s.tlb := rfl
@[simp] theorem State.setLL_mem (s : State) (b : Bool) : (s.setLL b).mem = s.mem := rfl
@[simp] theorem State.setLL_stale (s : State) (b : Bool) : (s.setLL b).stale = s.stale := rfl
@[simp] theorem State.setLL_iocsr (s : State) (b : Bool) : (s.setLL b).iocsr = s.iocsr := rfl
@[simp] theorem State.setLL_hwi (s : State) (b : Bool) : (s.setLL b).hwi = s.hwi := rfl
@[simp] theorem State.setLL_ipi (s : State) (b : Bool) : (s.setLL b).ipi = s.ipi := rfl
@[simp] theorem State.setLL_waiting (s : State) (b : Bool) : (s.setLL b).waiting = s.waiting := rfl
@[simp] theorem State.setLL_merrPending (s : State) (b : Bool) : (s.setLL b).merrPending = s.merrPending := rfl
@[simp] theorem State.setLL_inputs (s : State) (b : Bool) : (s.setLL b).inputs = s.inputs := rfl
@[simp] theorem State.setLL_freeCtr (s : State) (b : Bool) : (s.setLL b).freeCtr = s.freeCtr := rfl

/-! ### setTlb -/
@[simp] theorem State.setTlb_gpr (s : State) (t : List (Nat × TlbEntry)) : (s.setTlb t).gpr = s.gpr := rfl
@[simp] theorem State.setTlb_fpr (s : State) (t : List (Nat × TlbEntry)) : (s.setTlb t).fpr = s.fpr := rfl
@[simp] theorem State.setTlb_fcc (s : State) (t : List (Nat × TlbEntry)) : (s.setTlb t).fcc = s.fcc := rfl
@[simp] theorem State.setTlb_fcsr0 (s : State) (t : List (Nat × TlbEntry)) : (s.setTlb t).fcsr0 = s.fcsr0 := rfl
@[simp] theorem State.setTlb_pc (s : State) (t : List (Nat × TlbEntry)) : (s.setTlb t).pc = s.pc := rfl
@[simp] theorem State.setTlb_ir (s : State) (t : List (Nat × TlbEntry)) : (s.setTlb t).ir = s.ir := rfl
@[simp] theorem State.setTlb_csr (s : State) (t : List (Nat × TlbEntry)) : (s.setTlb t).csr = s.csr := rfl
@[simp] theorem State.setTlb_llbit (s : State) (t : List (Nat × TlbEntry)) : (s.setTlb t).llbit = s.llbit := rfl
@[simp] theorem State.setTlb_llAddr (s : State) (t : List (Nat × TlbEntry)) : (s.setTlb t).llAddr = s.llAddr := rfl
@[simp] theorem State.setTlb_stable (s : State) (t : List (Nat × TlbEntry)) : (s.setTlb t).stable = s.stable := rfl
@[simp] theorem State.setTlb_tlb (s : State) (t : List (Nat × TlbEntry)) : (s.setTlb t).tlb = t := rfl
@[simp] theorem State.setTlb_mem (s : State) (t : List (Nat × TlbEntry)) : (s.setTlb t).mem = s.mem := rfl
@[simp] theorem State.setTlb_stale (s : State) (t : List (Nat × TlbEntry)) : (s.setTlb t).stale = s.stale := rfl
@[simp] theorem State.setTlb_iocsr (s : State) (t : List (Nat × TlbEntry)) : (s.setTlb t).iocsr = s.iocsr := rfl
@[simp] theorem State.setTlb_hwi (s : State) (t : List (Nat × TlbEntry)) : (s.setTlb t).hwi = s.hwi := rfl
@[simp] theorem State.setTlb_ipi (s : State) (t : List (Nat × TlbEntry)) : (s.setTlb t).ipi = s.ipi := rfl
@[simp] theorem State.setTlb_waiting (s : State) (t : List (Nat × TlbEntry)) : (s.setTlb t).waiting = s.waiting := rfl
@[simp] theorem State.setTlb_merrPending (s : State) (t : List (Nat × TlbEntry)) : (s.setTlb t).merrPending = s.merrPending := rfl
@[simp] theorem State.setTlb_inputs (s : State) (t : List (Nat × TlbEntry)) : (s.setTlb t).inputs = s.inputs := rfl
@[simp] theorem State.setTlb_freeCtr (s : State) (t : List (Nat × TlbEntry)) : (s.setTlb t).freeCtr = s.freeCtr := rfl

/-! ### drawn -/
@[simp] theorem State.drawn_gpr (s : State) : (s.drawn).gpr = s.gpr := rfl
@[simp] theorem State.drawn_fpr (s : State) : (s.drawn).fpr = s.fpr := rfl
@[simp] theorem State.drawn_fcc (s : State) : (s.drawn).fcc = s.fcc := rfl
@[simp] theorem State.drawn_fcsr0 (s : State) : (s.drawn).fcsr0 = s.fcsr0 := rfl
@[simp] theorem State.drawn_pc (s : State) : (s.drawn).pc = s.pc := rfl
@[simp] theorem State.drawn_ir (s : State) : (s.drawn).ir = s.ir := rfl
@[simp] theorem State.drawn_csr (s : State) : (s.drawn).csr = s.csr := rfl
@[simp] theorem State.drawn_llbit (s : State) : (s.drawn).llbit = s.llbit := rfl
@[simp] theorem State.drawn_llAddr (s : State) : (s.drawn).llAddr = s.llAddr := rfl
@[simp] theorem State.drawn_stable (s : State) : (s.drawn).stable = s.stable := rfl
@[simp] theorem State.drawn_tlb (s : State) : (s.drawn).tlb = s.tlb := rfl
@[simp] theorem State.drawn_mem (s : State) : (s.drawn).mem = s.mem := rfl
@[simp] theorem State.drawn_stale (s : State) : (s.drawn).stale = s.stale := rfl
@[simp] theorem State.drawn_iocsr (s : State) : (s.drawn).iocsr = s.iocsr := rfl
@[simp] theorem State.drawn_hwi (s : State) : (s.drawn).hwi = s.hwi := rfl
@[simp] theorem State.drawn_ipi (s : State) : (s.drawn).ipi = s.ipi := rfl
@[simp] theorem State.drawn_waiting (s : State) : (s.drawn).waiting = s.waiting := rfl
@[simp] theorem State.drawn_merrPending (s : State) : (s.drawn).merrPending = s.merrPending := rfl
@[simp] theorem State.drawn_inputs (s : State) : (s.drawn).inputs = s.inputs := rfl
@[simp] theorem State.drawn_freeCtr (s : State) : (s.drawn).freeCtr = s.freeCtr + 1 := rfl

/-! ### setCause -/
@[simp] theorem State.setCause_gpr (s : State) (e : FpExc) : (s.setCause e).gpr = s.gpr := rfl
@[simp] theorem State.setCause_fpr (s : State) (e : FpExc) : (s.setCause e).fpr = s.fpr := rfl
@[simp] theorem State.setCause_fcc (s : State) (e : FpExc) : (s.setCause e).fcc = s.fcc := rfl
@[simp] theorem State.setCause_pc (s : State) (e : FpExc) : (s.setCause e).pc = s.pc := rfl
@[simp] theorem State.setCause_ir (s : State) (e : FpExc) : (s.setCause e).ir = s.ir := rfl
@[simp] theorem State.setCause_csr (s : State) (e : FpExc) : (s.setCause e).csr = s.csr := rfl
@[simp] theorem State.setCause_llbit (s : State) (e : FpExc) : (s.setCause e).llbit = s.llbit := rfl
@[simp] theorem State.setCause_llAddr (s : State) (e : FpExc) : (s.setCause e).llAddr = s.llAddr := rfl
@[simp] theorem State.setCause_stable (s : State) (e : FpExc) : (s.setCause e).stable = s.stable := rfl
@[simp] theorem State.setCause_tlb (s : State) (e : FpExc) : (s.setCause e).tlb = s.tlb := rfl
@[simp] theorem State.setCause_mem (s : State) (e : FpExc) : (s.setCause e).mem = s.mem := rfl
@[simp] theorem State.setCause_stale (s : State) (e : FpExc) : (s.setCause e).stale = s.stale := rfl
@[simp] theorem State.setCause_iocsr (s : State) (e : FpExc) : (s.setCause e).iocsr = s.iocsr := rfl
@[simp] theorem State.setCause_hwi (s : State) (e : FpExc) : (s.setCause e).hwi = s.hwi := rfl
@[simp] theorem State.setCause_ipi (s : State) (e : FpExc) : (s.setCause e).ipi = s.ipi := rfl
@[simp] theorem State.setCause_waiting (s : State) (e : FpExc) : (s.setCause e).waiting = s.waiting := rfl
@[simp] theorem State.setCause_merrPending (s : State) (e : FpExc) : (s.setCause e).merrPending = s.merrPending := rfl
@[simp] theorem State.setCause_inputs (s : State) (e : FpExc) : (s.setCause e).inputs = s.inputs := rfl
@[simp] theorem State.setCause_freeCtr (s : State) (e : FpExc) : (s.setCause e).freeCtr = s.freeCtr := rfl

/-! ### joinFlags -/
@[simp] theorem State.joinFlags_gpr (s : State) (e : FpExc) : (s.joinFlags e).gpr = s.gpr := rfl
@[simp] theorem State.joinFlags_fpr (s : State) (e : FpExc) : (s.joinFlags e).fpr = s.fpr := rfl
@[simp] theorem State.joinFlags_fcc (s : State) (e : FpExc) : (s.joinFlags e).fcc = s.fcc := rfl
@[simp] theorem State.joinFlags_pc (s : State) (e : FpExc) : (s.joinFlags e).pc = s.pc := rfl
@[simp] theorem State.joinFlags_ir (s : State) (e : FpExc) : (s.joinFlags e).ir = s.ir := rfl
@[simp] theorem State.joinFlags_csr (s : State) (e : FpExc) : (s.joinFlags e).csr = s.csr := rfl
@[simp] theorem State.joinFlags_llbit (s : State) (e : FpExc) : (s.joinFlags e).llbit = s.llbit := rfl
@[simp] theorem State.joinFlags_llAddr (s : State) (e : FpExc) : (s.joinFlags e).llAddr = s.llAddr := rfl
@[simp] theorem State.joinFlags_stable (s : State) (e : FpExc) : (s.joinFlags e).stable = s.stable := rfl
@[simp] theorem State.joinFlags_tlb (s : State) (e : FpExc) : (s.joinFlags e).tlb = s.tlb := rfl
@[simp] theorem State.joinFlags_mem (s : State) (e : FpExc) : (s.joinFlags e).mem = s.mem := rfl
@[simp] theorem State.joinFlags_stale (s : State) (e : FpExc) : (s.joinFlags e).stale = s.stale := rfl
@[simp] theorem State.joinFlags_iocsr (s : State) (e : FpExc) : (s.joinFlags e).iocsr = s.iocsr := rfl
@[simp] theorem State.joinFlags_hwi (s : State) (e : FpExc) : (s.joinFlags e).hwi = s.hwi := rfl
@[simp] theorem State.joinFlags_ipi (s : State) (e : FpExc) : (s.joinFlags e).ipi = s.ipi := rfl
@[simp] theorem State.joinFlags_waiting (s : State) (e : FpExc) : (s.joinFlags e).waiting = s.waiting := rfl
@[simp] theorem State.joinFlags_merrPending (s : State) (e : FpExc) : (s.joinFlags e).merrPending = s.merrPending := rfl
@[simp] theorem State.joinFlags_inputs (s : State) (e : FpExc) : (s.joinFlags e).inputs = s.inputs := rfl
@[simp] theorem State.joinFlags_freeCtr (s : State) (e : FpExc) : (s.joinFlags e).freeCtr = s.freeCtr := rfl

/-! ### setX, which discards a write of r0 -/
@[simp] theorem State.setX_fpr (s : State) (r : Reg) (v : Word) : (s.setX r v).fpr = s.fpr := by
  unfold State.setX; split <;> rfl
@[simp] theorem State.setX_fcc (s : State) (r : Reg) (v : Word) : (s.setX r v).fcc = s.fcc := by
  unfold State.setX; split <;> rfl
@[simp] theorem State.setX_fcsr0 (s : State) (r : Reg) (v : Word) : (s.setX r v).fcsr0 = s.fcsr0 := by
  unfold State.setX; split <;> rfl
@[simp] theorem State.setX_pc (s : State) (r : Reg) (v : Word) : (s.setX r v).pc = s.pc := by
  unfold State.setX; split <;> rfl
@[simp] theorem State.setX_ir (s : State) (r : Reg) (v : Word) : (s.setX r v).ir = s.ir := by
  unfold State.setX; split <;> rfl
@[simp] theorem State.setX_csr (s : State) (r : Reg) (v : Word) : (s.setX r v).csr = s.csr := by
  unfold State.setX; split <;> rfl
@[simp] theorem State.setX_llbit (s : State) (r : Reg) (v : Word) : (s.setX r v).llbit = s.llbit := by
  unfold State.setX; split <;> rfl
@[simp] theorem State.setX_llAddr (s : State) (r : Reg) (v : Word) : (s.setX r v).llAddr = s.llAddr := by
  unfold State.setX; split <;> rfl
@[simp] theorem State.setX_stable (s : State) (r : Reg) (v : Word) : (s.setX r v).stable = s.stable := by
  unfold State.setX; split <;> rfl
@[simp] theorem State.setX_tlb (s : State) (r : Reg) (v : Word) : (s.setX r v).tlb = s.tlb := by
  unfold State.setX; split <;> rfl
@[simp] theorem State.setX_mem (s : State) (r : Reg) (v : Word) : (s.setX r v).mem = s.mem := by
  unfold State.setX; split <;> rfl
@[simp] theorem State.setX_stale (s : State) (r : Reg) (v : Word) : (s.setX r v).stale = s.stale := by
  unfold State.setX; split <;> rfl
@[simp] theorem State.setX_iocsr (s : State) (r : Reg) (v : Word) : (s.setX r v).iocsr = s.iocsr := by
  unfold State.setX; split <;> rfl
@[simp] theorem State.setX_hwi (s : State) (r : Reg) (v : Word) : (s.setX r v).hwi = s.hwi := by
  unfold State.setX; split <;> rfl
@[simp] theorem State.setX_ipi (s : State) (r : Reg) (v : Word) : (s.setX r v).ipi = s.ipi := by
  unfold State.setX; split <;> rfl
@[simp] theorem State.setX_waiting (s : State) (r : Reg) (v : Word) : (s.setX r v).waiting = s.waiting := by
  unfold State.setX; split <;> rfl
@[simp] theorem State.setX_merrPending (s : State) (r : Reg) (v : Word) : (s.setX r v).merrPending = s.merrPending := by
  unfold State.setX; split <;> rfl
@[simp] theorem State.setX_inputs (s : State) (r : Reg) (v : Word) : (s.setX r v).inputs = s.inputs := by
  unfold State.setX; split <;> rfl
@[simp] theorem State.setX_freeCtr (s : State) (r : Reg) (v : Word) : (s.setX r v).freeCtr = s.freeCtr := by
  unfold State.setX; split <;> rfl

/-! ### setBasic -/
@[simp] theorem State.setBasic_gpr (s : State) (c : BasicCsrs) : (s.setBasic c).gpr = s.gpr := rfl
@[simp] theorem State.setBasic_fpr (s : State) (c : BasicCsrs) : (s.setBasic c).fpr = s.fpr := rfl
@[simp] theorem State.setBasic_fcc (s : State) (c : BasicCsrs) : (s.setBasic c).fcc = s.fcc := rfl
@[simp] theorem State.setBasic_fcsr0 (s : State) (c : BasicCsrs) : (s.setBasic c).fcsr0 = s.fcsr0 := rfl
@[simp] theorem State.setBasic_pc (s : State) (c : BasicCsrs) : (s.setBasic c).pc = s.pc := rfl
@[simp] theorem State.setBasic_ir (s : State) (c : BasicCsrs) : (s.setBasic c).ir = s.ir := rfl
@[simp] theorem State.setBasic_llbit (s : State) (c : BasicCsrs) : (s.setBasic c).llbit = s.llbit := rfl
@[simp] theorem State.setBasic_llAddr (s : State) (c : BasicCsrs) : (s.setBasic c).llAddr = s.llAddr := rfl
@[simp] theorem State.setBasic_stable (s : State) (c : BasicCsrs) : (s.setBasic c).stable = s.stable := rfl
@[simp] theorem State.setBasic_tlb (s : State) (c : BasicCsrs) : (s.setBasic c).tlb = s.tlb := rfl
@[simp] theorem State.setBasic_mem (s : State) (c : BasicCsrs) : (s.setBasic c).mem = s.mem := rfl
@[simp] theorem State.setBasic_stale (s : State) (c : BasicCsrs) : (s.setBasic c).stale = s.stale := rfl
@[simp] theorem State.setBasic_iocsr (s : State) (c : BasicCsrs) : (s.setBasic c).iocsr = s.iocsr := rfl
@[simp] theorem State.setBasic_hwi (s : State) (c : BasicCsrs) : (s.setBasic c).hwi = s.hwi := rfl
@[simp] theorem State.setBasic_ipi (s : State) (c : BasicCsrs) : (s.setBasic c).ipi = s.ipi := rfl
@[simp] theorem State.setBasic_waiting (s : State) (c : BasicCsrs) : (s.setBasic c).waiting = s.waiting := rfl
@[simp] theorem State.setBasic_merrPending (s : State) (c : BasicCsrs) : (s.setBasic c).merrPending = s.merrPending := rfl
@[simp] theorem State.setBasic_inputs (s : State) (c : BasicCsrs) : (s.setBasic c).inputs = s.inputs := rfl
@[simp] theorem State.setBasic_freeCtr (s : State) (c : BasicCsrs) : (s.setBasic c).freeCtr = s.freeCtr := rfl
@[simp] theorem State.setBasic_csr_basic (s : State) (c : BasicCsrs) : (s.setBasic c).csr.basic = c := rfl
@[simp] theorem State.setBasic_csr_mmu (s : State) (c : BasicCsrs) : (s.setBasic c).csr.mmu = s.csr.mmu := rfl
@[simp] theorem State.setBasic_csr_refill (s : State) (c : BasicCsrs) : (s.setBasic c).csr.refill = s.csr.refill := rfl
@[simp] theorem State.setBasic_csr_timer (s : State) (c : BasicCsrs) : (s.setBasic c).csr.timer = s.csr.timer := rfl
@[simp] theorem State.setBasic_csr_merr (s : State) (c : BasicCsrs) : (s.setBasic c).csr.merr = s.csr.merr := rfl
@[simp] theorem State.setBasic_csr_perf (s : State) (c : BasicCsrs) : (s.setBasic c).csr.perf = s.csr.perf := rfl
@[simp] theorem State.setBasic_csr_watch (s : State) (c : BasicCsrs) : (s.setBasic c).csr.watch = s.csr.watch := rfl
@[simp] theorem State.setBasic_csr_dbgRegs (s : State) (c : BasicCsrs) : (s.setBasic c).csr.dbgRegs = s.csr.dbgRegs := rfl
@[simp] theorem State.setBasic_csr_msg (s : State) (c : BasicCsrs) : (s.setBasic c).csr.msg = s.csr.msg := rfl

/-! ### setMmu -/
@[simp] theorem State.setMmu_gpr (s : State) (c : MmuCsrs) : (s.setMmu c).gpr = s.gpr := rfl
@[simp] theorem State.setMmu_fpr (s : State) (c : MmuCsrs) : (s.setMmu c).fpr = s.fpr := rfl
@[simp] theorem State.setMmu_fcc (s : State) (c : MmuCsrs) : (s.setMmu c).fcc = s.fcc := rfl
@[simp] theorem State.setMmu_fcsr0 (s : State) (c : MmuCsrs) : (s.setMmu c).fcsr0 = s.fcsr0 := rfl
@[simp] theorem State.setMmu_pc (s : State) (c : MmuCsrs) : (s.setMmu c).pc = s.pc := rfl
@[simp] theorem State.setMmu_ir (s : State) (c : MmuCsrs) : (s.setMmu c).ir = s.ir := rfl
@[simp] theorem State.setMmu_llbit (s : State) (c : MmuCsrs) : (s.setMmu c).llbit = s.llbit := rfl
@[simp] theorem State.setMmu_llAddr (s : State) (c : MmuCsrs) : (s.setMmu c).llAddr = s.llAddr := rfl
@[simp] theorem State.setMmu_stable (s : State) (c : MmuCsrs) : (s.setMmu c).stable = s.stable := rfl
@[simp] theorem State.setMmu_tlb (s : State) (c : MmuCsrs) : (s.setMmu c).tlb = s.tlb := rfl
@[simp] theorem State.setMmu_mem (s : State) (c : MmuCsrs) : (s.setMmu c).mem = s.mem := rfl
@[simp] theorem State.setMmu_stale (s : State) (c : MmuCsrs) : (s.setMmu c).stale = s.stale := rfl
@[simp] theorem State.setMmu_iocsr (s : State) (c : MmuCsrs) : (s.setMmu c).iocsr = s.iocsr := rfl
@[simp] theorem State.setMmu_hwi (s : State) (c : MmuCsrs) : (s.setMmu c).hwi = s.hwi := rfl
@[simp] theorem State.setMmu_ipi (s : State) (c : MmuCsrs) : (s.setMmu c).ipi = s.ipi := rfl
@[simp] theorem State.setMmu_waiting (s : State) (c : MmuCsrs) : (s.setMmu c).waiting = s.waiting := rfl
@[simp] theorem State.setMmu_merrPending (s : State) (c : MmuCsrs) : (s.setMmu c).merrPending = s.merrPending := rfl
@[simp] theorem State.setMmu_inputs (s : State) (c : MmuCsrs) : (s.setMmu c).inputs = s.inputs := rfl
@[simp] theorem State.setMmu_freeCtr (s : State) (c : MmuCsrs) : (s.setMmu c).freeCtr = s.freeCtr := rfl
@[simp] theorem State.setMmu_csr_basic (s : State) (c : MmuCsrs) : (s.setMmu c).csr.basic = s.csr.basic := rfl
@[simp] theorem State.setMmu_csr_mmu (s : State) (c : MmuCsrs) : (s.setMmu c).csr.mmu = c := rfl
@[simp] theorem State.setMmu_csr_refill (s : State) (c : MmuCsrs) : (s.setMmu c).csr.refill = s.csr.refill := rfl
@[simp] theorem State.setMmu_csr_timer (s : State) (c : MmuCsrs) : (s.setMmu c).csr.timer = s.csr.timer := rfl
@[simp] theorem State.setMmu_csr_merr (s : State) (c : MmuCsrs) : (s.setMmu c).csr.merr = s.csr.merr := rfl
@[simp] theorem State.setMmu_csr_perf (s : State) (c : MmuCsrs) : (s.setMmu c).csr.perf = s.csr.perf := rfl
@[simp] theorem State.setMmu_csr_watch (s : State) (c : MmuCsrs) : (s.setMmu c).csr.watch = s.csr.watch := rfl
@[simp] theorem State.setMmu_csr_dbgRegs (s : State) (c : MmuCsrs) : (s.setMmu c).csr.dbgRegs = s.csr.dbgRegs := rfl
@[simp] theorem State.setMmu_csr_msg (s : State) (c : MmuCsrs) : (s.setMmu c).csr.msg = s.csr.msg := rfl

/-! ### setRefill -/
@[simp] theorem State.setRefill_gpr (s : State) (c : RefillCsrs) : (s.setRefill c).gpr = s.gpr := rfl
@[simp] theorem State.setRefill_fpr (s : State) (c : RefillCsrs) : (s.setRefill c).fpr = s.fpr := rfl
@[simp] theorem State.setRefill_fcc (s : State) (c : RefillCsrs) : (s.setRefill c).fcc = s.fcc := rfl
@[simp] theorem State.setRefill_fcsr0 (s : State) (c : RefillCsrs) : (s.setRefill c).fcsr0 = s.fcsr0 := rfl
@[simp] theorem State.setRefill_pc (s : State) (c : RefillCsrs) : (s.setRefill c).pc = s.pc := rfl
@[simp] theorem State.setRefill_ir (s : State) (c : RefillCsrs) : (s.setRefill c).ir = s.ir := rfl
@[simp] theorem State.setRefill_llbit (s : State) (c : RefillCsrs) : (s.setRefill c).llbit = s.llbit := rfl
@[simp] theorem State.setRefill_llAddr (s : State) (c : RefillCsrs) : (s.setRefill c).llAddr = s.llAddr := rfl
@[simp] theorem State.setRefill_stable (s : State) (c : RefillCsrs) : (s.setRefill c).stable = s.stable := rfl
@[simp] theorem State.setRefill_tlb (s : State) (c : RefillCsrs) : (s.setRefill c).tlb = s.tlb := rfl
@[simp] theorem State.setRefill_mem (s : State) (c : RefillCsrs) : (s.setRefill c).mem = s.mem := rfl
@[simp] theorem State.setRefill_stale (s : State) (c : RefillCsrs) : (s.setRefill c).stale = s.stale := rfl
@[simp] theorem State.setRefill_iocsr (s : State) (c : RefillCsrs) : (s.setRefill c).iocsr = s.iocsr := rfl
@[simp] theorem State.setRefill_hwi (s : State) (c : RefillCsrs) : (s.setRefill c).hwi = s.hwi := rfl
@[simp] theorem State.setRefill_ipi (s : State) (c : RefillCsrs) : (s.setRefill c).ipi = s.ipi := rfl
@[simp] theorem State.setRefill_waiting (s : State) (c : RefillCsrs) : (s.setRefill c).waiting = s.waiting := rfl
@[simp] theorem State.setRefill_merrPending (s : State) (c : RefillCsrs) : (s.setRefill c).merrPending = s.merrPending := rfl
@[simp] theorem State.setRefill_inputs (s : State) (c : RefillCsrs) : (s.setRefill c).inputs = s.inputs := rfl
@[simp] theorem State.setRefill_freeCtr (s : State) (c : RefillCsrs) : (s.setRefill c).freeCtr = s.freeCtr := rfl
@[simp] theorem State.setRefill_csr_basic (s : State) (c : RefillCsrs) : (s.setRefill c).csr.basic = s.csr.basic := rfl
@[simp] theorem State.setRefill_csr_mmu (s : State) (c : RefillCsrs) : (s.setRefill c).csr.mmu = s.csr.mmu := rfl
@[simp] theorem State.setRefill_csr_refill (s : State) (c : RefillCsrs) : (s.setRefill c).csr.refill = c := rfl
@[simp] theorem State.setRefill_csr_timer (s : State) (c : RefillCsrs) : (s.setRefill c).csr.timer = s.csr.timer := rfl
@[simp] theorem State.setRefill_csr_merr (s : State) (c : RefillCsrs) : (s.setRefill c).csr.merr = s.csr.merr := rfl
@[simp] theorem State.setRefill_csr_perf (s : State) (c : RefillCsrs) : (s.setRefill c).csr.perf = s.csr.perf := rfl
@[simp] theorem State.setRefill_csr_watch (s : State) (c : RefillCsrs) : (s.setRefill c).csr.watch = s.csr.watch := rfl
@[simp] theorem State.setRefill_csr_dbgRegs (s : State) (c : RefillCsrs) : (s.setRefill c).csr.dbgRegs = s.csr.dbgRegs := rfl
@[simp] theorem State.setRefill_csr_msg (s : State) (c : RefillCsrs) : (s.setRefill c).csr.msg = s.csr.msg := rfl

/-! ### setTimer -/
@[simp] theorem State.setTimer_gpr (s : State) (c : TimerCsrs) : (s.setTimer c).gpr = s.gpr := rfl
@[simp] theorem State.setTimer_fpr (s : State) (c : TimerCsrs) : (s.setTimer c).fpr = s.fpr := rfl
@[simp] theorem State.setTimer_fcc (s : State) (c : TimerCsrs) : (s.setTimer c).fcc = s.fcc := rfl
@[simp] theorem State.setTimer_fcsr0 (s : State) (c : TimerCsrs) : (s.setTimer c).fcsr0 = s.fcsr0 := rfl
@[simp] theorem State.setTimer_pc (s : State) (c : TimerCsrs) : (s.setTimer c).pc = s.pc := rfl
@[simp] theorem State.setTimer_ir (s : State) (c : TimerCsrs) : (s.setTimer c).ir = s.ir := rfl
@[simp] theorem State.setTimer_llbit (s : State) (c : TimerCsrs) : (s.setTimer c).llbit = s.llbit := rfl
@[simp] theorem State.setTimer_llAddr (s : State) (c : TimerCsrs) : (s.setTimer c).llAddr = s.llAddr := rfl
@[simp] theorem State.setTimer_stable (s : State) (c : TimerCsrs) : (s.setTimer c).stable = s.stable := rfl
@[simp] theorem State.setTimer_tlb (s : State) (c : TimerCsrs) : (s.setTimer c).tlb = s.tlb := rfl
@[simp] theorem State.setTimer_mem (s : State) (c : TimerCsrs) : (s.setTimer c).mem = s.mem := rfl
@[simp] theorem State.setTimer_stale (s : State) (c : TimerCsrs) : (s.setTimer c).stale = s.stale := rfl
@[simp] theorem State.setTimer_iocsr (s : State) (c : TimerCsrs) : (s.setTimer c).iocsr = s.iocsr := rfl
@[simp] theorem State.setTimer_hwi (s : State) (c : TimerCsrs) : (s.setTimer c).hwi = s.hwi := rfl
@[simp] theorem State.setTimer_ipi (s : State) (c : TimerCsrs) : (s.setTimer c).ipi = s.ipi := rfl
@[simp] theorem State.setTimer_waiting (s : State) (c : TimerCsrs) : (s.setTimer c).waiting = s.waiting := rfl
@[simp] theorem State.setTimer_merrPending (s : State) (c : TimerCsrs) : (s.setTimer c).merrPending = s.merrPending := rfl
@[simp] theorem State.setTimer_inputs (s : State) (c : TimerCsrs) : (s.setTimer c).inputs = s.inputs := rfl
@[simp] theorem State.setTimer_freeCtr (s : State) (c : TimerCsrs) : (s.setTimer c).freeCtr = s.freeCtr := rfl
@[simp] theorem State.setTimer_csr_basic (s : State) (c : TimerCsrs) : (s.setTimer c).csr.basic = s.csr.basic := rfl
@[simp] theorem State.setTimer_csr_mmu (s : State) (c : TimerCsrs) : (s.setTimer c).csr.mmu = s.csr.mmu := rfl
@[simp] theorem State.setTimer_csr_refill (s : State) (c : TimerCsrs) : (s.setTimer c).csr.refill = s.csr.refill := rfl
@[simp] theorem State.setTimer_csr_timer (s : State) (c : TimerCsrs) : (s.setTimer c).csr.timer = c := rfl
@[simp] theorem State.setTimer_csr_merr (s : State) (c : TimerCsrs) : (s.setTimer c).csr.merr = s.csr.merr := rfl
@[simp] theorem State.setTimer_csr_perf (s : State) (c : TimerCsrs) : (s.setTimer c).csr.perf = s.csr.perf := rfl
@[simp] theorem State.setTimer_csr_watch (s : State) (c : TimerCsrs) : (s.setTimer c).csr.watch = s.csr.watch := rfl
@[simp] theorem State.setTimer_csr_dbgRegs (s : State) (c : TimerCsrs) : (s.setTimer c).csr.dbgRegs = s.csr.dbgRegs := rfl
@[simp] theorem State.setTimer_csr_msg (s : State) (c : TimerCsrs) : (s.setTimer c).csr.msg = s.csr.msg := rfl

/-! ### setMerr -/
@[simp] theorem State.setMerr_gpr (s : State) (c : MerrCsrs) : (s.setMerr c).gpr = s.gpr := rfl
@[simp] theorem State.setMerr_fpr (s : State) (c : MerrCsrs) : (s.setMerr c).fpr = s.fpr := rfl
@[simp] theorem State.setMerr_fcc (s : State) (c : MerrCsrs) : (s.setMerr c).fcc = s.fcc := rfl
@[simp] theorem State.setMerr_fcsr0 (s : State) (c : MerrCsrs) : (s.setMerr c).fcsr0 = s.fcsr0 := rfl
@[simp] theorem State.setMerr_pc (s : State) (c : MerrCsrs) : (s.setMerr c).pc = s.pc := rfl
@[simp] theorem State.setMerr_ir (s : State) (c : MerrCsrs) : (s.setMerr c).ir = s.ir := rfl
@[simp] theorem State.setMerr_llbit (s : State) (c : MerrCsrs) : (s.setMerr c).llbit = s.llbit := rfl
@[simp] theorem State.setMerr_llAddr (s : State) (c : MerrCsrs) : (s.setMerr c).llAddr = s.llAddr := rfl
@[simp] theorem State.setMerr_stable (s : State) (c : MerrCsrs) : (s.setMerr c).stable = s.stable := rfl
@[simp] theorem State.setMerr_tlb (s : State) (c : MerrCsrs) : (s.setMerr c).tlb = s.tlb := rfl
@[simp] theorem State.setMerr_mem (s : State) (c : MerrCsrs) : (s.setMerr c).mem = s.mem := rfl
@[simp] theorem State.setMerr_stale (s : State) (c : MerrCsrs) : (s.setMerr c).stale = s.stale := rfl
@[simp] theorem State.setMerr_iocsr (s : State) (c : MerrCsrs) : (s.setMerr c).iocsr = s.iocsr := rfl
@[simp] theorem State.setMerr_hwi (s : State) (c : MerrCsrs) : (s.setMerr c).hwi = s.hwi := rfl
@[simp] theorem State.setMerr_ipi (s : State) (c : MerrCsrs) : (s.setMerr c).ipi = s.ipi := rfl
@[simp] theorem State.setMerr_waiting (s : State) (c : MerrCsrs) : (s.setMerr c).waiting = s.waiting := rfl
@[simp] theorem State.setMerr_merrPending (s : State) (c : MerrCsrs) : (s.setMerr c).merrPending = s.merrPending := rfl
@[simp] theorem State.setMerr_inputs (s : State) (c : MerrCsrs) : (s.setMerr c).inputs = s.inputs := rfl
@[simp] theorem State.setMerr_freeCtr (s : State) (c : MerrCsrs) : (s.setMerr c).freeCtr = s.freeCtr := rfl
@[simp] theorem State.setMerr_csr_basic (s : State) (c : MerrCsrs) : (s.setMerr c).csr.basic = s.csr.basic := rfl
@[simp] theorem State.setMerr_csr_mmu (s : State) (c : MerrCsrs) : (s.setMerr c).csr.mmu = s.csr.mmu := rfl
@[simp] theorem State.setMerr_csr_refill (s : State) (c : MerrCsrs) : (s.setMerr c).csr.refill = s.csr.refill := rfl
@[simp] theorem State.setMerr_csr_timer (s : State) (c : MerrCsrs) : (s.setMerr c).csr.timer = s.csr.timer := rfl
@[simp] theorem State.setMerr_csr_merr (s : State) (c : MerrCsrs) : (s.setMerr c).csr.merr = c := rfl
@[simp] theorem State.setMerr_csr_perf (s : State) (c : MerrCsrs) : (s.setMerr c).csr.perf = s.csr.perf := rfl
@[simp] theorem State.setMerr_csr_watch (s : State) (c : MerrCsrs) : (s.setMerr c).csr.watch = s.csr.watch := rfl
@[simp] theorem State.setMerr_csr_dbgRegs (s : State) (c : MerrCsrs) : (s.setMerr c).csr.dbgRegs = s.csr.dbgRegs := rfl
@[simp] theorem State.setMerr_csr_msg (s : State) (c : MerrCsrs) : (s.setMerr c).csr.msg = s.csr.msg := rfl

/-! ### setPerf -/
@[simp] theorem State.setPerf_gpr (s : State) (c : PerfCsrs) : (s.setPerf c).gpr = s.gpr := rfl
@[simp] theorem State.setPerf_fpr (s : State) (c : PerfCsrs) : (s.setPerf c).fpr = s.fpr := rfl
@[simp] theorem State.setPerf_fcc (s : State) (c : PerfCsrs) : (s.setPerf c).fcc = s.fcc := rfl
@[simp] theorem State.setPerf_fcsr0 (s : State) (c : PerfCsrs) : (s.setPerf c).fcsr0 = s.fcsr0 := rfl
@[simp] theorem State.setPerf_pc (s : State) (c : PerfCsrs) : (s.setPerf c).pc = s.pc := rfl
@[simp] theorem State.setPerf_ir (s : State) (c : PerfCsrs) : (s.setPerf c).ir = s.ir := rfl
@[simp] theorem State.setPerf_llbit (s : State) (c : PerfCsrs) : (s.setPerf c).llbit = s.llbit := rfl
@[simp] theorem State.setPerf_llAddr (s : State) (c : PerfCsrs) : (s.setPerf c).llAddr = s.llAddr := rfl
@[simp] theorem State.setPerf_stable (s : State) (c : PerfCsrs) : (s.setPerf c).stable = s.stable := rfl
@[simp] theorem State.setPerf_tlb (s : State) (c : PerfCsrs) : (s.setPerf c).tlb = s.tlb := rfl
@[simp] theorem State.setPerf_mem (s : State) (c : PerfCsrs) : (s.setPerf c).mem = s.mem := rfl
@[simp] theorem State.setPerf_stale (s : State) (c : PerfCsrs) : (s.setPerf c).stale = s.stale := rfl
@[simp] theorem State.setPerf_iocsr (s : State) (c : PerfCsrs) : (s.setPerf c).iocsr = s.iocsr := rfl
@[simp] theorem State.setPerf_hwi (s : State) (c : PerfCsrs) : (s.setPerf c).hwi = s.hwi := rfl
@[simp] theorem State.setPerf_ipi (s : State) (c : PerfCsrs) : (s.setPerf c).ipi = s.ipi := rfl
@[simp] theorem State.setPerf_waiting (s : State) (c : PerfCsrs) : (s.setPerf c).waiting = s.waiting := rfl
@[simp] theorem State.setPerf_merrPending (s : State) (c : PerfCsrs) : (s.setPerf c).merrPending = s.merrPending := rfl
@[simp] theorem State.setPerf_inputs (s : State) (c : PerfCsrs) : (s.setPerf c).inputs = s.inputs := rfl
@[simp] theorem State.setPerf_freeCtr (s : State) (c : PerfCsrs) : (s.setPerf c).freeCtr = s.freeCtr := rfl
@[simp] theorem State.setPerf_csr_basic (s : State) (c : PerfCsrs) : (s.setPerf c).csr.basic = s.csr.basic := rfl
@[simp] theorem State.setPerf_csr_mmu (s : State) (c : PerfCsrs) : (s.setPerf c).csr.mmu = s.csr.mmu := rfl
@[simp] theorem State.setPerf_csr_refill (s : State) (c : PerfCsrs) : (s.setPerf c).csr.refill = s.csr.refill := rfl
@[simp] theorem State.setPerf_csr_timer (s : State) (c : PerfCsrs) : (s.setPerf c).csr.timer = s.csr.timer := rfl
@[simp] theorem State.setPerf_csr_merr (s : State) (c : PerfCsrs) : (s.setPerf c).csr.merr = s.csr.merr := rfl
@[simp] theorem State.setPerf_csr_perf (s : State) (c : PerfCsrs) : (s.setPerf c).csr.perf = c := rfl
@[simp] theorem State.setPerf_csr_watch (s : State) (c : PerfCsrs) : (s.setPerf c).csr.watch = s.csr.watch := rfl
@[simp] theorem State.setPerf_csr_dbgRegs (s : State) (c : PerfCsrs) : (s.setPerf c).csr.dbgRegs = s.csr.dbgRegs := rfl
@[simp] theorem State.setPerf_csr_msg (s : State) (c : PerfCsrs) : (s.setPerf c).csr.msg = s.csr.msg := rfl

/-! ### setWatch -/
@[simp] theorem State.setWatch_gpr (s : State) (c : WatchCsrs) : (s.setWatch c).gpr = s.gpr := rfl
@[simp] theorem State.setWatch_fpr (s : State) (c : WatchCsrs) : (s.setWatch c).fpr = s.fpr := rfl
@[simp] theorem State.setWatch_fcc (s : State) (c : WatchCsrs) : (s.setWatch c).fcc = s.fcc := rfl
@[simp] theorem State.setWatch_fcsr0 (s : State) (c : WatchCsrs) : (s.setWatch c).fcsr0 = s.fcsr0 := rfl
@[simp] theorem State.setWatch_pc (s : State) (c : WatchCsrs) : (s.setWatch c).pc = s.pc := rfl
@[simp] theorem State.setWatch_ir (s : State) (c : WatchCsrs) : (s.setWatch c).ir = s.ir := rfl
@[simp] theorem State.setWatch_llbit (s : State) (c : WatchCsrs) : (s.setWatch c).llbit = s.llbit := rfl
@[simp] theorem State.setWatch_llAddr (s : State) (c : WatchCsrs) : (s.setWatch c).llAddr = s.llAddr := rfl
@[simp] theorem State.setWatch_stable (s : State) (c : WatchCsrs) : (s.setWatch c).stable = s.stable := rfl
@[simp] theorem State.setWatch_tlb (s : State) (c : WatchCsrs) : (s.setWatch c).tlb = s.tlb := rfl
@[simp] theorem State.setWatch_mem (s : State) (c : WatchCsrs) : (s.setWatch c).mem = s.mem := rfl
@[simp] theorem State.setWatch_stale (s : State) (c : WatchCsrs) : (s.setWatch c).stale = s.stale := rfl
@[simp] theorem State.setWatch_iocsr (s : State) (c : WatchCsrs) : (s.setWatch c).iocsr = s.iocsr := rfl
@[simp] theorem State.setWatch_hwi (s : State) (c : WatchCsrs) : (s.setWatch c).hwi = s.hwi := rfl
@[simp] theorem State.setWatch_ipi (s : State) (c : WatchCsrs) : (s.setWatch c).ipi = s.ipi := rfl
@[simp] theorem State.setWatch_waiting (s : State) (c : WatchCsrs) : (s.setWatch c).waiting = s.waiting := rfl
@[simp] theorem State.setWatch_merrPending (s : State) (c : WatchCsrs) : (s.setWatch c).merrPending = s.merrPending := rfl
@[simp] theorem State.setWatch_inputs (s : State) (c : WatchCsrs) : (s.setWatch c).inputs = s.inputs := rfl
@[simp] theorem State.setWatch_freeCtr (s : State) (c : WatchCsrs) : (s.setWatch c).freeCtr = s.freeCtr := rfl
@[simp] theorem State.setWatch_csr_basic (s : State) (c : WatchCsrs) : (s.setWatch c).csr.basic = s.csr.basic := rfl
@[simp] theorem State.setWatch_csr_mmu (s : State) (c : WatchCsrs) : (s.setWatch c).csr.mmu = s.csr.mmu := rfl
@[simp] theorem State.setWatch_csr_refill (s : State) (c : WatchCsrs) : (s.setWatch c).csr.refill = s.csr.refill := rfl
@[simp] theorem State.setWatch_csr_timer (s : State) (c : WatchCsrs) : (s.setWatch c).csr.timer = s.csr.timer := rfl
@[simp] theorem State.setWatch_csr_merr (s : State) (c : WatchCsrs) : (s.setWatch c).csr.merr = s.csr.merr := rfl
@[simp] theorem State.setWatch_csr_perf (s : State) (c : WatchCsrs) : (s.setWatch c).csr.perf = s.csr.perf := rfl
@[simp] theorem State.setWatch_csr_watch (s : State) (c : WatchCsrs) : (s.setWatch c).csr.watch = c := rfl
@[simp] theorem State.setWatch_csr_dbgRegs (s : State) (c : WatchCsrs) : (s.setWatch c).csr.dbgRegs = s.csr.dbgRegs := rfl
@[simp] theorem State.setWatch_csr_msg (s : State) (c : WatchCsrs) : (s.setWatch c).csr.msg = s.csr.msg := rfl

/-! ### setDebug -/
@[simp] theorem State.setDebug_gpr (s : State) (c : DebugCsrs) : (s.setDebug c).gpr = s.gpr := rfl
@[simp] theorem State.setDebug_fpr (s : State) (c : DebugCsrs) : (s.setDebug c).fpr = s.fpr := rfl
@[simp] theorem State.setDebug_fcc (s : State) (c : DebugCsrs) : (s.setDebug c).fcc = s.fcc := rfl
@[simp] theorem State.setDebug_fcsr0 (s : State) (c : DebugCsrs) : (s.setDebug c).fcsr0 = s.fcsr0 := rfl
@[simp] theorem State.setDebug_pc (s : State) (c : DebugCsrs) : (s.setDebug c).pc = s.pc := rfl
@[simp] theorem State.setDebug_ir (s : State) (c : DebugCsrs) : (s.setDebug c).ir = s.ir := rfl
@[simp] theorem State.setDebug_llbit (s : State) (c : DebugCsrs) : (s.setDebug c).llbit = s.llbit := rfl
@[simp] theorem State.setDebug_llAddr (s : State) (c : DebugCsrs) : (s.setDebug c).llAddr = s.llAddr := rfl
@[simp] theorem State.setDebug_stable (s : State) (c : DebugCsrs) : (s.setDebug c).stable = s.stable := rfl
@[simp] theorem State.setDebug_tlb (s : State) (c : DebugCsrs) : (s.setDebug c).tlb = s.tlb := rfl
@[simp] theorem State.setDebug_mem (s : State) (c : DebugCsrs) : (s.setDebug c).mem = s.mem := rfl
@[simp] theorem State.setDebug_stale (s : State) (c : DebugCsrs) : (s.setDebug c).stale = s.stale := rfl
@[simp] theorem State.setDebug_iocsr (s : State) (c : DebugCsrs) : (s.setDebug c).iocsr = s.iocsr := rfl
@[simp] theorem State.setDebug_hwi (s : State) (c : DebugCsrs) : (s.setDebug c).hwi = s.hwi := rfl
@[simp] theorem State.setDebug_ipi (s : State) (c : DebugCsrs) : (s.setDebug c).ipi = s.ipi := rfl
@[simp] theorem State.setDebug_waiting (s : State) (c : DebugCsrs) : (s.setDebug c).waiting = s.waiting := rfl
@[simp] theorem State.setDebug_merrPending (s : State) (c : DebugCsrs) : (s.setDebug c).merrPending = s.merrPending := rfl
@[simp] theorem State.setDebug_inputs (s : State) (c : DebugCsrs) : (s.setDebug c).inputs = s.inputs := rfl
@[simp] theorem State.setDebug_freeCtr (s : State) (c : DebugCsrs) : (s.setDebug c).freeCtr = s.freeCtr := rfl
@[simp] theorem State.setDebug_csr_basic (s : State) (c : DebugCsrs) : (s.setDebug c).csr.basic = s.csr.basic := rfl
@[simp] theorem State.setDebug_csr_mmu (s : State) (c : DebugCsrs) : (s.setDebug c).csr.mmu = s.csr.mmu := rfl
@[simp] theorem State.setDebug_csr_refill (s : State) (c : DebugCsrs) : (s.setDebug c).csr.refill = s.csr.refill := rfl
@[simp] theorem State.setDebug_csr_timer (s : State) (c : DebugCsrs) : (s.setDebug c).csr.timer = s.csr.timer := rfl
@[simp] theorem State.setDebug_csr_merr (s : State) (c : DebugCsrs) : (s.setDebug c).csr.merr = s.csr.merr := rfl
@[simp] theorem State.setDebug_csr_perf (s : State) (c : DebugCsrs) : (s.setDebug c).csr.perf = s.csr.perf := rfl
@[simp] theorem State.setDebug_csr_watch (s : State) (c : DebugCsrs) : (s.setDebug c).csr.watch = s.csr.watch := rfl
@[simp] theorem State.setDebug_csr_dbgRegs (s : State) (c : DebugCsrs) : (s.setDebug c).csr.dbgRegs = c := rfl
@[simp] theorem State.setDebug_csr_msg (s : State) (c : DebugCsrs) : (s.setDebug c).csr.msg = s.csr.msg := rfl

/-! ### setMsg -/
@[simp] theorem State.setMsg_gpr (s : State) (c : MsgCsrs) : (s.setMsg c).gpr = s.gpr := rfl
@[simp] theorem State.setMsg_fpr (s : State) (c : MsgCsrs) : (s.setMsg c).fpr = s.fpr := rfl
@[simp] theorem State.setMsg_fcc (s : State) (c : MsgCsrs) : (s.setMsg c).fcc = s.fcc := rfl
@[simp] theorem State.setMsg_fcsr0 (s : State) (c : MsgCsrs) : (s.setMsg c).fcsr0 = s.fcsr0 := rfl
@[simp] theorem State.setMsg_pc (s : State) (c : MsgCsrs) : (s.setMsg c).pc = s.pc := rfl
@[simp] theorem State.setMsg_ir (s : State) (c : MsgCsrs) : (s.setMsg c).ir = s.ir := rfl
@[simp] theorem State.setMsg_llbit (s : State) (c : MsgCsrs) : (s.setMsg c).llbit = s.llbit := rfl
@[simp] theorem State.setMsg_llAddr (s : State) (c : MsgCsrs) : (s.setMsg c).llAddr = s.llAddr := rfl
@[simp] theorem State.setMsg_stable (s : State) (c : MsgCsrs) : (s.setMsg c).stable = s.stable := rfl
@[simp] theorem State.setMsg_tlb (s : State) (c : MsgCsrs) : (s.setMsg c).tlb = s.tlb := rfl
@[simp] theorem State.setMsg_mem (s : State) (c : MsgCsrs) : (s.setMsg c).mem = s.mem := rfl
@[simp] theorem State.setMsg_stale (s : State) (c : MsgCsrs) : (s.setMsg c).stale = s.stale := rfl
@[simp] theorem State.setMsg_iocsr (s : State) (c : MsgCsrs) : (s.setMsg c).iocsr = s.iocsr := rfl
@[simp] theorem State.setMsg_hwi (s : State) (c : MsgCsrs) : (s.setMsg c).hwi = s.hwi := rfl
@[simp] theorem State.setMsg_ipi (s : State) (c : MsgCsrs) : (s.setMsg c).ipi = s.ipi := rfl
@[simp] theorem State.setMsg_waiting (s : State) (c : MsgCsrs) : (s.setMsg c).waiting = s.waiting := rfl
@[simp] theorem State.setMsg_merrPending (s : State) (c : MsgCsrs) : (s.setMsg c).merrPending = s.merrPending := rfl
@[simp] theorem State.setMsg_inputs (s : State) (c : MsgCsrs) : (s.setMsg c).inputs = s.inputs := rfl
@[simp] theorem State.setMsg_freeCtr (s : State) (c : MsgCsrs) : (s.setMsg c).freeCtr = s.freeCtr := rfl
@[simp] theorem State.setMsg_csr_basic (s : State) (c : MsgCsrs) : (s.setMsg c).csr.basic = s.csr.basic := rfl
@[simp] theorem State.setMsg_csr_mmu (s : State) (c : MsgCsrs) : (s.setMsg c).csr.mmu = s.csr.mmu := rfl
@[simp] theorem State.setMsg_csr_refill (s : State) (c : MsgCsrs) : (s.setMsg c).csr.refill = s.csr.refill := rfl
@[simp] theorem State.setMsg_csr_timer (s : State) (c : MsgCsrs) : (s.setMsg c).csr.timer = s.csr.timer := rfl
@[simp] theorem State.setMsg_csr_merr (s : State) (c : MsgCsrs) : (s.setMsg c).csr.merr = s.csr.merr := rfl
@[simp] theorem State.setMsg_csr_perf (s : State) (c : MsgCsrs) : (s.setMsg c).csr.perf = s.csr.perf := rfl
@[simp] theorem State.setMsg_csr_watch (s : State) (c : MsgCsrs) : (s.setMsg c).csr.watch = s.csr.watch := rfl
@[simp] theorem State.setMsg_csr_dbgRegs (s : State) (c : MsgCsrs) : (s.setMsg c).csr.dbgRegs = s.csr.dbgRegs := rfl
@[simp] theorem State.setMsg_csr_msg (s : State) (c : MsgCsrs) : (s.setMsg c).csr.msg = c := rfl

/-! ### setCrmd -/
@[simp] theorem State.setCrmd_gpr (s : State) (v : BitVec 32) : (s.setCrmd v).gpr = s.gpr := rfl
@[simp] theorem State.setCrmd_fpr (s : State) (v : BitVec 32) : (s.setCrmd v).fpr = s.fpr := rfl
@[simp] theorem State.setCrmd_fcc (s : State) (v : BitVec 32) : (s.setCrmd v).fcc = s.fcc := rfl
@[simp] theorem State.setCrmd_fcsr0 (s : State) (v : BitVec 32) : (s.setCrmd v).fcsr0 = s.fcsr0 := rfl
@[simp] theorem State.setCrmd_pc (s : State) (v : BitVec 32) : (s.setCrmd v).pc = s.pc := rfl
@[simp] theorem State.setCrmd_ir (s : State) (v : BitVec 32) : (s.setCrmd v).ir = s.ir := rfl
@[simp] theorem State.setCrmd_llbit (s : State) (v : BitVec 32) : (s.setCrmd v).llbit = s.llbit := rfl
@[simp] theorem State.setCrmd_llAddr (s : State) (v : BitVec 32) : (s.setCrmd v).llAddr = s.llAddr := rfl
@[simp] theorem State.setCrmd_stable (s : State) (v : BitVec 32) : (s.setCrmd v).stable = s.stable := rfl
@[simp] theorem State.setCrmd_tlb (s : State) (v : BitVec 32) : (s.setCrmd v).tlb = s.tlb := rfl
@[simp] theorem State.setCrmd_mem (s : State) (v : BitVec 32) : (s.setCrmd v).mem = s.mem := rfl
@[simp] theorem State.setCrmd_stale (s : State) (v : BitVec 32) : (s.setCrmd v).stale = s.stale := rfl
@[simp] theorem State.setCrmd_iocsr (s : State) (v : BitVec 32) : (s.setCrmd v).iocsr = s.iocsr := rfl
@[simp] theorem State.setCrmd_hwi (s : State) (v : BitVec 32) : (s.setCrmd v).hwi = s.hwi := rfl
@[simp] theorem State.setCrmd_ipi (s : State) (v : BitVec 32) : (s.setCrmd v).ipi = s.ipi := rfl
@[simp] theorem State.setCrmd_waiting (s : State) (v : BitVec 32) : (s.setCrmd v).waiting = s.waiting := rfl
@[simp] theorem State.setCrmd_merrPending (s : State) (v : BitVec 32) : (s.setCrmd v).merrPending = s.merrPending := rfl
@[simp] theorem State.setCrmd_inputs (s : State) (v : BitVec 32) : (s.setCrmd v).inputs = s.inputs := rfl
@[simp] theorem State.setCrmd_freeCtr (s : State) (v : BitVec 32) : (s.setCrmd v).freeCtr = s.freeCtr := rfl
@[simp] theorem State.setCrmd_csr_mmu (s : State) (v : BitVec 32) : (s.setCrmd v).csr.mmu = s.csr.mmu := rfl
@[simp] theorem State.setCrmd_csr_refill (s : State) (v : BitVec 32) : (s.setCrmd v).csr.refill = s.csr.refill := rfl
@[simp] theorem State.setCrmd_csr_timer (s : State) (v : BitVec 32) : (s.setCrmd v).csr.timer = s.csr.timer := rfl
@[simp] theorem State.setCrmd_csr_merr (s : State) (v : BitVec 32) : (s.setCrmd v).csr.merr = s.csr.merr := rfl
@[simp] theorem State.setCrmd_csr_perf (s : State) (v : BitVec 32) : (s.setCrmd v).csr.perf = s.csr.perf := rfl
@[simp] theorem State.setCrmd_csr_watch (s : State) (v : BitVec 32) : (s.setCrmd v).csr.watch = s.csr.watch := rfl
@[simp] theorem State.setCrmd_csr_dbgRegs (s : State) (v : BitVec 32) : (s.setCrmd v).csr.dbgRegs = s.csr.dbgRegs := rfl
@[simp] theorem State.setCrmd_csr_msg (s : State) (v : BitVec 32) : (s.setCrmd v).csr.msg = s.csr.msg := rfl
@[simp] theorem State.setCrmd_csr_basic (s : State) (v : BitVec 32) : (s.setCrmd v).csr.basic = { s.csr.basic with crmd := v } := rfl

/-! ### Reading a register after writing one -/

/-- r0 reads 0 (10_state.md R20). -/
@[simp] theorem State.x_zero (s : State) : s.x 0 = 0 := rfl

/-- A general register after a write: r0 still reads 0, the others keep their value (10_state.md R20). -/
theorem State.x_setX (s : State) (rd r : Reg) (v : Word) :
    (s.setX rd v).x r = if r = rd ∧ rd ≠ 0 then v else s.x r := by
  by_cases h0 : rd = 0
  · rw [State.setX, if_pos h0, if_neg (fun h : r = rd ∧ rd ≠ 0 => h.2 h0)]
  · rw [State.setX, if_neg h0]
    unfold State.x
    by_cases hr : r = 0
    · rw [if_pos hr, if_pos hr, if_neg (fun h : r = rd ∧ rd ≠ 0 => h0 (h.1 ▸ hr))]
    · rw [if_neg hr, if_neg hr]
      by_cases he : r = rd
      · subst he; rw [if_pos ⟨rfl, h0⟩]; simp
      · have : rd.toNat ≠ r.toNat := fun h => he (BitVec.eq_of_toNat_eq h.symm)
        rw [if_neg (fun h : r = rd ∧ rd ≠ 0 => he h.1)]; simp [this]

/-- A floating-point register after a write of one. -/
theorem State.f_setF (s : State) (fd r : FReg) (v : Word) : (s.setF fd v).f r = if r = fd then v else s.f r := by
  unfold State.setF State.f
  by_cases he : r = fd
  · subst he; simp
  · have : fd.toNat ≠ r.toNat := fun h => he (BitVec.eq_of_toNat_eq h.symm)
    simp [he, this]

/-- A condition flag after a write of one. -/
theorem State.cc_setCc (s : State) (cd c : CReg) (b : Bool) : (s.setCc cd b).cc c = if c = cd then b else s.cc c := by
  unfold State.setCc State.cc
  by_cases he : c = cd
  · subst he; simp
  · have : cd.toNat ≠ c.toNat := fun h => he (BitVec.eq_of_toNat_eq h.symm)
    simp [he, this]

/-- The registers read the same in states that agree on them. -/
theorem State.x_congr {s t : State} (h : t.gpr = s.gpr) (r : Reg) : t.x r = s.x r := by simp only [State.x, h]

/-- The floating-point registers read the same in states that agree on them. -/
theorem State.f_congr {s t : State} (h : t.fpr = s.fpr) (r : FReg) : t.f r = s.f r := by simp only [State.f, h]

/-- The condition flags read the same in states that agree on them. -/
theorem State.cc_congr {s t : State} (h : t.fcc = s.fcc) (c : CReg) : t.cc c = s.cc c := by simp only [State.cc, h]

/-- The low word of the value that a 32-bit result leaves (10_state.md R26). -/
@[simp] theorem low32_append (u v : BitVec 32) : low32 (u ++ v) = v := by
  refine BitVec.eq_of_getLsbD_eq fun i hi => ?_
  have h : (u ++ v : BitVec (32 + 32)).getLsbD i = v.getLsbD i := by rw [BitVec.getLsbD_append, if_pos hi]
  simpa [low32, hi] using h

/-- The low word of `f[fd]` after a 32-bit result, whatever the upper half (10_state.md R26). -/
theorem State.fs_setFS (s : State) (fd : FReg) (v : BitVec 32) : (s.setFS fd v).fs fd = v := by
  have : (s.setFS fd v).f fd = (s.setF fd (bits s.free 32 32 ++ v)).f fd := rfl
  rw [State.fs, this, State.f_setF]; simp

/-- The other floating-point registers after a 32-bit result. -/
theorem State.f_setFS_ne (s : State) {fd r : FReg} (v : BitVec 32) (h : r ≠ fd) : (s.setFS fd v).f r = s.f r := by
  have : (s.setFS fd v).f r = (s.setF fd (bits s.free 32 32 ++ v)).f r := rfl
  rw [this, State.f_setF, if_neg h]

end Sys2Proof.Machine
end

