-- ==== Sys2Proof/Laws/Memory.lean ====
section
/-! SUPPORT. Memory: reading after writing, the canonical form, and what storing bytes leaves as it was. -/

namespace Sys2Proof.Machine

/-- A byte below every entry reads as an unlisted one. -/
theorem Memory.read_below {lo : Nat} : ∀ {m : List Host.Cell}, Memory.wfFrom lo m = true → ∀ {x}, x < lo →
    Memory.read m x = Memory.unlisted
  | [], _, _, _ => rfl
  | (a, b) :: m, h, x, hx => by
    simp only [Memory.wfFrom, Bool.and_eq_true, decide_eq_true_eq] at h
    rw [Memory.read, if_neg (by omega), if_pos (by omega)]

/-- The canonical form from a lower start. -/
theorem Memory.wfFrom_mono {lo lo' : Nat} (hl : lo' ≤ lo) : ∀ {m : List Host.Cell}, Memory.wfFrom lo m = true →
    Memory.wfFrom lo' m = true
  | [], _ => rfl
  | (a, b) :: m, h => by
    simp only [Memory.wfFrom, Bool.and_eq_true, decide_eq_true_eq] at h ⊢
    exact ⟨⟨by omega, h.1.2⟩, h.2⟩

/-- Reading after a write: the byte written at its address, every other byte as it was. -/
theorem Memory.read_write {x : Nat} {b : Byte} : ∀ {m : List Host.Cell} {lo : Nat}, Memory.wfFrom lo m = true → ∀ y,
    Memory.read (Memory.write m x b) y = if y = x then b else Memory.read m y
  | [], _, _, y => by
    unfold Memory.write
    by_cases hb : b = Memory.unlisted <;> by_cases hy : y = x <;> simp [Memory.read, hb, hy]
  | (a, c) :: m, lo, h, y => by
    have hm : Memory.wfFrom (a + 1) m = true := by
      simp only [Memory.wfFrom, Bool.and_eq_true] at h; exact h.2
    unfold Memory.write
    by_cases hxa : x < a
    · rw [if_pos hxa]
      by_cases hb : b = Memory.unlisted
      · rw [if_pos hb]
        by_cases hy : y = x
        · rw [if_pos hy, hy, Memory.read, if_neg (by omega), if_pos hxa, hb]
        · rw [if_neg hy]
      · rw [if_neg hb, Memory.read]
        by_cases hy : y = x
        · rw [if_pos hy, if_pos hy]
        · rw [if_neg hy, if_neg hy]
          by_cases hlt : y < x
          · rw [if_pos hlt, Memory.read, if_neg (by omega), if_pos (by omega)]
          · rw [if_neg hlt]
    · rw [if_neg hxa]
      by_cases he : x = a
      · rw [if_pos he]
        by_cases hb : b = Memory.unlisted
        · rw [if_pos hb]
          by_cases hy : y = x
          · rw [if_pos hy, hb, Memory.read_below hm (by omega)]
          · rw [if_neg hy, Memory.read, if_neg (by omega)]
            by_cases hlt : y < a
            · rw [if_pos hlt, Memory.read_below hm (by omega)]
            · rw [if_neg hlt]
        · subst he
          rw [if_neg hb]
          by_cases hy : y = x <;> simp [Memory.read, hy]
      · rw [if_neg he, Memory.read, Memory.read]
        by_cases hya : y = a
        · rw [if_pos hya, if_pos hya, if_neg (by omega)]
        · rw [if_neg hya, if_neg hya]
          by_cases hlt : y < a
          · rw [if_pos hlt, if_pos hlt, if_neg (by omega)]
          · rw [if_neg hlt, if_neg hlt, Memory.read_write hm y]

/-- A write keeps the canonical form. -/
theorem Memory.write_wfFrom {x : Nat} {b : Byte} : ∀ {m : List Host.Cell} {lo : Nat}, Memory.wfFrom lo m = true →
    lo ≤ x → Memory.wfFrom lo (Memory.write m x b) = true
  | [], lo, _, hx => by
    unfold Memory.write
    by_cases hb : b = Memory.unlisted <;> simp [Memory.wfFrom, hb, hx]
  | (a, c) :: m, lo, h, hx => by
    have h' := h
    simp only [Memory.wfFrom, Bool.and_eq_true, decide_eq_true_eq] at h'
    obtain ⟨⟨hla, hc⟩, hm⟩ := h'
    unfold Memory.write
    by_cases hxa : x < a
    · rw [if_pos hxa]
      by_cases hb : b = Memory.unlisted
      · rwa [if_pos hb]
      · rw [if_neg hb]
        simp only [Memory.wfFrom, Bool.and_eq_true, decide_eq_true_eq, bne_iff_ne, ne_eq]
        exact ⟨⟨hx, hb⟩, ⟨⟨by omega, by simpa using hc⟩, hm⟩⟩
    · rw [if_neg hxa]
      by_cases he : x = a
      · rw [if_pos he]
        by_cases hb : b = Memory.unlisted
        · rw [if_pos hb]; exact Memory.wfFrom_mono (by omega) hm
        · rw [if_neg hb]
          simp only [Memory.wfFrom, Bool.and_eq_true, decide_eq_true_eq, bne_iff_ne, ne_eq]
          exact ⟨⟨hx, hb⟩, by rw [he]; exact hm⟩
      · rw [if_neg he]
        simp only [Memory.wfFrom, Bool.and_eq_true, decide_eq_true_eq]
        exact ⟨⟨hla, hc⟩, Memory.write_wfFrom hm (by omega)⟩

/-- A write keeps the canonical form. -/
theorem Memory.write_wf {m : List Host.Cell} {x : Nat} {b : Byte} (h : Memory.wf m = true) :
    Memory.wf (Memory.write m x b) = true := Memory.write_wfFrom h (Nat.zero_le x)

/-- A write lists no address but its own and those listed before. -/
theorem Memory.mem_write {x : Nat} {b : Byte} : ∀ {m : List Host.Cell} {c : Host.Cell}, c ∈ Memory.write m x b →
    c = (x, b) ∨ c ∈ m
  | [], c, h => by
    unfold Memory.write at h
    split at h
    · cases h
    · exact .inl (List.mem_singleton.mp h)
  | (a, d) :: m, c, h => by
    unfold Memory.write at h
    repeat' split at h
    all_goals first
      | exact .inr h
      | (rcases List.mem_cons.mp h with h | h
         · first | exact .inl h | (exact .inr (h ▸ List.mem_cons_self))
         · first
            | exact .inr h
            | exact .inr (List.mem_cons_of_mem _ h)
            | (rcases Memory.mem_write h with h | h
               · exact .inl h
               · exact .inr (List.mem_cons_of_mem _ h)))
      | exact .inr (List.mem_cons_of_mem _ h)

/-- Memory right after reset is in canonical form. -/
theorem State.reset_mem_wf : Memory.wf State.reset.mem = true := rfl

/-! ## Bytes stored -/

/-- A byte stored at its address, every other byte as it was. -/
theorem State.byteAt_storeByte {s : State} (h : Memory.wf s.mem = true) (a : Nat) (b : Byte) (y : Nat) :
    (s.storeByte a b).byteAt y = if y = a then b else s.byteAt y := Memory.read_write h y

/-- Storing a byte keeps the canonical form. -/
theorem State.storeByte_wf {s : State} (h : Memory.wf s.mem = true) (a : Nat) (b : Byte) :
    Memory.wf (s.storeByte a b).mem = true := Memory.write_wf h

/-- Storing a byte within the physical space keeps memory as every step does. -/
theorem State.storeByte_ok {s : State} (h : MemOk s) {a : Nat} (ha : a < 2 ^ Config.palen) (b : Byte) :
    MemOk (s.storeByte a b) :=
  ⟨Memory.write_wf h.1, fun c hc => by
    rcases Memory.mem_write hc with rfl | hc
    · exact ha
    · exact h.2 c hc⟩

/-- Storing bytes within the physical space keeps memory as every step does. -/
theorem State.storeBytes_ok : ∀ {as : List Nat} {s : State} {v : Word}, MemOk s → (∀ a ∈ as, a < 2 ^ Config.palen) →
    MemOk (s.storeBytes as v)
  | [], _, _, h, _ => h
  | a :: as, _, _, h, ha =>
    State.storeBytes_ok (as := as) (State.storeByte_ok h (ha a List.mem_cons_self) _)
      fun b hb => ha b (List.mem_cons_of_mem _ hb)

/-- Storing bytes changes memory and what a fetch may still see, and nothing else. -/
theorem State.storeBytes_eq : ∀ (as : List Nat) (s : State) (v : Word), ∃ m l,
    s.storeBytes as v = { s with mem := m, stale := l }
  | [], s, _ => ⟨s.mem, s.stale, rfl⟩
  | a :: as, s, v => by
    obtain ⟨m, l, h⟩ := State.storeBytes_eq as (s.storeByte a (v.setWidth 8)) (v >>> 8)
    exact ⟨m, l, by rw [State.storeBytes, h]; rfl⟩

/-- A byte outside the stored ones is as it was. -/
theorem State.byteAt_storeBytes_ne : ∀ {as : List Nat} {s : State} {v : Word}, Memory.wf s.mem = true → ∀ {y},
    y ∉ as → (s.storeBytes as v).byteAt y = s.byteAt y
  | [], _, _, _, _, _ => rfl
  | a :: as, s, v, h, y, hy => by
    have h1 : y ≠ a := fun e => hy (e ▸ List.mem_cons_self)
    have h2 : y ∉ as := fun e => hy (List.mem_cons_of_mem _ e)
    rw [State.storeBytes, State.byteAt_storeBytes_ne (State.storeByte_wf h a _) h2,
      State.byteAt_storeByte h, if_neg h1]

@[simp] theorem State.storeBytes_gpr (s : State) (as : List Nat) (v : Word) :
    (s.storeBytes as v).gpr = s.gpr := by
  obtain ⟨m, l, h⟩ := State.storeBytes_eq as s v; rw [h]
@[simp] theorem State.storeBytes_fpr (s : State) (as : List Nat) (v : Word) :
    (s.storeBytes as v).fpr = s.fpr := by
  obtain ⟨m, l, h⟩ := State.storeBytes_eq as s v; rw [h]
@[simp] theorem State.storeBytes_fcc (s : State) (as : List Nat) (v : Word) :
    (s.storeBytes as v).fcc = s.fcc := by
  obtain ⟨m, l, h⟩ := State.storeBytes_eq as s v; rw [h]
@[simp] theorem State.storeBytes_fcsr0 (s : State) (as : List Nat) (v : Word) :
    (s.storeBytes as v).fcsr0 = s.fcsr0 := by
  obtain ⟨m, l, h⟩ := State.storeBytes_eq as s v; rw [h]
@[simp] theorem State.storeBytes_pc (s : State) (as : List Nat) (v : Word) :
    (s.storeBytes as v).pc = s.pc := by
  obtain ⟨m, l, h⟩ := State.storeBytes_eq as s v; rw [h]
@[simp] theorem State.storeBytes_ir (s : State) (as : List Nat) (v : Word) :
    (s.storeBytes as v).ir = s.ir := by
  obtain ⟨m, l, h⟩ := State.storeBytes_eq as s v; rw [h]
@[simp] theorem State.storeBytes_csr (s : State) (as : List Nat) (v : Word) :
    (s.storeBytes as v).csr = s.csr := by
  obtain ⟨m, l, h⟩ := State.storeBytes_eq as s v; rw [h]
@[simp] theorem State.storeBytes_llbit (s : State) (as : List Nat) (v : Word) :
    (s.storeBytes as v).llbit = s.llbit := by
  obtain ⟨m, l, h⟩ := State.storeBytes_eq as s v; rw [h]
@[simp] theorem State.storeBytes_llAddr (s : State) (as : List Nat) (v : Word) :
    (s.storeBytes as v).llAddr = s.llAddr := by
  obtain ⟨m, l, h⟩ := State.storeBytes_eq as s v; rw [h]
@[simp] theorem State.storeBytes_stable (s : State) (as : List Nat) (v : Word) :
    (s.storeBytes as v).stable = s.stable := by
  obtain ⟨m, l, h⟩ := State.storeBytes_eq as s v; rw [h]
@[simp] theorem State.storeBytes_tlb (s : State) (as : List Nat) (v : Word) :
    (s.storeBytes as v).tlb = s.tlb := by
  obtain ⟨m, l, h⟩ := State.storeBytes_eq as s v; rw [h]
@[simp] theorem State.storeBytes_iocsr (s : State) (as : List Nat) (v : Word) :
    (s.storeBytes as v).iocsr = s.iocsr := by
  obtain ⟨m, l, h⟩ := State.storeBytes_eq as s v; rw [h]
@[simp] theorem State.storeBytes_hwi (s : State) (as : List Nat) (v : Word) :
    (s.storeBytes as v).hwi = s.hwi := by
  obtain ⟨m, l, h⟩ := State.storeBytes_eq as s v; rw [h]
@[simp] theorem State.storeBytes_ipi (s : State) (as : List Nat) (v : Word) :
    (s.storeBytes as v).ipi = s.ipi := by
  obtain ⟨m, l, h⟩ := State.storeBytes_eq as s v; rw [h]
@[simp] theorem State.storeBytes_waiting (s : State) (as : List Nat) (v : Word) :
    (s.storeBytes as v).waiting = s.waiting := by
  obtain ⟨m, l, h⟩ := State.storeBytes_eq as s v; rw [h]
@[simp] theorem State.storeBytes_merrPending (s : State) (as : List Nat) (v : Word) :
    (s.storeBytes as v).merrPending = s.merrPending := by
  obtain ⟨m, l, h⟩ := State.storeBytes_eq as s v; rw [h]
@[simp] theorem State.storeBytes_inputs (s : State) (as : List Nat) (v : Word) :
    (s.storeBytes as v).inputs = s.inputs := by
  obtain ⟨m, l, h⟩ := State.storeBytes_eq as s v; rw [h]
@[simp] theorem State.storeBytes_freeCtr (s : State) (as : List Nat) (v : Word) :
    (s.storeBytes as v).freeCtr = s.freeCtr := by
  obtain ⟨m, l, h⟩ := State.storeBytes_eq as s v; rw [h]

end Sys2Proof.Machine
end

