-- ==== Sys2Proof/Laws/Ops.lean ====
section
/-! SUPPORT. The shared operations: what each can do, said once. -/

namespace Sys2Proof.Machine

/-! ## Retiring -/

/-- A result in a general register completes as every such instruction does: nothing else changes. -/
theorem State.retire_onlyX (s : State) (rd : Reg) (v : Word) :
    OnlyX s (s.retire rd v) rd v ∧ NextPc s (s.retire rd v) ∧ SameButX s (s.retire rd v) := by
  refine ⟨fun r => ?_, ?_, ?_⟩
  · have : (s.retire rd v).x r = (s.setX rd v).x r := rfl
    rw [this, State.x_setX]
  · simp [NextPc, State.retire]
  · refine ⟨fun r => State.f_congr ?_ r, fun c => State.cc_congr ?_ c, ?_, fun a => ?_, ?_, ?_, ?_, ?_⟩ <;>
      simp [State.retire, SameFcsr, SameCsr, SameLL, SameUnits, State.byteAt]

/-- An instruction that retires a value completes with it. -/
theorem completesX_of_retire {i : Instr} {s : State} {rd : Reg} {v : Word} (h : exec i s = .next (s.retire rd v)) :
    CompletesX i s rd v := ⟨_, h, s.retire_onlyX rd v⟩

/-- An instruction that only goes on completes and changes nothing else. -/
theorem completesNothing_of_advance {i : Instr} {s : State} (h : exec i s = .next s.advance) :
    CompletesNothing i s :=
  ⟨_, h, fun _ => rfl, rfl, fun _ => rfl, fun _ => rfl, rfl, fun _ => rfl, rfl, rfl, ⟨rfl, rfl⟩,
    ⟨rfl, rfl, rfl, rfl, rfl, rfl, rfl, rfl⟩⟩

/-- An instruction that only moves the pc completes there and changes nothing else. -/
theorem completesAt_of_setPc {i : Instr} {s : State} {a : Word} (h : exec i s = .next (s.setPc a)) :
    CompletesAt i s a :=
  ⟨_, h, rfl, fun _ => rfl, fun _ => rfl, fun _ => rfl, rfl, fun _ => rfl, rfl, rfl, ⟨rfl, rfl⟩,
    ⟨rfl, rfl, rfl, rfl, rfl, rfl, rfl, rfl⟩⟩

/-! ## The checks -/

/-- A privileged instruction at PLV0 does what it does. -/
theorem privileged_zero {s : State} {k : Out} (h : s.plv = 0) : privileged s k = k := if_pos h

/-- A privileged instruction elsewhere raises IPE. -/
theorem privileged_user {s : State} {k : Out} (h : s.plv ≠ 0) : privileged s k = .next (s.raise .ipe) := if_neg h

/-- What a privileged instruction that answers a next state has done. -/
theorem privileged_next {s t : State} {k : Out} (h : privileged s k = .next t) :
    (s.plv = 0 ∧ k = .next t) ∨ (s.plv ≠ 0 ∧ t = s.raise .ipe) := by
  unfold privileged at h
  split at h
  · exact .inl ⟨‹_›, h⟩
  · exact .inr ⟨‹_›, (Host.Outcome.next.inj h).symm⟩

/-- A floating-point instruction with the unit enabled does what it does. -/
theorem floating_on {s : State} {k : Out} (h : FpOn s) : floating s k = k := if_pos h

/-- What a floating-point instruction that answers a next state has done. -/
theorem floating_next {s t : State} {k : Out} (h : floating s k = .next t) :
    (FpOn s ∧ k = .next t) ∨ (¬FpOn s ∧ t = s.raise .fpd) := by
  unfold floating at h
  split at h
  · exact .inl ⟨‹_›, h⟩
  · exact .inr ⟨‹_›, (Host.Outcome.next.inj h).symm⟩

/-- What a computation that may raise or stop has done, when a next state is the answer. -/
theorem Res.run_next {α : Type} {r : Res α} {s t : State} {k : α → Out} (h : r.run s k = .next t) :
    (∃ a, r = .ok a ∧ k a = .next t) ∨ (∃ e, r = .exc e ∧ t = s.raise e) := by
  unfold Res.run at h
  split at h
  · exact .inl ⟨_, rfl, h⟩
  · exact .inr ⟨_, rfl, (Host.Outcome.next.inj h).symm⟩
  · next r => cases r <;> cases h

/-- A sequence of two computations that succeeds: both did. -/
theorem Res.bind_ok {α β : Type} {r : Res α} {k : α → Res β} {b : β} (h : r.bind k = .ok b) :
    ∃ a, r = .ok a ∧ k a = .ok b := by
  unfold Res.bind at h
  split at h
  · exact ⟨_, rfl, h⟩
  · cases h
  · cases h

/-! ## Taking an exception and returning from one: what neither touches -/

@[simp] theorem State.enterGeneral_gpr (s : State) (e : Exc) : (s.enterGeneral e).gpr = s.gpr := by
  unfold State.enterGeneral; cases e <;> rfl
@[simp] theorem State.enterGeneral_fpr (s : State) (e : Exc) : (s.enterGeneral e).fpr = s.fpr := by
  unfold State.enterGeneral; cases e <;> rfl
@[simp] theorem State.enterGeneral_fcc (s : State) (e : Exc) : (s.enterGeneral e).fcc = s.fcc := by
  unfold State.enterGeneral; cases e <;> rfl
@[simp] theorem State.enterGeneral_fcsr0 (s : State) (e : Exc) : (s.enterGeneral e).fcsr0 = s.fcsr0 := by
  unfold State.enterGeneral; cases e <;> rfl
@[simp] theorem State.enterGeneral_ir (s : State) (e : Exc) : (s.enterGeneral e).ir = s.ir := by
  unfold State.enterGeneral; cases e <;> rfl
@[simp] theorem State.enterGeneral_llbit (s : State) (e : Exc) : (s.enterGeneral e).llbit = s.llbit := by
  unfold State.enterGeneral; cases e <;> rfl
@[simp] theorem State.enterGeneral_llAddr (s : State) (e : Exc) : (s.enterGeneral e).llAddr = s.llAddr := by
  unfold State.enterGeneral; cases e <;> rfl
@[simp] theorem State.enterGeneral_stable (s : State) (e : Exc) : (s.enterGeneral e).stable = s.stable := by
  unfold State.enterGeneral; cases e <;> rfl
@[simp] theorem State.enterGeneral_tlb (s : State) (e : Exc) : (s.enterGeneral e).tlb = s.tlb := by
  unfold State.enterGeneral; cases e <;> rfl
@[simp] theorem State.enterGeneral_mem (s : State) (e : Exc) : (s.enterGeneral e).mem = s.mem := by
  unfold State.enterGeneral; cases e <;> rfl
@[simp] theorem State.enterGeneral_stale (s : State) (e : Exc) : (s.enterGeneral e).stale = s.stale := by
  unfold State.enterGeneral; cases e <;> rfl
@[simp] theorem State.enterGeneral_iocsr (s : State) (e : Exc) : (s.enterGeneral e).iocsr = s.iocsr := by
  unfold State.enterGeneral; cases e <;> rfl
@[simp] theorem State.enterGeneral_hwi (s : State) (e : Exc) : (s.enterGeneral e).hwi = s.hwi := by
  unfold State.enterGeneral; cases e <;> rfl
@[simp] theorem State.enterGeneral_ipi (s : State) (e : Exc) : (s.enterGeneral e).ipi = s.ipi := by
  unfold State.enterGeneral; cases e <;> rfl
@[simp] theorem State.enterGeneral_waiting (s : State) (e : Exc) : (s.enterGeneral e).waiting = s.waiting := by
  unfold State.enterGeneral; cases e <;> rfl
@[simp] theorem State.enterGeneral_merrPending (s : State) (e : Exc) : (s.enterGeneral e).merrPending = s.merrPending := by
  unfold State.enterGeneral; cases e <;> rfl
@[simp] theorem State.enterGeneral_inputs (s : State) (e : Exc) : (s.enterGeneral e).inputs = s.inputs := by
  unfold State.enterGeneral; cases e <;> rfl
@[simp] theorem State.enterGeneral_freeCtr (s : State) (e : Exc) : (s.enterGeneral e).freeCtr = s.freeCtr := by
  unfold State.enterGeneral; cases e <;> rfl

@[simp] theorem State.raise_gpr (s : State) (e : Exc) : (s.raise e).gpr = s.gpr := by
  unfold State.raise; split
  · rfl
  · cases e <;> simp <;> rfl
@[simp] theorem State.raise_fpr (s : State) (e : Exc) : (s.raise e).fpr = s.fpr := by
  unfold State.raise; split
  · rfl
  · cases e <;> simp <;> rfl
@[simp] theorem State.raise_fcc (s : State) (e : Exc) : (s.raise e).fcc = s.fcc := by
  unfold State.raise; split
  · rfl
  · cases e <;> simp <;> rfl
@[simp] theorem State.raise_fcsr0 (s : State) (e : Exc) : (s.raise e).fcsr0 = s.fcsr0 := by
  unfold State.raise; split
  · rfl
  · cases e <;> simp <;> rfl
@[simp] theorem State.raise_ir (s : State) (e : Exc) : (s.raise e).ir = s.ir := by
  unfold State.raise; split
  · rfl
  · cases e <;> simp <;> rfl
@[simp] theorem State.raise_llbit (s : State) (e : Exc) : (s.raise e).llbit = s.llbit := by
  unfold State.raise; split
  · rfl
  · cases e <;> simp <;> rfl
@[simp] theorem State.raise_llAddr (s : State) (e : Exc) : (s.raise e).llAddr = s.llAddr := by
  unfold State.raise; split
  · rfl
  · cases e <;> simp <;> rfl
@[simp] theorem State.raise_stable (s : State) (e : Exc) : (s.raise e).stable = s.stable := by
  unfold State.raise; split
  · rfl
  · cases e <;> simp <;> rfl
@[simp] theorem State.raise_tlb (s : State) (e : Exc) : (s.raise e).tlb = s.tlb := by
  unfold State.raise; split
  · rfl
  · cases e <;> simp <;> rfl
@[simp] theorem State.raise_mem (s : State) (e : Exc) : (s.raise e).mem = s.mem := by
  unfold State.raise; split
  · rfl
  · cases e <;> simp <;> rfl
@[simp] theorem State.raise_stale (s : State) (e : Exc) : (s.raise e).stale = s.stale := by
  unfold State.raise; split
  · rfl
  · cases e <;> simp <;> rfl
@[simp] theorem State.raise_iocsr (s : State) (e : Exc) : (s.raise e).iocsr = s.iocsr := by
  unfold State.raise; split
  · rfl
  · cases e <;> simp <;> rfl
@[simp] theorem State.raise_hwi (s : State) (e : Exc) : (s.raise e).hwi = s.hwi := by
  unfold State.raise; split
  · rfl
  · cases e <;> simp <;> rfl
@[simp] theorem State.raise_ipi (s : State) (e : Exc) : (s.raise e).ipi = s.ipi := by
  unfold State.raise; split
  · rfl
  · cases e <;> simp <;> rfl
@[simp] theorem State.raise_waiting (s : State) (e : Exc) : (s.raise e).waiting = s.waiting := by
  unfold State.raise; split
  · rfl
  · cases e <;> simp <;> rfl
@[simp] theorem State.raise_merrPending (s : State) (e : Exc) : (s.raise e).merrPending = s.merrPending := by
  unfold State.raise; split
  · rfl
  · cases e <;> simp <;> rfl
@[simp] theorem State.raise_inputs (s : State) (e : Exc) : (s.raise e).inputs = s.inputs := by
  unfold State.raise; split
  · rfl
  · cases e <;> simp <;> rfl
@[simp] theorem State.raise_freeCtr (s : State) (e : Exc) : (s.raise e).freeCtr = s.freeCtr := by
  unfold State.raise; split
  · rfl
  · cases e <;> simp <;> rfl

@[simp] theorem State.raiseMachineError_gpr (s : State) (r : MerrReport) : (s.raiseMachineError r).gpr = s.gpr := by
  unfold State.raiseMachineError; split <;> rfl
@[simp] theorem State.raiseMachineError_fpr (s : State) (r : MerrReport) : (s.raiseMachineError r).fpr = s.fpr := by
  unfold State.raiseMachineError; split <;> rfl
@[simp] theorem State.raiseMachineError_fcc (s : State) (r : MerrReport) : (s.raiseMachineError r).fcc = s.fcc := by
  unfold State.raiseMachineError; split <;> rfl
@[simp] theorem State.raiseMachineError_fcsr0 (s : State) (r : MerrReport) : (s.raiseMachineError r).fcsr0 = s.fcsr0 := by
  unfold State.raiseMachineError; split <;> rfl
@[simp] theorem State.raiseMachineError_ir (s : State) (r : MerrReport) : (s.raiseMachineError r).ir = s.ir := by
  unfold State.raiseMachineError; split <;> rfl
@[simp] theorem State.raiseMachineError_llbit (s : State) (r : MerrReport) : (s.raiseMachineError r).llbit = s.llbit := by
  unfold State.raiseMachineError; split <;> rfl
@[simp] theorem State.raiseMachineError_llAddr (s : State) (r : MerrReport) : (s.raiseMachineError r).llAddr = s.llAddr := by
  unfold State.raiseMachineError; split <;> rfl
@[simp] theorem State.raiseMachineError_stable (s : State) (r : MerrReport) : (s.raiseMachineError r).stable = s.stable := by
  unfold State.raiseMachineError; split <;> rfl
@[simp] theorem State.raiseMachineError_tlb (s : State) (r : MerrReport) : (s.raiseMachineError r).tlb = s.tlb := by
  unfold State.raiseMachineError; split <;> rfl
@[simp] theorem State.raiseMachineError_mem (s : State) (r : MerrReport) : (s.raiseMachineError r).mem = s.mem := by
  unfold State.raiseMachineError; split <;> rfl
@[simp] theorem State.raiseMachineError_stale (s : State) (r : MerrReport) : (s.raiseMachineError r).stale = s.stale := by
  unfold State.raiseMachineError; split <;> rfl
@[simp] theorem State.raiseMachineError_iocsr (s : State) (r : MerrReport) : (s.raiseMachineError r).iocsr = s.iocsr := by
  unfold State.raiseMachineError; split <;> rfl
@[simp] theorem State.raiseMachineError_hwi (s : State) (r : MerrReport) : (s.raiseMachineError r).hwi = s.hwi := by
  unfold State.raiseMachineError; split <;> rfl
@[simp] theorem State.raiseMachineError_ipi (s : State) (r : MerrReport) : (s.raiseMachineError r).ipi = s.ipi := by
  unfold State.raiseMachineError; split <;> rfl
@[simp] theorem State.raiseMachineError_waiting (s : State) (r : MerrReport) : (s.raiseMachineError r).waiting = s.waiting := by
  unfold State.raiseMachineError; split <;> rfl
@[simp] theorem State.raiseMachineError_merrPending (s : State) (r : MerrReport) : (s.raiseMachineError r).merrPending = s.merrPending := by
  unfold State.raiseMachineError; split <;> rfl
@[simp] theorem State.raiseMachineError_inputs (s : State) (r : MerrReport) : (s.raiseMachineError r).inputs = s.inputs := by
  unfold State.raiseMachineError; split <;> rfl
@[simp] theorem State.raiseMachineError_freeCtr (s : State) (r : MerrReport) : (s.raiseMachineError r).freeCtr = s.freeCtr := by
  unfold State.raiseMachineError; split <;> rfl

@[simp] theorem State.returnContext_gpr (s : State) : s.returnContext.gpr = s.gpr := by
  unfold State.returnContext; repeat' split
  all_goals rfl
@[simp] theorem State.returnContext_fpr (s : State) : s.returnContext.fpr = s.fpr := by
  unfold State.returnContext; repeat' split
  all_goals rfl
@[simp] theorem State.returnContext_fcc (s : State) : s.returnContext.fcc = s.fcc := by
  unfold State.returnContext; repeat' split
  all_goals rfl
@[simp] theorem State.returnContext_fcsr0 (s : State) : s.returnContext.fcsr0 = s.fcsr0 := by
  unfold State.returnContext; repeat' split
  all_goals rfl
@[simp] theorem State.returnContext_ir (s : State) : s.returnContext.ir = s.ir := by
  unfold State.returnContext; repeat' split
  all_goals rfl
@[simp] theorem State.returnContext_llbit (s : State) : s.returnContext.llbit = s.llbit := by
  unfold State.returnContext; repeat' split
  all_goals rfl
@[simp] theorem State.returnContext_llAddr (s : State) : s.returnContext.llAddr = s.llAddr := by
  unfold State.returnContext; repeat' split
  all_goals rfl
@[simp] theorem State.returnContext_stable (s : State) : s.returnContext.stable = s.stable := by
  unfold State.returnContext; repeat' split
  all_goals rfl
@[simp] theorem State.returnContext_tlb (s : State) : s.returnContext.tlb = s.tlb := by
  unfold State.returnContext; repeat' split
  all_goals rfl
@[simp] theorem State.returnContext_mem (s : State) : s.returnContext.mem = s.mem := by
  unfold State.returnContext; repeat' split
  all_goals rfl
@[simp] theorem State.returnContext_stale (s : State) : s.returnContext.stale = s.stale := by
  unfold State.returnContext; repeat' split
  all_goals rfl
@[simp] theorem State.returnContext_iocsr (s : State) : s.returnContext.iocsr = s.iocsr := by
  unfold State.returnContext; repeat' split
  all_goals rfl
@[simp] theorem State.returnContext_hwi (s : State) : s.returnContext.hwi = s.hwi := by
  unfold State.returnContext; repeat' split
  all_goals rfl
@[simp] theorem State.returnContext_ipi (s : State) : s.returnContext.ipi = s.ipi := by
  unfold State.returnContext; repeat' split
  all_goals rfl
@[simp] theorem State.returnContext_waiting (s : State) : s.returnContext.waiting = s.waiting := by
  unfold State.returnContext; repeat' split
  all_goals rfl
@[simp] theorem State.returnContext_merrPending (s : State) : s.returnContext.merrPending = s.merrPending := by
  unfold State.returnContext; repeat' split
  all_goals rfl
@[simp] theorem State.returnContext_inputs (s : State) : s.returnContext.inputs = s.inputs := by
  unfold State.returnContext; repeat' split
  all_goals rfl
@[simp] theorem State.returnContext_freeCtr (s : State) : s.returnContext.freeCtr = s.freeCtr := by
  unfold State.returnContext; repeat' split
  all_goals rfl

@[simp] theorem State.returnFrom_gpr (s : State) : s.returnFrom.gpr = s.gpr := by
  unfold State.returnFrom; dsimp only; split <;> simp
@[simp] theorem State.returnFrom_fpr (s : State) : s.returnFrom.fpr = s.fpr := by
  unfold State.returnFrom; dsimp only; split <;> simp
@[simp] theorem State.returnFrom_fcc (s : State) : s.returnFrom.fcc = s.fcc := by
  unfold State.returnFrom; dsimp only; split <;> simp
@[simp] theorem State.returnFrom_fcsr0 (s : State) : s.returnFrom.fcsr0 = s.fcsr0 := by
  unfold State.returnFrom; dsimp only; split <;> simp
@[simp] theorem State.returnFrom_ir (s : State) : s.returnFrom.ir = s.ir := by
  unfold State.returnFrom; dsimp only; split <;> simp
@[simp] theorem State.returnFrom_llAddr (s : State) : s.returnFrom.llAddr = s.llAddr := by
  unfold State.returnFrom; dsimp only; split <;> simp
@[simp] theorem State.returnFrom_stable (s : State) : s.returnFrom.stable = s.stable := by
  unfold State.returnFrom; dsimp only; split <;> simp
@[simp] theorem State.returnFrom_tlb (s : State) : s.returnFrom.tlb = s.tlb := by
  unfold State.returnFrom; dsimp only; split <;> simp
@[simp] theorem State.returnFrom_mem (s : State) : s.returnFrom.mem = s.mem := by
  unfold State.returnFrom; dsimp only; split <;> simp
@[simp] theorem State.returnFrom_stale (s : State) : s.returnFrom.stale = s.stale := by
  unfold State.returnFrom; dsimp only; split <;> simp
@[simp] theorem State.returnFrom_iocsr (s : State) : s.returnFrom.iocsr = s.iocsr := by
  unfold State.returnFrom; dsimp only; split <;> simp
@[simp] theorem State.returnFrom_hwi (s : State) : s.returnFrom.hwi = s.hwi := by
  unfold State.returnFrom; dsimp only; split <;> simp
@[simp] theorem State.returnFrom_ipi (s : State) : s.returnFrom.ipi = s.ipi := by
  unfold State.returnFrom; dsimp only; split <;> simp
@[simp] theorem State.returnFrom_waiting (s : State) : s.returnFrom.waiting = s.waiting := by
  unfold State.returnFrom; dsimp only; split <;> simp
@[simp] theorem State.returnFrom_merrPending (s : State) : s.returnFrom.merrPending = s.merrPending := by
  unfold State.returnFrom; dsimp only; split <;> simp
@[simp] theorem State.returnFrom_inputs (s : State) : s.returnFrom.inputs = s.inputs := by
  unfold State.returnFrom; dsimp only; split <;> simp
@[simp] theorem State.returnFrom_freeCtr (s : State) : s.returnFrom.freeCtr = s.freeCtr := by
  unfold State.returnFrom; dsimp only; split <;> simp

/-! ## Floating-point results (R633) -/

/-- A floating-point operation none of whose exceptions traps writes its destination and records them. -/
theorem fpFinish_quiet {s : State} {e : FpExc} {w : State → State} (h : NoTrap s e) :
    fpFinish s e w = .next (w ((s.setCause e).joinFlags e)).advance := by
  unfold fpFinish
  rw [if_neg]
  simpa [NoTrap] using h

/-- What a floating-point operation has done: the trap, with Cause alone changed before it, or the result. -/
theorem fpFinish_next {s t : State} {e : FpExc} {w : State → State} (h : fpFinish s e w = .next t) :
    (¬NoTrap s e ∧ t = (s.setCause e).raise .fpe) ∨
      (NoTrap s e ∧ t = (w ((s.setCause e).joinFlags e)).advance) := by
  by_cases hn : NoTrap s e
  · rw [fpFinish_quiet hn] at h
    exact .inr ⟨hn, (Host.Outcome.next.inj h).symm⟩
  · unfold fpFinish at h
    rw [if_pos (by simpa [NoTrap] using hn)] at h
    exact .inl ⟨hn, (Host.Outcome.next.inj h).symm⟩

/-! ## Estimates (R680) -/

/-- An estimate instruction gives the exact function's result, or for a number other than 0 and the guaranteed points a
value within the bound with the same exceptions. -/
theorem Fmt.estimate_cases (F : Fmt) (x : Word) (point bound : Bool) (exact : FpOut) (r : Word) :
    F.estimate x point bound exact r = exact ∨
      (FpEstimated F x ∧ point = false ∧ bound = true ∧ F.estimate x point bound exact r = ⟨r, exact.exc⟩) := by
  unfold Fmt.estimate
  split
  · rename_i h
    simp only [Bool.and_eq_true, Bool.not_eq_true'] at h
    exact .inr ⟨⟨h.1.1.1.1, h.1.1.1.2⟩, h.1.1.2, h.2, rfl⟩
  · exact .inl rfl

/-! ## Division of words and cache operations -/

/-- The reference configuration divides the low words of its operands, whatever lies above them (R380). -/
theorem opDivW_eq : opDivW = opDiv := by
  funext z f rd rj rk s
  simp [opDivW, opDiv, Config.div32]

/-- A cache operation that is no hit operation on a cache that is there does nothing (R823). -/
theorem cacheOp_nothing {named : Bool} {op : BitVec 5} {a : Access} {s : State}
    (h : named = false ∨ bits op 3 2 ≠ 2) : cacheOp named op a s = .next s.advance := by
  unfold cacheOp
  rw [if_neg]
  rcases h with h | h
  · simp [h]
  · simpa using fun _ => h

/-- A hit operation on a cache that is there makes its query and nothing more (R823, D41). -/
theorem cacheOp_hit {op : BitVec 5} {a : Access} {s : State} (h : bits op 3 2 = 2) :
    cacheOp true op a s = access s a fun _ t => .next t.advance := by
  unfold cacheOp
  rw [if_pos (by simp [h])]

end Sys2Proof.Machine
end

