-- ==== Sys2Proof/Laws/Access.lean ====
section
/-! SUPPORT. Translation and access: which physical bytes an access reaches, and what an instruction that makes one can
do. -/

namespace Sys2Proof.Machine

/-! ## Physical addresses stay within the physical space (R250) -/

/-- A directly mapped address is physical. -/
theorem physOf_lt (va : Word) : physOf va < 2 ^ Config.palen := BitVec.isLt _

/-- An address mapped by a page is physical. -/
theorem pagePhys_lt (p : TlbPage) (ps : Nat) (va : Word) : pagePhys p ps va < 2 ^ Config.palen :=
  BitVec.isLt _

/-- The memory type check passes an address on as it is. -/
theorem checkMat_ok {p q : Phys} (h : checkMat p = .ok q) : q = p ∧ p.mat ≠ 3 := by
  unfold checkMat at h
  split at h
  · cases h
  · exact ⟨(Res.ok.inj h).symm, ‹_›⟩

/-- A translation that succeeds gives a physical address. -/
theorem State.translate_lt {s : State} {k : AccKind} {f va : Word} {p : Phys} (h : s.translate k f va = .ok p) :
    p.pa < 2 ^ Config.palen := by
  unfold State.translate at h
  split at h
  · cases h
  · split at h
    · rw [(checkMat_ok h).1]; exact physOf_lt va
    · split at h
      · rw [(checkMat_ok h).1]; exact physOf_lt va
      · obtain ⟨o, -, h⟩ := Res.bind_ok h
        split at h
        · cases h
        · split at h
          · cases h
          · rw [(checkMat_ok h).1]; exact pagePhys_lt _ _ va

/-- The bytes of an access that translates are physical. -/
theorem State.translateAll_lt {s : State} {k : AccKind} {f : Word} : ∀ {vas : List Word} {ps : List Phys},
    s.translateAll k f vas = .ok ps → ∀ p ∈ ps, p.pa < 2 ^ Config.palen
  | [], _, h, p, hp => by cases h; cases hp
  | va :: vas, ps, h, p, hp => by
    obtain ⟨q, hq, h⟩ := Res.bind_ok h
    obtain ⟨qs, hqs, h⟩ := Res.bind_ok h
    cases h
    rcases List.mem_cons.mp hp with rfl | hp
    · exact State.translate_lt hq
    · exact State.translateAll_lt hqs p hp

/-- The bytes of an access that passes its checks are physical. -/
theorem State.checkAccess_lt {s : State} {a : Access} {ps : List Phys} (h : s.checkAccess a = .ok ps) :
    ∀ n ∈ physAddrs ps, n < 2 ^ Config.palen := by
  intro n hn
  obtain ⟨p, hp, rfl⟩ := List.mem_map.mp hn
  unfold State.checkAccess at h
  repeat' split at h
  all_goals first
    | cases h
    | (obtain ⟨qs, hq, h⟩ := Res.bind_ok h
       split at h
       · cases h; exact State.translateAll_lt hq p hp
       · cases h)

/-! ## What an access does -/

/-- An access that passes its checks and no watchpoint goes on to what the instruction does. -/
theorem access_ok {s : State} {a : Access} {ps : List Phys} {k : List Phys → State → Out} (h : Accesses s a ps) :
    access s a k = k ps s := by
  unfold access
  rw [h.1]
  exact if_pos h.2

/-- What an instruction that makes an access has done: an exception of the checks; a watchpoint exception after setting
its status; or its own effect, on the state itself or on the state with Skip cleared. -/
theorem access_next {s t : State} {a : Access} {k : List Phys → State → Out} (h : access s a k = .next t) :
    (∃ e, t = s.raise e) ∨ (∃ v b, t = (s.setMwps v).raise (.wpem b)) ∨
      ∃ ps u, s.checkAccess a = .ok ps ∧ (u = s ∨ ∃ v, u = s.setMwps v) ∧ k ps u = .next t := by
  rcases Res.run_next h with ⟨ps, hp, h⟩ | ⟨e, -, rfl⟩
  · unfold State.watched at h
    split at h
    · exact .inr (.inr ⟨ps, s, hp, .inl rfl, h⟩)
    · split at h
      · exact .inr (.inr ⟨ps, _, hp, .inr ⟨_, rfl⟩, h⟩)
      · exact .inr (.inl ⟨_, _, (Host.Outcome.next.inj h).symm⟩)
  · exact .inl ⟨e, rfl⟩

/-! ## Stored bytes -/

/-- Storing bytes puts each at its address: a later byte over an earlier one, every other byte as it was (R204). -/
theorem State.storeBytes_stored : ∀ (as : List Nat) (s : State) (v : Word), Memory.wf s.mem = true →
    ∀ (n : Nat) (w : Word), v = w >>> (8 * n) → ∀ y,
      (s.storeBytes as v).byteAt y = match (as.zipIdx n).reverse.find? (fun p => p.1 == y) with
        | some p => (w >>> (8 * p.2)).setWidth 8
        | none => s.byteAt y
  | [], _, _, _, _, _, _, _ => rfl
  | a :: as, s, v, h, n, w, hv, y => by
    have hs : v >>> 8 = w >>> (8 * (n + 1)) := by
      rw [hv, ← BitVec.shiftRight_add]; congr 1
    rw [State.storeBytes, State.storeBytes_stored as _ _ (State.storeByte_wf h a _) (n + 1) w hs y]
    rw [List.zipIdx_cons, List.reverse_cons, List.find?_append]
    cases hf : ((as.zipIdx (n + 1)).reverse.find? fun p => p.1 == y) with
    | some p => rfl
    | none =>
      rw [State.byteAt_storeByte h]
      by_cases hy : y = a
      · subst hy; simp [hv]
      · simp [hy, Ne.symm hy]

/-- The bytes of a store are in memory. -/
theorem State.stored {s : State} (h : Memory.wf s.mem = true) (as : List Nat) (v : Word) :
    Stored s (s.storeBytes as v) as v := fun y => by
  exact State.storeBytes_stored as s v h 0 v (by simp) y

/-- What a load reads is the number that its bytes make. -/
theorem State.loadBytes_eq (s : State) : ∀ as, s.loadBytes as = BitVec.ofNat 64 (s.valueAt as)
  | [] => rfl
  | a :: as => by
    rw [State.loadBytes, State.loadBytes_eq s as, State.valueAt]
    apply BitVec.eq_of_toNat_eq
    rw [BitVec.toNat_or]
    simp only [BitVec.toNat_shiftLeft, BitVec.toNat_setWidth, BitVec.toNat_ofNat]
    have hb := (s.byteAt a).isLt
    rw [Nat.mod_eq_of_lt (show (s.byteAt a).toNat < 2 ^ 64 by omega)]
    have h : (s.valueAt as % 2 ^ 64) <<< 8 % 2 ^ 64 = (s.valueAt as % 2 ^ 56) <<< 8 := by
      rw [Nat.shiftLeft_eq, Nat.shiftLeft_eq]; omega
    rw [h, ← Nat.shiftLeft_add_eq_or_of_lt hb, Nat.shiftLeft_eq]; omega

/-- The number that `n` bytes make has `8 * n` bits. -/
theorem State.valueAt_lt (s : State) : ∀ as, s.valueAt as < 256 ^ as.length
  | [] => by simp [State.valueAt]
  | a :: as => by
    have h := State.valueAt_lt s as
    have hb := (s.byteAt a).isLt
    simp only [State.valueAt, List.length_cons, pow_succ]; omega

/-- Translation gives one physical byte for each byte. -/
theorem State.translateAll_length {s : State} {k : AccKind} {f : Word} :
    ∀ {vas : List Word} {ps : List Phys}, s.translateAll k f vas = .ok ps → ps.length = vas.length
  | [], _, h => by cases h; rfl
  | va :: vas, ps, h => by
    obtain ⟨q, -, h⟩ := Res.bind_ok h
    obtain ⟨qs, hqs, h⟩ := Res.bind_ok h
    cases h; simp [State.translateAll_length hqs]

/-- An access that passes its checks has as many physical bytes as its width says. -/
theorem State.checkAccess_length {s : State} {a : Access} {ps : List Phys} (h : s.checkAccess a = .ok ps) :
    (physAddrs ps).length = a.size := by
  unfold State.checkAccess at h
  repeat' split at h
  all_goals first | cases h | skip
  obtain ⟨qs, hqs, h⟩ := Res.bind_ok h
  split at h
  · cases h; simp [physAddrs, State.translateAll_length hqs, State.byteVas]
  · cases h

/-- A store of at most `n` bytes depends on the low `8 * n` bits of the value alone. -/
theorem Stored.congr {s t : State} {as : List Nat} {v w : Word} {n : Nat} (h : Stored s t as v) (hl : as.length ≤ n)
    (hv : v.toNat % 2 ^ (8 * n) = w.toNat % 2 ^ (8 * n)) : Stored s t as w := by
  intro a
  rw [h a]
  split
  · rename_i p hp
    have hm := List.mem_of_find?_eq_some hp
    simp only [List.mem_reverse] at hm
    have := List.mem_zipIdx hm
    apply BitVec.eq_of_getLsbD_eq
    intro i hi
    simp only [BitVec.getLsbD_setWidth, BitVec.getLsbD_ushiftRight]
    have hlt : 8 * p.2 + i < 8 * n := by omega
    have h1 := congrArg (fun x => x.testBit (8 * p.2 + i)) hv
    simp only [Nat.testBit_mod_two_pow, hlt, decide_true, Bool.true_and] at h1
    simp only [hi, decide_true, Bool.true_and, BitVec.getLsbD]
    exact h1
  · rfl

/-! ## Bytes that translate, and bytes that do not -/

/-- The addresses of an access, byte by byte. -/
theorem State.byteVas_getElem (s : State) (va : Word) (n m : Nat) (h : m < (s.byteVas va n).length) :
    (s.byteVas va n)[m] = s.effVa (va + BitVec.ofNat 64 m) := by simp [State.byteVas]

/-- The first address that does not translate decides what a list of addresses gives. -/
theorem State.translateAll_first {s : State} {k : AccKind} {f : Word} {r : Res Phys} {o : Res (List Phys)}
    (hr : ∀ c : Phys → Res (List Phys), r.bind c = o) (ho : ∀ c : List Phys → Res (List Phys), o.bind c = o) :
    ∀ {l : List Word} (n : Nat) (hn : n < l.length), s.translate k f l[n] = r →
      (∀ m (hm : m < n), ∃ p, s.translate k f l[m] = .ok p) → s.translateAll k f l = o
  | a :: l, 0, _, h, _ => by
    simp only [List.getElem_cons_zero] at h
    rw [State.translateAll, h, hr]
  | a :: l, n + 1, hn, h, hm => by
    obtain ⟨p, hp⟩ := hm 0 (by omega)
    simp only [List.getElem_cons_zero] at hp
    rw [State.translateAll, hp, Res.bind, State.translateAll_first hr ho (l := l) n (by simpa using hn) (by simpa using h)
      (fun m h' => by simpa using hm (m + 1) (by omega)), ho]

/-- An access raises the exception of its first byte that does not translate. -/
theorem State.translateAll_raises {s : State} {k : AccKind} {va : Word} {n : Nat} {e : Exc}
    (h : FirstRaises s k va n e) : s.translateAll k va (s.byteVas va n) = .exc e := by
  obtain ⟨m, hm, he, hp⟩ := h
  exact State.translateAll_first (r := .exc e) (fun _ => rfl) (fun _ => rfl) m (by simpa [State.byteVas] using hm)
    ((congrArg _ (State.byteVas_getElem ..)).trans he) fun j hj => by rw [State.byteVas_getElem]; exact hp j hj

/-- An access stops where its first byte that does not translate does. -/
theorem State.translateAll_stops {s : State} {k : AccKind} {va : Word} {n : Nat} {r : Stop}
    (h : FirstStops s k va n r) : s.translateAll k va (s.byteVas va n) = .stop r := by
  obtain ⟨m, hm, he, hp⟩ := h
  exact State.translateAll_first (r := .stop r) (fun _ => rfl) (fun _ => rfl) m (by simpa [State.byteVas] using hm)
    ((congrArg _ (State.byteVas_getElem ..)).trans he) fun j hj => by rw [State.byteVas_getElem]; exact hp j hj

/-- Addresses that all translate give their physical addresses in order. -/
theorem State.translateAll_ok {s : State} {k : AccKind} {f : Word} : ∀ {l : List Word} (p : Nat → Phys),
    (∀ n (hn : n < l.length), s.translate k f l[n] = .ok (p n)) →
      s.translateAll k f l = .ok ((List.range l.length).map p)
  | [], _, _ => rfl
  | a :: l, p, h => by
    have h0 := h 0 (by simp)
    simp only [List.getElem_cons_zero] at h0
    rw [State.translateAll, h0, Res.bind,
      State.translateAll_ok (l := l) (fun n => p (n + 1)) fun n hn => by
        have := h (n + 1) (by simpa using hn)
        rwa [List.getElem_cons_succ] at this]
    simp [Res.bind, List.range_succ_eq_map, Function.comp_def]

/-- An access whose bytes all translate reaches those bytes. -/
theorem State.translateAll_bytes {s : State} {k : AccKind} {va : Word} {n : Nat} {p : Nat → Phys}
    (h : BytesTranslate s k va n p) : s.translateAll k va (s.byteVas va n) = .ok ((List.range n).map p) := by
  have hl : (s.byteVas va n).length = n := by simp [State.byteVas]
  have := State.translateAll_ok (s := s) (k := k) (f := va) (l := s.byteVas va n) p fun m hm => by
    rw [State.byteVas_getElem]; exact h m (by omega)
  rwa [hl] at this

/-- A machine without watchpoints meets none. -/
theorem State.unwatched_unwatched (s : State) (a : Access) : Unwatched s.unwatched a := by
  have h : s.unwatched.mwpHits a Watchpoint.zero = false := by
    have hz : Watchpoint.zero.cfg3 = 0 := rfl
    simp [State.mwpHits, State.watchArmed, hz]
  have hb : ∀ n, hitBits (s.unwatched.mwpHits a) (List.replicate n Watchpoint.zero) = 0 := by
    intro n
    induction n with
    | zero => rfl
    | succ n ih => rw [List.replicate_succ, hitBits, ih, h]; rfl
  show hitBits _ (Vector.replicate Config.mwpNum Watchpoint.zero).toList = 0
  rw [Vector.toList_replicate]
  exact hb _

end Sys2Proof.Machine
end

