-- ==== Sys2Proof/Laws/Decode.lean ====
section
/-! SUPPORT. The opcode table's patterns are apart, so a word that matches a row is that row's instruction; and for each
layout, what its fixed bits and its fields are. -/

namespace Sys2Proof

/-- Mask and pattern as numbers. -/
def Row.key (r : Row) : Nat × Nat := (r.mask.toNat, r.bits.toNat)

/-- No word matches both patterns. -/
def keysClash (p q : Nat × Nat) : Bool := Nat.blt 0 (Nat.land (Nat.land p.1 q.1) (Nat.xor p.2 q.2))

/-- The pattern of CSRXCHG, which takes in those of CSRRD and CSRWR (30_encoding.md R311). -/
def xchgKey : Nat × Nat := (0xff000000, 0x04000000)

/-- Two patterns that are equal, by evaluation. -/
def sameKey (p q : Nat × Nat) : Bool := Nat.beq p.1 q.1 && Nat.beq p.2 q.2

/-- `p` clashes with every later pattern but CSRXCHG's. -/
def clashAll (p : Nat × Nat) : List (Nat × Nat) → Bool
  | [] => true
  | q :: l => match keysClash p q || sameKey q xchgKey with
    | true => clashAll p l
    | false => false

/-- No two patterns match one word, but for those of which CSRXCHG's is the later. -/
def keysApart : List (Nat × Nat) → Bool
  | [] => true
  | p :: l => match clashAll p l with
    | true => keysApart l
    | false => false

/-- What `clashAll` says of one later pattern. -/
theorem clashAll_mem {p : Nat × Nat} {l : List (Nat × Nat)} (h : clashAll p l = true) {q : Nat × Nat} (hq : q ∈ l)
    (hx : q ≠ xchgKey) : keysClash p q = true := by
  induction l with
  | nil => cases hq
  | cons a l ih =>
    simp only [clashAll] at h
    split at h
    · rename_i hc
      rcases List.mem_cons.1 hq with rfl | hq
      · rcases Bool.or_eq_true _ _ |>.mp hc with hc | hc
        · exact hc
        · exact absurd (Prod.ext (Nat.eq_of_beq_eq_true ((Bool.and_eq_true _ _).mp hc).1)
          (Nat.eq_of_beq_eq_true ((Bool.and_eq_true _ _).mp hc).2)) hx
      · exact ih h hq
    · cases h

/-- What `keysApart` says of two patterns. -/
theorem keysApart_get {l : List (Nat × Nat)} (h : keysApart l = true) {i j : Nat} (hij : i < j) {p q : Nat × Nat}
    (hp : l[i]? = some p) (hq : l[j]? = some q) (hx : q ≠ xchgKey) : keysClash p q = true := by
  induction l generalizing i j with
  | nil => simp at hp
  | cons a l ih =>
    simp only [keysApart] at h
    split at h
    · rename_i hc
      obtain ⟨j, rfl⟩ : ∃ k, j = k + 1 := ⟨j - 1, by omega⟩
      simp only [List.getElem?_cons_succ] at hq
      cases i with
      | zero =>
        simp only [List.getElem?_cons_zero, Option.some.injEq] at hp
        subst hp
        exact clashAll_mem hc (List.mem_of_getElem? hq) hx
      | succ i => exact ih h (Nat.lt_of_succ_lt_succ hij) (by simpa using hp) hq
    · cases h

/-- A word that matches one of two clashing patterns does not match the other. -/
theorem keysClash_hits {p q : Row} (h : keysClash p.key q.key = true) {w : BitVec 32} (hp : p.hits w = true) :
    q.hits w = false := by
  cases hq : q.hits w with
  | false => rfl
  | true =>
    exfalso
    simp only [Row.hits, beq_iff_eq] at hp hq
    have hz : p.mask &&& q.mask &&& (p.bits ^^^ q.bits) = 0#32 := by
      rw [← hp, ← hq]
      ext i hi
      simp only [BitVec.getElem_and, BitVec.getElem_xor, BitVec.getElem_zero]
      cases p.mask[i] <;> cases q.mask[i] <;> cases w[i] <;> rfl
    have := congrArg BitVec.toNat hz
    simp only [BitVec.toNat_and, BitVec.toNat_xor] at this
    simp only [keysClash, Row.key] at h
    have h2 : Nat.blt 0 ((p.mask.toNat &&& q.mask.toNat) &&& (p.bits.toNat ^^^ q.bits.toNat)) = true := h
    rw [this] at h2
    exact absurd h2 (by decide)

/-- The rows of the opcode table are apart, but for CSRXCHG (30_encoding.md R311, R320). -/
theorem opcode_keys_apart : keysApart (opcodeRows.map Row.key) = true := by decide +kernel

/-- A word that matches a row other than CSRXCHG's is that row's instruction (30_encoding.md R320, R311). -/
theorem decode_row {k : Nat} {r : Row} {w : BitVec 32} (hr : opcodeRows[k]? = some r) (hx : r.key ≠ xchgKey)
    (hw : r.hits w = true) : decode w = some (r.build w) := by
  have hf : opcodeRows.find? (·.hits w) = some r := by
    rw [List.find?_eq_some_iff_getElem]
    obtain ⟨hk, he⟩ := List.getElem?_eq_some_iff.1 hr
    refine ⟨hw, k, hk, he, fun j hj => ?_⟩
    cases hh : (opcodeRows[j]'(by omega)).hits w with
    | false => rfl
    | true =>
      have hc := keysApart_get opcode_keys_apart hj (p := (opcodeRows[j]'(by omega)).key) (q := r.key)
        (by simp [List.getElem?_map, List.getElem?_eq_getElem (show j < opcodeRows.length by omega)])
        (by simp [List.getElem?_map, hr])
        hx
      rw [keysClash_hits hc hh] at hw
      cases hw
  simp [decode, hf]

/-- A row of a later table part, numbered among all rows. -/
theorem row_shift {a b : List Row} {n k : Nat} {r : Row} (ha : a.length = n) (h : b[k]? = some r) :
    (a ++ b)[n + k]? = some r := by
  rw [List.getElem?_append_right (by omega), ← ha, Nat.add_sub_cancel_left, h]

/-- A row of an earlier table part keeps its number. -/
theorem row_keep {a b : List Row} {k : Nat} {r : Row} (h : a[k]? = some r) : (a ++ b)[k]? = some r := by
  rw [List.getElem?_append_left (List.getElem?_eq_some_iff.1 h).1, h]

/-- The sizes of the table parts. -/
theorem rows_length : rows1.length = 50 ∧ rows2.length = 50 ∧ rows3.length = 50 ∧ rows4.length = 50 ∧ rows5.length = 50 ∧ rows6.length = 50 ∧ rows7.length = 50 :=
  ⟨rfl, rfl, rfl, rfl, rfl, rfl, rfl⟩

/-- A row of `rows1` among all rows. -/
theorem row_in1 {k : Nat} {r : Row} (h : rows1[k]? = some r) : opcodeRows[k]? = some r := by
  unfold opcodeRows
  exact row_keep (row_keep (row_keep (row_keep (row_keep (row_keep (row_keep (h)))))))

/-- A row of `rows2` among all rows. -/
theorem row_in2 {k : Nat} {r : Row} (h : rows2[k]? = some r) : opcodeRows[50 + k]? = some r := by
  unfold opcodeRows
  exact row_keep (row_keep (row_keep (row_keep (row_keep (row_keep (row_shift (by simp only [rows_length]) h))))))

/-- A row of `rows3` among all rows. -/
theorem row_in3 {k : Nat} {r : Row} (h : rows3[k]? = some r) : opcodeRows[100 + k]? = some r := by
  unfold opcodeRows
  exact row_keep (row_keep (row_keep (row_keep (row_keep (row_shift (by simp only [List.length_append, rows_length]) h)))))

/-- A row of `rows4` among all rows. -/
theorem row_in4 {k : Nat} {r : Row} (h : rows4[k]? = some r) : opcodeRows[150 + k]? = some r := by
  unfold opcodeRows
  exact row_keep (row_keep (row_keep (row_keep (row_shift (by simp only [List.length_append, rows_length]) h))))

/-- A row of `rows5` among all rows. -/
theorem row_in5 {k : Nat} {r : Row} (h : rows5[k]? = some r) : opcodeRows[200 + k]? = some r := by
  unfold opcodeRows
  exact row_keep (row_keep (row_keep (row_shift (by simp only [List.length_append, rows_length]) h)))

/-- A row of `rows6` among all rows. -/
theorem row_in6 {k : Nat} {r : Row} (h : rows6[k]? = some r) : opcodeRows[250 + k]? = some r := by
  unfold opcodeRows
  exact row_keep (row_keep (row_shift (by simp only [List.length_append, rows_length]) h))

/-- A row of `rows7` among all rows. -/
theorem row_in7 {k : Nat} {r : Row} (h : rows7[k]? = some r) : opcodeRows[300 + k]? = some r := by
  unfold opcodeRows
  exact row_keep (row_shift (by simp only [List.length_append, rows_length]) h)

/-- A row of `rows8` among all rows. -/
theorem row_in8 {k : Nat} {r : Row} (h : rows8[k]? = some r) : opcodeRows[350 + k]? = some r := by
  unfold opcodeRows
  exact row_shift (by simp only [List.length_append, rows_length]) h

/-! ## The layouts -/

/-- The fixed bits of layout `2R`. -/
theorem enc2R_key (op f1 f2) : enc2R op f1 f2 &&& 0xfffffc00#32 = op ++ 0#5 ++ 0#5 := by
  change (op ++ f1 ++ f2) &&& (BitVec.allOnes 22 ++ 0#5 ++ 0#5) = _
  simp only [BitVec.and_append, BitVec.and_allOnes, BitVec.and_zero]

theorem enc2R_f1 (op f1 f2) : fld (enc2R op f1 f2) 5 5 = f1 := by
  change BitVec.extractLsb' 5 5 (op ++ f1 ++ f2) = _
  rw [BitVec.extractLsb'_append_eq_of_le (by decide), BitVec.extractLsb'_append_eq_of_add_le (by decide),
    BitVec.extractLsb'_eq_self]

theorem enc2R_f2 (op f1 f2) : fld (enc2R op f1 f2) 0 5 = f2 := by
  change BitVec.extractLsb' 0 5 (op ++ f1 ++ f2) = _
  rw [BitVec.extractLsb'_append_eq_of_add_le (by decide), BitVec.extractLsb'_eq_self]

/-- The fixed bits of layout `Asrt`. -/
theorem encAsrt_key (op f1 f2) : encAsrt op f1 f2 &&& 0xffff801f#32 = op ++ 0#5 ++ 0#5 ++ 0#5 := by
  change (op ++ f1 ++ f2 ++ 0#5) &&& (BitVec.allOnes 17 ++ 0#5 ++ 0#5 ++ BitVec.allOnes 5) = _
  simp only [BitVec.and_append, BitVec.and_allOnes, BitVec.and_zero]

theorem encAsrt_f1 (op f1 f2) : fld (encAsrt op f1 f2) 10 5 = f1 := by
  change BitVec.extractLsb' 10 5 (op ++ f1 ++ f2 ++ 0#5) = _
  rw [BitVec.extractLsb'_append_eq_of_le (by decide), BitVec.extractLsb'_append_eq_of_le (by decide),
    BitVec.extractLsb'_append_eq_of_add_le (by decide), BitVec.extractLsb'_eq_self]

theorem encAsrt_f2 (op f1 f2) : fld (encAsrt op f1 f2) 5 5 = f2 := by
  change BitVec.extractLsb' 5 5 (op ++ f1 ++ f2 ++ 0#5) = _
  rw [BitVec.extractLsb'_append_eq_of_le (by decide), BitVec.extractLsb'_append_eq_of_add_le (by decide),
    BitVec.extractLsb'_eq_self]

/-- The fixed bits of layout `3RSA2`. -/
theorem enc3RSA2_key (op f1 f2 f3 f4) : enc3RSA2 op f1 f2 f3 f4 &&& 0xfffe0000#32 = op ++ 0#2 ++ 0#5 ++ 0#5 ++ 0#5 := by
  change (op ++ f1 ++ f2 ++ f3 ++ f4) &&& (BitVec.allOnes 15 ++ 0#2 ++ 0#5 ++ 0#5 ++ 0#5) = _
  simp only [BitVec.and_append, BitVec.and_allOnes, BitVec.and_zero]

theorem enc3RSA2_f1 (op f1 f2 f3 f4) : fld (enc3RSA2 op f1 f2 f3 f4) 15 2 = f1 := by
  change BitVec.extractLsb' 15 2 (op ++ f1 ++ f2 ++ f3 ++ f4) = _
  rw [BitVec.extractLsb'_append_eq_of_le (by decide), BitVec.extractLsb'_append_eq_of_le (by decide),
    BitVec.extractLsb'_append_eq_of_le (by decide), BitVec.extractLsb'_append_eq_of_add_le (by decide),
    BitVec.extractLsb'_eq_self]

theorem enc3RSA2_f2 (op f1 f2 f3 f4) : fld (enc3RSA2 op f1 f2 f3 f4) 10 5 = f2 := by
  change BitVec.extractLsb' 10 5 (op ++ f1 ++ f2 ++ f3 ++ f4) = _
  rw [BitVec.extractLsb'_append_eq_of_le (by decide), BitVec.extractLsb'_append_eq_of_le (by decide),
    BitVec.extractLsb'_append_eq_of_add_le (by decide), BitVec.extractLsb'_eq_self]

theorem enc3RSA2_f3 (op f1 f2 f3 f4) : fld (enc3RSA2 op f1 f2 f3 f4) 5 5 = f3 := by
  change BitVec.extractLsb' 5 5 (op ++ f1 ++ f2 ++ f3 ++ f4) = _
  rw [BitVec.extractLsb'_append_eq_of_le (by decide), BitVec.extractLsb'_append_eq_of_add_le (by decide),
    BitVec.extractLsb'_eq_self]

theorem enc3RSA2_f4 (op f1 f2 f3 f4) : fld (enc3RSA2 op f1 f2 f3 f4) 0 5 = f4 := by
  change BitVec.extractLsb' 0 5 (op ++ f1 ++ f2 ++ f3 ++ f4) = _
  rw [BitVec.extractLsb'_append_eq_of_add_le (by decide), BitVec.extractLsb'_eq_self]

/-- The fixed bits of layout `3RSA3`. -/
theorem enc3RSA3_key (op f1 f2 f3 f4) : enc3RSA3 op f1 f2 f3 f4 &&& 0xfffc0000#32 = op ++ 0#3 ++ 0#5 ++ 0#5 ++ 0#5 := by
  change (op ++ f1 ++ f2 ++ f3 ++ f4) &&& (BitVec.allOnes 14 ++ 0#3 ++ 0#5 ++ 0#5 ++ 0#5) = _
  simp only [BitVec.and_append, BitVec.and_allOnes, BitVec.and_zero]

theorem enc3RSA3_f1 (op f1 f2 f3 f4) : fld (enc3RSA3 op f1 f2 f3 f4) 15 3 = f1 := by
  change BitVec.extractLsb' 15 3 (op ++ f1 ++ f2 ++ f3 ++ f4) = _
  rw [BitVec.extractLsb'_append_eq_of_le (by decide), BitVec.extractLsb'_append_eq_of_le (by decide),
    BitVec.extractLsb'_append_eq_of_le (by decide), BitVec.extractLsb'_append_eq_of_add_le (by decide),
    BitVec.extractLsb'_eq_self]

theorem enc3RSA3_f2 (op f1 f2 f3 f4) : fld (enc3RSA3 op f1 f2 f3 f4) 10 5 = f2 := by
  change BitVec.extractLsb' 10 5 (op ++ f1 ++ f2 ++ f3 ++ f4) = _
  rw [BitVec.extractLsb'_append_eq_of_le (by decide), BitVec.extractLsb'_append_eq_of_le (by decide),
    BitVec.extractLsb'_append_eq_of_add_le (by decide), BitVec.extractLsb'_eq_self]

theorem enc3RSA3_f3 (op f1 f2 f3 f4) : fld (enc3RSA3 op f1 f2 f3 f4) 5 5 = f3 := by
  change BitVec.extractLsb' 5 5 (op ++ f1 ++ f2 ++ f3 ++ f4) = _
  rw [BitVec.extractLsb'_append_eq_of_le (by decide), BitVec.extractLsb'_append_eq_of_add_le (by decide),
    BitVec.extractLsb'_eq_self]

theorem enc3RSA3_f4 (op f1 f2 f3 f4) : fld (enc3RSA3 op f1 f2 f3 f4) 0 5 = f4 := by
  change BitVec.extractLsb' 0 5 (op ++ f1 ++ f2 ++ f3 ++ f4) = _
  rw [BitVec.extractLsb'_append_eq_of_add_le (by decide), BitVec.extractLsb'_eq_self]

/-- The fixed bits of layout `3R`. -/
theorem enc3R_key (op f1 f2 f3) : enc3R op f1 f2 f3 &&& 0xffff8000#32 = op ++ 0#5 ++ 0#5 ++ 0#5 := by
  change (op ++ f1 ++ f2 ++ f3) &&& (BitVec.allOnes 17 ++ 0#5 ++ 0#5 ++ 0#5) = _
  simp only [BitVec.and_append, BitVec.and_allOnes, BitVec.and_zero]

theorem enc3R_f1 (op f1 f2 f3) : fld (enc3R op f1 f2 f3) 10 5 = f1 := by
  change BitVec.extractLsb' 10 5 (op ++ f1 ++ f2 ++ f3) = _
  rw [BitVec.extractLsb'_append_eq_of_le (by decide), BitVec.extractLsb'_append_eq_of_le (by decide),
    BitVec.extractLsb'_append_eq_of_add_le (by decide), BitVec.extractLsb'_eq_self]

theorem enc3R_f2 (op f1 f2 f3) : fld (enc3R op f1 f2 f3) 5 5 = f2 := by
  change BitVec.extractLsb' 5 5 (op ++ f1 ++ f2 ++ f3) = _
  rw [BitVec.extractLsb'_append_eq_of_le (by decide), BitVec.extractLsb'_append_eq_of_add_le (by decide),
    BitVec.extractLsb'_eq_self]

theorem enc3R_f3 (op f1 f2 f3) : fld (enc3R op f1 f2 f3) 0 5 = f3 := by
  change BitVec.extractLsb' 0 5 (op ++ f1 ++ f2 ++ f3) = _
  rw [BitVec.extractLsb'_append_eq_of_add_le (by decide), BitVec.extractLsb'_eq_self]

/-- The fixed bits of layout `Code15`. -/
theorem encCode15_key (op f1) : encCode15 op f1 &&& 0xffff8000#32 = op ++ 0#15 := by
  change (op ++ f1) &&& (BitVec.allOnes 17 ++ 0#15) = _
  simp only [BitVec.and_append, BitVec.and_allOnes, BitVec.and_zero]

theorem encCode15_f1 (op f1) : fld (encCode15 op f1) 0 15 = f1 := by
  change BitVec.extractLsb' 0 15 (op ++ f1) = _
  rw [BitVec.extractLsb'_append_eq_of_add_le (by decide), BitVec.extractLsb'_eq_self]

/-- The fixed bits of layout `2RUI6`. -/
theorem enc2RUI6_key (op f1 f2 f3) : enc2RUI6 op f1 f2 f3 &&& 0xffff0000#32 = op ++ 0#6 ++ 0#5 ++ 0#5 := by
  change (op ++ f1 ++ f2 ++ f3) &&& (BitVec.allOnes 16 ++ 0#6 ++ 0#5 ++ 0#5) = _
  simp only [BitVec.and_append, BitVec.and_allOnes, BitVec.and_zero]

theorem enc2RUI6_f1 (op f1 f2 f3) : fld (enc2RUI6 op f1 f2 f3) 10 6 = f1 := by
  change BitVec.extractLsb' 10 6 (op ++ f1 ++ f2 ++ f3) = _
  rw [BitVec.extractLsb'_append_eq_of_le (by decide), BitVec.extractLsb'_append_eq_of_le (by decide),
    BitVec.extractLsb'_append_eq_of_add_le (by decide), BitVec.extractLsb'_eq_self]

theorem enc2RUI6_f2 (op f1 f2 f3) : fld (enc2RUI6 op f1 f2 f3) 5 5 = f2 := by
  change BitVec.extractLsb' 5 5 (op ++ f1 ++ f2 ++ f3) = _
  rw [BitVec.extractLsb'_append_eq_of_le (by decide), BitVec.extractLsb'_append_eq_of_add_le (by decide),
    BitVec.extractLsb'_eq_self]

theorem enc2RUI6_f3 (op f1 f2 f3) : fld (enc2RUI6 op f1 f2 f3) 0 5 = f3 := by
  change BitVec.extractLsb' 0 5 (op ++ f1 ++ f2 ++ f3) = _
  rw [BitVec.extractLsb'_append_eq_of_add_le (by decide), BitVec.extractLsb'_eq_self]

/-- The fixed bits of layout `BstrinsW`. -/
theorem encBstrinsW_key (op f1 f2 f3 f4) : encBstrinsW op f1 f2 f3 f4 &&& 0xffe08000#32 = op ++ 0#5 ++ 0#1 ++ 0#5 ++ 0#5 ++ 0#5 := by
  change (op ++ f1 ++ 0#1 ++ f2 ++ f3 ++ f4) &&& (BitVec.allOnes 11 ++ 0#5 ++ BitVec.allOnes 1 ++ 0#5 ++ 0#5 ++ 0#5) = _
  simp only [BitVec.and_append, BitVec.and_allOnes, BitVec.and_zero]

theorem encBstrinsW_f1 (op f1 f2 f3 f4) : fld (encBstrinsW op f1 f2 f3 f4) 16 5 = f1 := by
  change BitVec.extractLsb' 16 5 (op ++ f1 ++ 0#1 ++ f2 ++ f3 ++ f4) = _
  rw [BitVec.extractLsb'_append_eq_of_le (by decide), BitVec.extractLsb'_append_eq_of_le (by decide),
    BitVec.extractLsb'_append_eq_of_le (by decide), BitVec.extractLsb'_append_eq_of_le (by decide),
    BitVec.extractLsb'_append_eq_of_add_le (by decide), BitVec.extractLsb'_eq_self]

theorem encBstrinsW_f2 (op f1 f2 f3 f4) : fld (encBstrinsW op f1 f2 f3 f4) 10 5 = f2 := by
  change BitVec.extractLsb' 10 5 (op ++ f1 ++ 0#1 ++ f2 ++ f3 ++ f4) = _
  rw [BitVec.extractLsb'_append_eq_of_le (by decide), BitVec.extractLsb'_append_eq_of_le (by decide),
    BitVec.extractLsb'_append_eq_of_add_le (by decide), BitVec.extractLsb'_eq_self]

theorem encBstrinsW_f3 (op f1 f2 f3 f4) : fld (encBstrinsW op f1 f2 f3 f4) 5 5 = f3 := by
  change BitVec.extractLsb' 5 5 (op ++ f1 ++ 0#1 ++ f2 ++ f3 ++ f4) = _
  rw [BitVec.extractLsb'_append_eq_of_le (by decide), BitVec.extractLsb'_append_eq_of_add_le (by decide),
    BitVec.extractLsb'_eq_self]

theorem encBstrinsW_f4 (op f1 f2 f3 f4) : fld (encBstrinsW op f1 f2 f3 f4) 0 5 = f4 := by
  change BitVec.extractLsb' 0 5 (op ++ f1 ++ 0#1 ++ f2 ++ f3 ++ f4) = _
  rw [BitVec.extractLsb'_append_eq_of_add_le (by decide), BitVec.extractLsb'_eq_self]

/-- The fixed bits of layout `BstrpickW`. -/
theorem encBstrpickW_key (op f1 f2 f3 f4) : encBstrpickW op f1 f2 f3 f4 &&& 0xffe08000#32 = op ++ 0#5 ++ 1#1 ++ 0#5 ++ 0#5 ++ 0#5 := by
  change (op ++ f1 ++ 1#1 ++ f2 ++ f3 ++ f4) &&& (BitVec.allOnes 11 ++ 0#5 ++ BitVec.allOnes 1 ++ 0#5 ++ 0#5 ++ 0#5) = _
  simp only [BitVec.and_append, BitVec.and_allOnes, BitVec.and_zero]

theorem encBstrpickW_f1 (op f1 f2 f3 f4) : fld (encBstrpickW op f1 f2 f3 f4) 16 5 = f1 := by
  change BitVec.extractLsb' 16 5 (op ++ f1 ++ 1#1 ++ f2 ++ f3 ++ f4) = _
  rw [BitVec.extractLsb'_append_eq_of_le (by decide), BitVec.extractLsb'_append_eq_of_le (by decide),
    BitVec.extractLsb'_append_eq_of_le (by decide), BitVec.extractLsb'_append_eq_of_le (by decide),
    BitVec.extractLsb'_append_eq_of_add_le (by decide), BitVec.extractLsb'_eq_self]

theorem encBstrpickW_f2 (op f1 f2 f3 f4) : fld (encBstrpickW op f1 f2 f3 f4) 10 5 = f2 := by
  change BitVec.extractLsb' 10 5 (op ++ f1 ++ 1#1 ++ f2 ++ f3 ++ f4) = _
  rw [BitVec.extractLsb'_append_eq_of_le (by decide), BitVec.extractLsb'_append_eq_of_le (by decide),
    BitVec.extractLsb'_append_eq_of_add_le (by decide), BitVec.extractLsb'_eq_self]

theorem encBstrpickW_f3 (op f1 f2 f3 f4) : fld (encBstrpickW op f1 f2 f3 f4) 5 5 = f3 := by
  change BitVec.extractLsb' 5 5 (op ++ f1 ++ 1#1 ++ f2 ++ f3 ++ f4) = _
  rw [BitVec.extractLsb'_append_eq_of_le (by decide), BitVec.extractLsb'_append_eq_of_add_le (by decide),
    BitVec.extractLsb'_eq_self]

theorem encBstrpickW_f4 (op f1 f2 f3 f4) : fld (encBstrpickW op f1 f2 f3 f4) 0 5 = f4 := by
  change BitVec.extractLsb' 0 5 (op ++ f1 ++ 1#1 ++ f2 ++ f3 ++ f4) = _
  rw [BitVec.extractLsb'_append_eq_of_add_le (by decide), BitVec.extractLsb'_eq_self]

/-- The fixed bits of layout `BstrD`. -/
theorem encBstrD_key (op f1 f2 f3 f4) : encBstrD op f1 f2 f3 f4 &&& 0xffc00000#32 = op ++ 0#6 ++ 0#6 ++ 0#5 ++ 0#5 := by
  change (op ++ f1 ++ f2 ++ f3 ++ f4) &&& (BitVec.allOnes 10 ++ 0#6 ++ 0#6 ++ 0#5 ++ 0#5) = _
  simp only [BitVec.and_append, BitVec.and_allOnes, BitVec.and_zero]

theorem encBstrD_f1 (op f1 f2 f3 f4) : fld (encBstrD op f1 f2 f3 f4) 16 6 = f1 := by
  change BitVec.extractLsb' 16 6 (op ++ f1 ++ f2 ++ f3 ++ f4) = _
  rw [BitVec.extractLsb'_append_eq_of_le (by decide), BitVec.extractLsb'_append_eq_of_le (by decide),
    BitVec.extractLsb'_append_eq_of_le (by decide), BitVec.extractLsb'_append_eq_of_add_le (by decide),
    BitVec.extractLsb'_eq_self]

theorem encBstrD_f2 (op f1 f2 f3 f4) : fld (encBstrD op f1 f2 f3 f4) 10 6 = f2 := by
  change BitVec.extractLsb' 10 6 (op ++ f1 ++ f2 ++ f3 ++ f4) = _
  rw [BitVec.extractLsb'_append_eq_of_le (by decide), BitVec.extractLsb'_append_eq_of_le (by decide),
    BitVec.extractLsb'_append_eq_of_add_le (by decide), BitVec.extractLsb'_eq_self]

theorem encBstrD_f3 (op f1 f2 f3 f4) : fld (encBstrD op f1 f2 f3 f4) 5 5 = f3 := by
  change BitVec.extractLsb' 5 5 (op ++ f1 ++ f2 ++ f3 ++ f4) = _
  rw [BitVec.extractLsb'_append_eq_of_le (by decide), BitVec.extractLsb'_append_eq_of_add_le (by decide),
    BitVec.extractLsb'_eq_self]

theorem encBstrD_f4 (op f1 f2 f3 f4) : fld (encBstrD op f1 f2 f3 f4) 0 5 = f4 := by
  change BitVec.extractLsb' 0 5 (op ++ f1 ++ f2 ++ f3 ++ f4) = _
  rw [BitVec.extractLsb'_append_eq_of_add_le (by decide), BitVec.extractLsb'_eq_self]

/-- The fixed bits of layout `2RCd`. -/
theorem enc2RCd_key (op f1 f2) : enc2RCd op f1 f2 &&& 0xfffffc18#32 = op ++ 0#5 ++ 0#2 ++ 0#3 := by
  change (op ++ f1 ++ 0#2 ++ f2) &&& (BitVec.allOnes 22 ++ 0#5 ++ BitVec.allOnes 2 ++ 0#3) = _
  simp only [BitVec.and_append, BitVec.and_allOnes, BitVec.and_zero]

theorem enc2RCd_f1 (op f1 f2) : fld (enc2RCd op f1 f2) 5 5 = f1 := by
  change BitVec.extractLsb' 5 5 (op ++ f1 ++ 0#2 ++ f2) = _
  rw [BitVec.extractLsb'_append_eq_of_le (by decide), BitVec.extractLsb'_append_eq_of_le (by decide),
    BitVec.extractLsb'_append_eq_of_add_le (by decide), BitVec.extractLsb'_eq_self]

theorem enc2RCd_f2 (op f1 f2) : fld (enc2RCd op f1 f2) 0 3 = f2 := by
  change BitVec.extractLsb' 0 3 (op ++ f1 ++ 0#2 ++ f2) = _
  rw [BitVec.extractLsb'_append_eq_of_add_le (by decide), BitVec.extractLsb'_eq_self]

/-- The fixed bits of layout `2RCj`. -/
theorem enc2RCj_key (op f1 f2) : enc2RCj op f1 f2 &&& 0xffffff00#32 = op ++ 0#3 ++ 0#5 := by
  change (op ++ f1 ++ f2) &&& (BitVec.allOnes 24 ++ 0#3 ++ 0#5) = _
  simp only [BitVec.and_append, BitVec.and_allOnes, BitVec.and_zero]

theorem enc2RCj_f1 (op f1 f2) : fld (enc2RCj op f1 f2) 5 3 = f1 := by
  change BitVec.extractLsb' 5 3 (op ++ f1 ++ f2) = _
  rw [BitVec.extractLsb'_append_eq_of_le (by decide), BitVec.extractLsb'_append_eq_of_add_le (by decide),
    BitVec.extractLsb'_eq_self]

theorem enc2RCj_f2 (op f1 f2) : fld (enc2RCj op f1 f2) 0 5 = f2 := by
  change BitVec.extractLsb' 0 5 (op ++ f1 ++ f2) = _
  rw [BitVec.extractLsb'_append_eq_of_add_le (by decide), BitVec.extractLsb'_eq_self]

/-- The fixed bits of layout `2RI12`. -/
theorem enc2RI12_key (op f1 f2 f3) : enc2RI12 op f1 f2 f3 &&& 0xffc00000#32 = op ++ 0#12 ++ 0#5 ++ 0#5 := by
  change (op ++ f1 ++ f2 ++ f3) &&& (BitVec.allOnes 10 ++ 0#12 ++ 0#5 ++ 0#5) = _
  simp only [BitVec.and_append, BitVec.and_allOnes, BitVec.and_zero]

theorem enc2RI12_f1 (op f1 f2 f3) : fld (enc2RI12 op f1 f2 f3) 10 12 = f1 := by
  change BitVec.extractLsb' 10 12 (op ++ f1 ++ f2 ++ f3) = _
  rw [BitVec.extractLsb'_append_eq_of_le (by decide), BitVec.extractLsb'_append_eq_of_le (by decide),
    BitVec.extractLsb'_append_eq_of_add_le (by decide), BitVec.extractLsb'_eq_self]

theorem enc2RI12_f2 (op f1 f2 f3) : fld (enc2RI12 op f1 f2 f3) 5 5 = f2 := by
  change BitVec.extractLsb' 5 5 (op ++ f1 ++ f2 ++ f3) = _
  rw [BitVec.extractLsb'_append_eq_of_le (by decide), BitVec.extractLsb'_append_eq_of_add_le (by decide),
    BitVec.extractLsb'_eq_self]

theorem enc2RI12_f3 (op f1 f2 f3) : fld (enc2RI12 op f1 f2 f3) 0 5 = f3 := by
  change BitVec.extractLsb' 0 5 (op ++ f1 ++ f2 ++ f3) = _
  rw [BitVec.extractLsb'_append_eq_of_add_le (by decide), BitVec.extractLsb'_eq_self]

/-- The fixed bits of layout `Csrrd`. -/
theorem encCsrrd_key (op f1 f2) : encCsrrd op f1 f2 &&& 0xff0003e0#32 = op ++ 0#14 ++ 0#5 ++ 0#5 := by
  change (op ++ f1 ++ 0#5 ++ f2) &&& (BitVec.allOnes 8 ++ 0#14 ++ BitVec.allOnes 5 ++ 0#5) = _
  simp only [BitVec.and_append, BitVec.and_allOnes, BitVec.and_zero]

theorem encCsrrd_f1 (op f1 f2) : fld (encCsrrd op f1 f2) 10 14 = f1 := by
  change BitVec.extractLsb' 10 14 (op ++ f1 ++ 0#5 ++ f2) = _
  rw [BitVec.extractLsb'_append_eq_of_le (by decide), BitVec.extractLsb'_append_eq_of_le (by decide),
    BitVec.extractLsb'_append_eq_of_add_le (by decide), BitVec.extractLsb'_eq_self]

theorem encCsrrd_f2 (op f1 f2) : fld (encCsrrd op f1 f2) 0 5 = f2 := by
  change BitVec.extractLsb' 0 5 (op ++ f1 ++ 0#5 ++ f2) = _
  rw [BitVec.extractLsb'_append_eq_of_add_le (by decide), BitVec.extractLsb'_eq_self]

/-- The fixed bits of layout `Csrwr`. -/
theorem encCsrwr_key (op f1 f2) : encCsrwr op f1 f2 &&& 0xff0003e0#32 = op ++ 0#14 ++ 1#5 ++ 0#5 := by
  change (op ++ f1 ++ 1#5 ++ f2) &&& (BitVec.allOnes 8 ++ 0#14 ++ BitVec.allOnes 5 ++ 0#5) = _
  simp only [BitVec.and_append, BitVec.and_allOnes, BitVec.and_zero]

theorem encCsrwr_f1 (op f1 f2) : fld (encCsrwr op f1 f2) 10 14 = f1 := by
  change BitVec.extractLsb' 10 14 (op ++ f1 ++ 1#5 ++ f2) = _
  rw [BitVec.extractLsb'_append_eq_of_le (by decide), BitVec.extractLsb'_append_eq_of_le (by decide),
    BitVec.extractLsb'_append_eq_of_add_le (by decide), BitVec.extractLsb'_eq_self]

theorem encCsrwr_f2 (op f1 f2) : fld (encCsrwr op f1 f2) 0 5 = f2 := by
  change BitVec.extractLsb' 0 5 (op ++ f1 ++ 1#5 ++ f2) = _
  rw [BitVec.extractLsb'_append_eq_of_add_le (by decide), BitVec.extractLsb'_eq_self]

/-- The fixed bits of layout `2RI14`. -/
theorem enc2RI14_key (op f1 f2 f3) : enc2RI14 op f1 f2 f3 &&& 0xff000000#32 = op ++ 0#14 ++ 0#5 ++ 0#5 := by
  change (op ++ f1 ++ f2 ++ f3) &&& (BitVec.allOnes 8 ++ 0#14 ++ 0#5 ++ 0#5) = _
  simp only [BitVec.and_append, BitVec.and_allOnes, BitVec.and_zero]

theorem enc2RI14_f1 (op f1 f2 f3) : fld (enc2RI14 op f1 f2 f3) 10 14 = f1 := by
  change BitVec.extractLsb' 10 14 (op ++ f1 ++ f2 ++ f3) = _
  rw [BitVec.extractLsb'_append_eq_of_le (by decide), BitVec.extractLsb'_append_eq_of_le (by decide),
    BitVec.extractLsb'_append_eq_of_add_le (by decide), BitVec.extractLsb'_eq_self]

theorem enc2RI14_f2 (op f1 f2 f3) : fld (enc2RI14 op f1 f2 f3) 5 5 = f2 := by
  change BitVec.extractLsb' 5 5 (op ++ f1 ++ f2 ++ f3) = _
  rw [BitVec.extractLsb'_append_eq_of_le (by decide), BitVec.extractLsb'_append_eq_of_add_le (by decide),
    BitVec.extractLsb'_eq_self]

theorem enc2RI14_f3 (op f1 f2 f3) : fld (enc2RI14 op f1 f2 f3) 0 5 = f3 := by
  change BitVec.extractLsb' 0 5 (op ++ f1 ++ f2 ++ f3) = _
  rw [BitVec.extractLsb'_append_eq_of_add_le (by decide), BitVec.extractLsb'_eq_self]

/-- The fixed bits of layout `2RI8`. -/
theorem enc2RI8_key (op f1 f2 f3) : enc2RI8 op f1 f2 f3 &&& 0xfffc0000#32 = op ++ 0#8 ++ 0#5 ++ 0#5 := by
  change (op ++ f1 ++ f2 ++ f3) &&& (BitVec.allOnes 14 ++ 0#8 ++ 0#5 ++ 0#5) = _
  simp only [BitVec.and_append, BitVec.and_allOnes, BitVec.and_zero]

theorem enc2RI8_f1 (op f1 f2 f3) : fld (enc2RI8 op f1 f2 f3) 10 8 = f1 := by
  change BitVec.extractLsb' 10 8 (op ++ f1 ++ f2 ++ f3) = _
  rw [BitVec.extractLsb'_append_eq_of_le (by decide), BitVec.extractLsb'_append_eq_of_le (by decide),
    BitVec.extractLsb'_append_eq_of_add_le (by decide), BitVec.extractLsb'_eq_self]

theorem enc2RI8_f2 (op f1 f2 f3) : fld (enc2RI8 op f1 f2 f3) 5 5 = f2 := by
  change BitVec.extractLsb' 5 5 (op ++ f1 ++ f2 ++ f3) = _
  rw [BitVec.extractLsb'_append_eq_of_le (by decide), BitVec.extractLsb'_append_eq_of_add_le (by decide),
    BitVec.extractLsb'_eq_self]

theorem enc2RI8_f3 (op f1 f2 f3) : fld (enc2RI8 op f1 f2 f3) 0 5 = f3 := by
  change BitVec.extractLsb' 0 5 (op ++ f1 ++ f2 ++ f3) = _
  rw [BitVec.extractLsb'_append_eq_of_add_le (by decide), BitVec.extractLsb'_eq_self]

/-- The fixed bits of layout `Ldpte`. -/
theorem encLdpte_key (op f1 f2) : encLdpte op f1 f2 &&& 0xfffc001f#32 = op ++ 0#8 ++ 0#5 ++ 0#5 := by
  change (op ++ f1 ++ f2 ++ 0#5) &&& (BitVec.allOnes 14 ++ 0#8 ++ 0#5 ++ BitVec.allOnes 5) = _
  simp only [BitVec.and_append, BitVec.and_allOnes, BitVec.and_zero]

theorem encLdpte_f1 (op f1 f2) : fld (encLdpte op f1 f2) 10 8 = f1 := by
  change BitVec.extractLsb' 10 8 (op ++ f1 ++ f2 ++ 0#5) = _
  rw [BitVec.extractLsb'_append_eq_of_le (by decide), BitVec.extractLsb'_append_eq_of_le (by decide),
    BitVec.extractLsb'_append_eq_of_add_le (by decide), BitVec.extractLsb'_eq_self]

theorem encLdpte_f2 (op f1 f2) : fld (encLdpte op f1 f2) 5 5 = f2 := by
  change BitVec.extractLsb' 5 5 (op ++ f1 ++ f2 ++ 0#5) = _
  rw [BitVec.extractLsb'_append_eq_of_le (by decide), BitVec.extractLsb'_append_eq_of_add_le (by decide),
    BitVec.extractLsb'_eq_self]

theorem encNone_key (op) : encNone op &&& 0xffffffff#32 = op := by
  change op &&& BitVec.allOnes 32 = op
  simp only [BitVec.and_allOnes]

/-- The fixed bits of layout `4R`. -/
theorem enc4R_key (op f1 f2 f3 f4) : enc4R op f1 f2 f3 f4 &&& 0xfff00000#32 = op ++ 0#5 ++ 0#5 ++ 0#5 ++ 0#5 := by
  change (op ++ f1 ++ f2 ++ f3 ++ f4) &&& (BitVec.allOnes 12 ++ 0#5 ++ 0#5 ++ 0#5 ++ 0#5) = _
  simp only [BitVec.and_append, BitVec.and_allOnes, BitVec.and_zero]

theorem enc4R_f1 (op f1 f2 f3 f4) : fld (enc4R op f1 f2 f3 f4) 15 5 = f1 := by
  change BitVec.extractLsb' 15 5 (op ++ f1 ++ f2 ++ f3 ++ f4) = _
  rw [BitVec.extractLsb'_append_eq_of_le (by decide), BitVec.extractLsb'_append_eq_of_le (by decide),
    BitVec.extractLsb'_append_eq_of_le (by decide), BitVec.extractLsb'_append_eq_of_add_le (by decide),
    BitVec.extractLsb'_eq_self]

theorem enc4R_f2 (op f1 f2 f3 f4) : fld (enc4R op f1 f2 f3 f4) 10 5 = f2 := by
  change BitVec.extractLsb' 10 5 (op ++ f1 ++ f2 ++ f3 ++ f4) = _
  rw [BitVec.extractLsb'_append_eq_of_le (by decide), BitVec.extractLsb'_append_eq_of_le (by decide),
    BitVec.extractLsb'_append_eq_of_add_le (by decide), BitVec.extractLsb'_eq_self]

theorem enc4R_f3 (op f1 f2 f3 f4) : fld (enc4R op f1 f2 f3 f4) 5 5 = f3 := by
  change BitVec.extractLsb' 5 5 (op ++ f1 ++ f2 ++ f3 ++ f4) = _
  rw [BitVec.extractLsb'_append_eq_of_le (by decide), BitVec.extractLsb'_append_eq_of_add_le (by decide),
    BitVec.extractLsb'_eq_self]

theorem enc4R_f4 (op f1 f2 f3 f4) : fld (enc4R op f1 f2 f3 f4) 0 5 = f4 := by
  change BitVec.extractLsb' 0 5 (op ++ f1 ++ f2 ++ f3 ++ f4) = _
  rw [BitVec.extractLsb'_append_eq_of_add_le (by decide), BitVec.extractLsb'_eq_self]

/-- The fixed bits of layout `Fcmp`. -/
theorem encFcmp_key (op f1 f2 f3) : encFcmp op f1 f2 f3 &&& 0xffff8018#32 = op ++ 0#5 ++ 0#5 ++ 0#2 ++ 0#3 := by
  change (op ++ f1 ++ f2 ++ 0#2 ++ f3) &&& (BitVec.allOnes 17 ++ 0#5 ++ 0#5 ++ BitVec.allOnes 2 ++ 0#3) = _
  simp only [BitVec.and_append, BitVec.and_allOnes, BitVec.and_zero]

theorem encFcmp_f1 (op f1 f2 f3) : fld (encFcmp op f1 f2 f3) 10 5 = f1 := by
  change BitVec.extractLsb' 10 5 (op ++ f1 ++ f2 ++ 0#2 ++ f3) = _
  rw [BitVec.extractLsb'_append_eq_of_le (by decide), BitVec.extractLsb'_append_eq_of_le (by decide),
    BitVec.extractLsb'_append_eq_of_le (by decide), BitVec.extractLsb'_append_eq_of_add_le (by decide),
    BitVec.extractLsb'_eq_self]

theorem encFcmp_f2 (op f1 f2 f3) : fld (encFcmp op f1 f2 f3) 5 5 = f2 := by
  change BitVec.extractLsb' 5 5 (op ++ f1 ++ f2 ++ 0#2 ++ f3) = _
  rw [BitVec.extractLsb'_append_eq_of_le (by decide), BitVec.extractLsb'_append_eq_of_le (by decide),
    BitVec.extractLsb'_append_eq_of_add_le (by decide), BitVec.extractLsb'_eq_self]

theorem encFcmp_f3 (op f1 f2 f3) : fld (encFcmp op f1 f2 f3) 0 3 = f3 := by
  change BitVec.extractLsb' 0 3 (op ++ f1 ++ f2 ++ 0#2 ++ f3) = _
  rw [BitVec.extractLsb'_append_eq_of_add_le (by decide), BitVec.extractLsb'_eq_self]

/-- The fixed bits of layout `2RI16`. -/
theorem enc2RI16_key (op f1 f2 f3) : enc2RI16 op f1 f2 f3 &&& 0xfc000000#32 = op ++ 0#16 ++ 0#5 ++ 0#5 := by
  change (op ++ f1 ++ f2 ++ f3) &&& (BitVec.allOnes 6 ++ 0#16 ++ 0#5 ++ 0#5) = _
  simp only [BitVec.and_append, BitVec.and_allOnes, BitVec.and_zero]

theorem enc2RI16_f1 (op f1 f2 f3) : fld (enc2RI16 op f1 f2 f3) 10 16 = f1 := by
  change BitVec.extractLsb' 10 16 (op ++ f1 ++ f2 ++ f3) = _
  rw [BitVec.extractLsb'_append_eq_of_le (by decide), BitVec.extractLsb'_append_eq_of_le (by decide),
    BitVec.extractLsb'_append_eq_of_add_le (by decide), BitVec.extractLsb'_eq_self]

theorem enc2RI16_f2 (op f1 f2 f3) : fld (enc2RI16 op f1 f2 f3) 5 5 = f2 := by
  change BitVec.extractLsb' 5 5 (op ++ f1 ++ f2 ++ f3) = _
  rw [BitVec.extractLsb'_append_eq_of_le (by decide), BitVec.extractLsb'_append_eq_of_add_le (by decide),
    BitVec.extractLsb'_eq_self]

theorem enc2RI16_f3 (op f1 f2 f3) : fld (enc2RI16 op f1 f2 f3) 0 5 = f3 := by
  change BitVec.extractLsb' 0 5 (op ++ f1 ++ f2 ++ f3) = _
  rw [BitVec.extractLsb'_append_eq_of_add_le (by decide), BitVec.extractLsb'_eq_self]

/-- The fixed bits of layout `1RI20`. -/
theorem enc1RI20_key (op f1 f2) : enc1RI20 op f1 f2 &&& 0xfe000000#32 = op ++ 0#20 ++ 0#5 := by
  change (op ++ f1 ++ f2) &&& (BitVec.allOnes 7 ++ 0#20 ++ 0#5) = _
  simp only [BitVec.and_append, BitVec.and_allOnes, BitVec.and_zero]

theorem enc1RI20_f1 (op f1 f2) : fld (enc1RI20 op f1 f2) 5 20 = f1 := by
  change BitVec.extractLsb' 5 20 (op ++ f1 ++ f2) = _
  rw [BitVec.extractLsb'_append_eq_of_le (by decide), BitVec.extractLsb'_append_eq_of_add_le (by decide),
    BitVec.extractLsb'_eq_self]

theorem enc1RI20_f2 (op f1 f2) : fld (enc1RI20 op f1 f2) 0 5 = f2 := by
  change BitVec.extractLsb' 0 5 (op ++ f1 ++ f2) = _
  rw [BitVec.extractLsb'_append_eq_of_add_le (by decide), BitVec.extractLsb'_eq_self]

/-- The fixed bits of layout `Bceqz`. -/
theorem encBceqz_key (op f1 f2 f3) : encBceqz op f1 f2 f3 &&& 0xfc000300#32 = op ++ 0#16 ++ 0#2 ++ 0#3 ++ 0#5 := by
  change (op ++ f1 ++ 0#2 ++ f2 ++ f3) &&& (BitVec.allOnes 6 ++ 0#16 ++ BitVec.allOnes 2 ++ 0#3 ++ 0#5) = _
  simp only [BitVec.and_append, BitVec.and_allOnes, BitVec.and_zero]

theorem encBceqz_f1 (op f1 f2 f3) : fld (encBceqz op f1 f2 f3) 10 16 = f1 := by
  change BitVec.extractLsb' 10 16 (op ++ f1 ++ 0#2 ++ f2 ++ f3) = _
  rw [BitVec.extractLsb'_append_eq_of_le (by decide), BitVec.extractLsb'_append_eq_of_le (by decide),
    BitVec.extractLsb'_append_eq_of_le (by decide), BitVec.extractLsb'_append_eq_of_add_le (by decide),
    BitVec.extractLsb'_eq_self]

theorem encBceqz_f2 (op f1 f2 f3) : fld (encBceqz op f1 f2 f3) 5 3 = f2 := by
  change BitVec.extractLsb' 5 3 (op ++ f1 ++ 0#2 ++ f2 ++ f3) = _
  rw [BitVec.extractLsb'_append_eq_of_le (by decide), BitVec.extractLsb'_append_eq_of_add_le (by decide),
    BitVec.extractLsb'_eq_self]

theorem encBceqz_f3 (op f1 f2 f3) : fld (encBceqz op f1 f2 f3) 0 5 = f3 := by
  change BitVec.extractLsb' 0 5 (op ++ f1 ++ 0#2 ++ f2 ++ f3) = _
  rw [BitVec.extractLsb'_append_eq_of_add_le (by decide), BitVec.extractLsb'_eq_self]

/-- The fixed bits of layout `Bcnez`. -/
theorem encBcnez_key (op f1 f2 f3) : encBcnez op f1 f2 f3 &&& 0xfc000300#32 = op ++ 0#16 ++ 1#2 ++ 0#3 ++ 0#5 := by
  change (op ++ f1 ++ 1#2 ++ f2 ++ f3) &&& (BitVec.allOnes 6 ++ 0#16 ++ BitVec.allOnes 2 ++ 0#3 ++ 0#5) = _
  simp only [BitVec.and_append, BitVec.and_allOnes, BitVec.and_zero]

theorem encBcnez_f1 (op f1 f2 f3) : fld (encBcnez op f1 f2 f3) 10 16 = f1 := by
  change BitVec.extractLsb' 10 16 (op ++ f1 ++ 1#2 ++ f2 ++ f3) = _
  rw [BitVec.extractLsb'_append_eq_of_le (by decide), BitVec.extractLsb'_append_eq_of_le (by decide),
    BitVec.extractLsb'_append_eq_of_le (by decide), BitVec.extractLsb'_append_eq_of_add_le (by decide),
    BitVec.extractLsb'_eq_self]

theorem encBcnez_f2 (op f1 f2 f3) : fld (encBcnez op f1 f2 f3) 5 3 = f2 := by
  change BitVec.extractLsb' 5 3 (op ++ f1 ++ 1#2 ++ f2 ++ f3) = _
  rw [BitVec.extractLsb'_append_eq_of_le (by decide), BitVec.extractLsb'_append_eq_of_add_le (by decide),
    BitVec.extractLsb'_eq_self]

theorem encBcnez_f3 (op f1 f2 f3) : fld (encBcnez op f1 f2 f3) 0 5 = f3 := by
  change BitVec.extractLsb' 0 5 (op ++ f1 ++ 1#2 ++ f2 ++ f3) = _
  rw [BitVec.extractLsb'_append_eq_of_add_le (by decide), BitVec.extractLsb'_eq_self]

/-- The fixed bits of layout `I26`. -/
theorem encI26_key (op f1 f2) : encI26 op f1 f2 &&& 0xfc000000#32 = op ++ 0#16 ++ 0#10 := by
  change (op ++ f1 ++ f2) &&& (BitVec.allOnes 6 ++ 0#16 ++ 0#10) = _
  simp only [BitVec.and_append, BitVec.and_allOnes, BitVec.and_zero]

theorem encI26_f1 (op f1 f2) : fld (encI26 op f1 f2) 10 16 = f1 := by
  change BitVec.extractLsb' 10 16 (op ++ f1 ++ f2) = _
  rw [BitVec.extractLsb'_append_eq_of_le (by decide), BitVec.extractLsb'_append_eq_of_add_le (by decide),
    BitVec.extractLsb'_eq_self]

theorem encI26_f2 (op f1 f2) : fld (encI26 op f1 f2) 0 10 = f2 := by
  change BitVec.extractLsb' 0 10 (op ++ f1 ++ f2) = _
  rw [BitVec.extractLsb'_append_eq_of_add_le (by decide), BitVec.extractLsb'_eq_self]

/-- Two fields of an offset joined again. -/
theorem join_fields {n m : Nat} (o : BitVec (m + n)) : BitVec.extractLsb' n m o ++ BitVec.extractLsb' 0 n o = o := by
  rw [BitVec.extractLsb'_append_extractLsb'_eq_extractLsb' (by omega), BitVec.extractLsb'_eq_self]

/-- A word whose fixed bits are the row's matches it. -/
theorem hits_of_key {r : Row} {w key : BitVec 32} (h : w &&& r.mask = key) (e : key = r.bits) : r.hits w = true := by
  rw [Row.hits, h, e]; exact beq_self_eq_true _

theorem app1 {α β : Type} (f : α → β) {a a' : α} (ha : a = a') : f a = f a' := by rw [ha]
theorem app2 {α β γ : Type} (f : α → β → γ) {a a' : α} {b b' : β} (ha : a = a') (hb : b = b') : f a b = f a' b' := by
  rw [ha, hb]
theorem app3 {α β γ δ : Type} (f : α → β → γ → δ) {a a' : α} {b b' : β} {c c' : γ} (ha : a = a') (hb : b = b')
    (hc : c = c') : f a b c = f a' b' c' := by rw [ha, hb, hc]
theorem app4 {α β γ δ ε : Type} (f : α → β → γ → δ → ε) {a a' : α} {b b' : β} {c c' : γ} {d d' : δ} (ha : a = a')
    (hb : b = b') (hc : c = c') (hd : d = d') : f a b c d = f a' b' c' d' := by rw [ha, hb, hc, hd]

end Sys2Proof
end

