-- ==== Sys2Proof/Laws/Env.lean ====
section
/-! SUPPORT. What an input of the environment changes, field by field (Machine/Env.lean). -/

namespace Sys2Proof.Machine

/-! ## The clock -/

/-- Ticks of the clock change the counter, the timer and its flag, and nothing else. -/
theorem State.tick_eq (s : State) (n : Nat) :
    s.tick n = { s with stable := s.stable + BitVec.ofNat 64 n, csr := (s.tick n).csr } := by
  unfold State.tick State.tickTimer
  dsimp only
  repeat' split
  all_goals rfl

/-- What the ticks make of the registers does not depend on the inputs that wait. -/
theorem State.tick_csr_inputs (s : State) (l : List EnvInput) (n : Nat) :
    (({ s with inputs := l } : State).tick n).csr = (s.tick n).csr := by
  unfold State.tick State.tickTimer
  dsimp only
  repeat' split
  all_goals rfl

/-! ## Bytes that are written one after another -/

/-- The last write of a list that begins with a write. -/
theorem lastWrite_cons (c : Host.Cell) (l : List Host.Cell) (a : Nat) :
    lastWrite (c :: l) a = (lastWrite l a).or (if c.1 = a then some c.2 else none) := by
  simp only [lastWrite, List.reverse_cons, List.find?_append]
  cases List.find? (fun d => d.1 == a) l.reverse with
  | some d => rfl
  | none => by_cases h : c.1 = a <;> simp [h]

/-- Bus writes change memory and the values that a fetch may see, and nothing else. -/
theorem State.busWrites_eq : ∀ (l : List Host.Cell) (s : State),
    s.busWrites l = { s with mem := (s.busWrites l).mem, stale := (s.busWrites l).stale }
  | [], _ => rfl
  | (a, b) :: l, s => by
    unfold State.busWrites
    split
    · rw [State.busWrites_eq l (s.storeByte a b)]; rfl
    · exact State.busWrites_eq l s

/-- Memory after bus writes holds the last byte written to each physical address (R849, R250). -/
theorem State.byteAt_busWrites : ∀ (l : List Host.Cell) {s : State}, Memory.wf s.mem = true → ∀ y,
    (s.busWrites l).byteAt y =
      if y < 2 ^ Config.palen then (lastWrite l y).getD (s.byteAt y) else s.byteAt y
  | [], s, _, y => by simp [State.busWrites, lastWrite]
  | (a, b) :: l, s, h, y => by
    rw [State.busWrites, lastWrite_cons]
    by_cases ha : a < 2 ^ Config.palen
    · rw [if_pos ha, State.byteAt_busWrites l (State.storeByte_wf h a b), State.byteAt_storeByte h]
      by_cases hy : y = a
      · subst hy; rw [if_pos ha, if_pos ha]; cases lastWrite l y <;> simp
      · rw [if_neg hy, if_neg (Ne.symm hy), Option.or_none]
    · rw [if_neg ha, State.byteAt_busWrites l h]
      by_cases hy : y < 2 ^ Config.palen
      · rw [if_pos hy, if_pos hy, if_neg (by rintro rfl; exact ha hy), Option.or_none]
      · rw [if_neg hy, if_neg hy]

/-- A register byte that is given a value holds it, and every other byte is as it was. -/
theorem cellFind_cellSet (l : List Host.Cell) (x : Nat) (b : Byte) (a : Nat) :
    cellFind (cellSet l x b) a = if a = x then some b else cellFind l a := by
  induction l with
  | nil => rfl
  | cons c l ih =>
    simp only [cellSet]
    split
    · rfl
    · split
      · subst ‹x = c.1›; by_cases h : a = c.1 <;> simp [cellFind, h]
      · simp only [cellFind, ih]
        by_cases h : a = c.1 <;> by_cases h' : a = x <;> simp_all

/-- The IOCSR space after the platform's writes holds the last byte written to each address (R816). -/
theorem State.cellFind_platformWrites (l : List Host.Cell) (s : State) (a : Nat) :
    cellFind (s.platformWrites l).iocsr a = (lastWrite l a).or (cellFind s.iocsr a) := by
  have h : ∀ c, cellFind (l.foldl (fun c x => cellSet c x.1 x.2) c) a = (lastWrite l a).or (cellFind c a) := by
    induction l with
    | nil => exact fun _ => rfl
    | cons x l ih =>
      intro c
      rw [List.foldl_cons, ih, cellFind_cellSet, lastWrite_cons]
      by_cases hx : a = x.1
      · subst hx; cases lastWrite l x.1 <;> simp
      · rw [if_neg hx, if_neg (Ne.symm hx), Option.or_none]
  exact h s.iocsr

end Sys2Proof.Machine
end

