-- ==== Sys2Proof/Laws/Float.lean ====
section
/-! SUPPORT. The exact values of the floating-point operations, as rational numbers: what is rounded once. -/

namespace Sys2Proof.Machine

/-- The sign of an exact value as an integer with its magnitude. -/
def Exact.signed (v : Exact) : Int := if v.neg then -(v.m : Int) else v.m

/-- An exact value is its signed magnitude times its power of 2. -/
theorem Exact.rat_eq (v : Exact) : v.rat = (v.signed : ℚ) * 2 ^ v.e := by
  unfold Exact.rat Exact.signed
  split <;> push_cast <;> ring

/-- The magnitude of an exact value. -/
theorem Exact.abs_rat (v : Exact) : |v.rat| = (v.m : ℚ) * 2 ^ v.e := by
  have h : (0 : ℚ) ≤ (v.m : ℚ) * 2 ^ v.e := by positivity
  unfold Exact.rat
  split
  · rw [neg_one_mul, neg_mul, abs_neg, abs_of_nonneg h]
  · rw [one_mul, abs_of_nonneg h]

/-- An exact value is 0 where its magnitude is. -/
theorem Exact.rat_eq_zero (v : Exact) : v.rat = 0 ↔ v.m = 0 := by
  rw [← abs_eq_zero, v.abs_rat, mul_eq_zero, Nat.cast_eq_zero]
  exact or_iff_left (zpow_ne_zero _ (by norm_num))

/-- An exact value is negative where its sign says so, unless it is 0. -/
theorem Exact.rat_neg (v : Exact) : v.rat < 0 ↔ v.neg = true ∧ v.m ≠ 0 := by
  by_cases hm : v.m = 0
  · simp [(v.rat_eq_zero).mpr hm, hm]
  · have h : (0 : ℚ) < (v.m : ℚ) * 2 ^ v.e := by have : 0 < v.m := Nat.pos_of_ne_zero hm; positivity
    unfold Exact.rat
    cases v.neg <;> simp [hm]
    · exact h.le
    · linarith

/-! ## Data and their numbers -/

/-- The sign of the value of a datum is its sign. -/
@[simp] theorem Fmt.value_neg (F : Fmt) (w : Word) : (F.value w).neg = F.sign w := by unfold Fmt.value; split <;> rfl

/-- The value of a datum is 0 where the datum is a zero. -/
theorem Fmt.value_eq_zero (F : Fmt) (w : Word) : (F.value w).m = 0 ↔ F.isZero w = true := by
  have hp : (0 : Nat) < 2 ^ F.frac := by positivity
  have hf : F.fraction w = F.mag w % 2 ^ F.frac :=
    (Nat.mod_mod_of_dvd _ (pow_dvd_pow 2 (Nat.le_add_right F.frac F.expBits))).symm
  unfold value isZero
  rw [beq_iff_eq]
  split
  · rename_i h
    rw [hf, Nat.mod_eq_of_lt ((Nat.div_eq_zero_iff_lt hp).mp h)]
  · rename_i h
    exact ⟨fun h' => by simp only at h'; omega, fun h' => absurd (by unfold expo; rw [h']; simp) h⟩

/-- A datum is the number 0 where it is a zero. -/
theorem Fmt.num_eq_zero (F : Fmt) (w : Word) : F.num w = 0 ↔ F.isZero w = true := by
  unfold num; rw [Exact.rat_eq_zero, value_eq_zero]

/-- A datum is a negative number where its sign says so, unless it is a zero. -/
theorem Fmt.num_neg (F : Fmt) (w : Word) : F.num w < 0 ↔ F.sign w = true ∧ F.isZero w = false := by
  unfold num; rw [Exact.rat_neg, value_neg, Ne, value_eq_zero, Bool.not_eq_true]

/-- A finite datum is neither an infinity nor a NaN. -/
theorem Fmt.of_isFinite {F : Fmt} {w : Word} (h : F.isFinite w = true) :
    F.isInf w = false ∧ F.isNan w = false ∧ F.isSnan w = false := by
  unfold isFinite at h; unfold isSnan isInf isNan; simp_all

/-- An infinity is neither finite nor a NaN. -/
theorem Fmt.of_isInf {F : Fmt} {w : Word} (h : F.isInf w = true) :
    F.isFinite w = false ∧ F.isNan w = false ∧ F.isSnan w = false := by
  unfold isInf at h; unfold isSnan isFinite isNan; simp_all

/-- Without a NaN among the operands the result is the operation's. -/
theorem Fmt.orNan_of_none {F : Fmt} {ws : List Word} {k : FpOut} (h : ∀ w ∈ ws, F.isNan w = false) :
    F.orNan ws k = k := by
  unfold orNan nanOf
  rw [List.find?_eq_none.mpr (fun w hw => by simp [isSnan, h w hw]),
    List.find?_eq_none.mpr (fun w hw => by simp [h w hw])]
  rfl

/-- With a NaN among the operands it is that of R653. -/
theorem Fmt.orNan_passes (F : Fmt) (ws : List Word) (k : FpOut) : F.PassesNan ws 0 (F.orNan ws k) := by
  unfold PassesNan orNan nanOf
  exact ⟨fun w h => by rw [h]; rfl, fun h w h' => by rw [h]; simp [h', FpOut.quiet]⟩

/-- A value rounded is its own rational number rounded. -/
theorem Fmt.rounds_self {F : Fmt} {rm : BitVec 2} {ue zneg : Bool} {q : ℚ} {v : Exact} (hq : v.rat = q)
    (hs : v.neg = true ↔ if q = 0 then zneg = true else q < 0) : F.Rounds rm ue zneg q (F.round rm ue v) :=
  ⟨v, rfl, hs, fun n k _ => by rw [hq]; exact ⟨Iff.rfl, Iff.rfl⟩⟩

/-- A value scaled to a lower exponent. -/
theorem Exact.rat_scaled (v : Exact) {e : Int} (h : e ≤ v.e) :
    v.rat = ((if v.neg then -((v.m * 2 ^ (v.e - e).toNat : Nat) : Int) else ((v.m * 2 ^ (v.e - e).toNat : Nat) : Int) : Int) : ℚ) * 2 ^ e := by
  have hp : (2 : ℚ) ^ v.e = 2 ^ (v.e - e).toNat * 2 ^ e := by
    rw [← zpow_natCast, ← zpow_add₀ (by norm_num), Int.toNat_of_nonneg (by omega)]
    congr 1
    omega
  rw [Exact.rat_eq, hp]
  unfold Exact.signed
  split <;> push_cast <;> ring

/-- The exact sum is the sum (R634). -/
theorem exactSum_rat (rm : BitVec 2) (a b : Exact) : (exactSum rm a b).rat = a.rat + b.rat := by
  rw [a.rat_scaled (min_le_left a.e b.e), b.rat_scaled (min_le_right a.e b.e), ← add_mul, Exact.rat_eq]
  unfold exactSum
  simp only []
  generalize hx : (if a.neg then -((a.m * 2 ^ (a.e - min a.e b.e).toNat : Nat) : Int) else _) = x
  generalize hy : (if b.neg then -((b.m * 2 ^ (b.e - min a.e b.e).toNat : Nat) : Int) else _) = y
  split
  · rename_i h
    rw [show (x : ℚ) + y = ((x + y : Int) : ℚ) by push_cast; rfl, h]
    simp [Exact.signed]
  · unfold Exact.signed
    simp only [decide_eq_true_eq]
    rw [show (if x + y < 0 then -((x + y).natAbs : Int) else ((x + y).natAbs : Int)) = x + y by split <;> omega]
    push_cast
    rfl

/-- The sign of the exact sum: that of the sum, and of a zero sum - only where both are negative or, of unlike signs, when
rounding toward -infinity (R634). -/
theorem exactSum_neg (rm : BitVec 2) (a b : Exact) :
    (exactSum rm a b).neg = true ↔
      if a.rat + b.rat = 0 then (if a.neg = b.neg then a.neg else rm == 3) = true else a.rat + b.rat < 0 := by
  rw [a.rat_scaled (min_le_left a.e b.e), b.rat_scaled (min_le_right a.e b.e), ← add_mul]
  unfold exactSum
  simp only []
  generalize hx : (if a.neg then -((a.m * 2 ^ (a.e - min a.e b.e).toNat : Nat) : Int) else _) = x
  generalize hy : (if b.neg then -((b.m * 2 ^ (b.e - min a.e b.e).toNat : Nat) : Int) else _) = y
  have hp : (0 : ℚ) < 2 ^ (min a.e b.e) := by positivity
  rw [show (x : ℚ) + y = ((x + y : Int) : ℚ) by push_cast; rfl]
  split
  · rename_i h
    rw [h]
    simp
  · rename_i h
    have hz : ((x + y : Int) : ℚ) * 2 ^ min a.e b.e ≠ 0 := mul_ne_zero (by exact_mod_cast h) hp.ne'
    rw [if_neg hz, decide_eq_true_eq]
    exact ⟨fun h => mul_neg_of_neg_of_pos (by exact_mod_cast h) hp,
      fun h => by exact_mod_cast neg_of_mul_neg_left h hp.le⟩

/-- The exact product is the product. -/
theorem exactProduct_rat (a b : Exact) : (exactProduct a b).rat = a.rat * b.rat := by
  unfold exactProduct Exact.rat
  simp only [zpow_add₀ (show (2 : ℚ) ≠ 0 by norm_num)]
  cases a.neg <;> cases b.neg <;> simp <;> ring

/-- The sign of the exact product. -/
theorem exactProduct_neg (a b : Exact) :
    (exactProduct a b).neg = true ↔
      if a.rat * b.rat = 0 then (a.neg != b.neg) = true else a.rat * b.rat < 0 := by
  have hz : a.rat * b.rat = 0 ↔ a.m = 0 ∨ b.m = 0 := by rw [mul_eq_zero, a.rat_eq_zero, b.rat_eq_zero]
  change (a.neg != b.neg) = true ↔ _
  split
  · rfl
  · rename_i h
    rw [hz, not_or] at h
    have pos : ∀ v : Exact, v.m ≠ 0 → (0 < v.rat ↔ v.neg = false) := fun v hv => by
      have := v.rat_neg
      rw [lt_iff_not_ge, le_iff_lt_or_eq, this, v.rat_eq_zero]
      simp [hv]
    rw [mul_neg_iff, a.rat_neg, b.rat_neg, pos a h.1, pos b h.2]
    cases a.neg <;> cases b.neg <;> simp [h.1, h.2]

/-! ## Quotients and roots -/

/-- A number below `2^(p+1)` times a power of 2 that is at least `2^(p+2)` is a whole number. -/
theorem whole_of_large {p n : Nat} {k : Int} (hn : n < 2 ^ (p + 1)) (h : (2 : ℚ) ^ (p + 2) ≤ n * 2 ^ k) :
    ∃ t : Nat, (n : ℚ) * 2 ^ k = t := by
  rcases lt_or_ge k 0 with hk | hk
  · exfalso
    have h1 : (n : ℚ) < 2 ^ (p + 1) := by exact_mod_cast hn
    have h2 : (2 : ℚ) ^ k ≤ 1 := zpow_le_one_of_nonpos₀ (by norm_num) hk.le
    have h3 : (2 : ℚ) ^ (p + 1) ≤ 2 ^ (p + 2) := pow_le_pow_right₀ (by norm_num) (by omega)
    have h4 : (n : ℚ) * 2 ^ k ≤ n := mul_le_of_le_one_right (by positivity) h2
    linarith
  · refine ⟨n * 2 ^ k.toNat, ?_⟩
    push_cast
    rw [← zpow_natCast, Int.toNat_of_nonneg hk]

/-- Where `z` units and `exact` tell whether a number of units lies at `z` or above it, the units with one more low bit lie
as the number does among the numbers of p + 1 bits. -/
theorem sticky_among {p z n : Nat} {k : Int} {r : ℚ} {exact : Prop} [Decidable exact] (hz : 2 ^ (p + 2) ≤ z)
    (he : exact → r = z) (hl : (z : ℚ) ≤ r) (hu : r < z + 1) (hx : ¬exact → (z : ℚ) < r) (hn : n < 2 ^ (p + 1)) :
    (((2 * z + if exact then 0 else 1 : Nat) : ℚ) / 2 < n * 2 ^ k ↔ r < n * 2 ^ k) ∧
      ((n : ℚ) * 2 ^ k < ((2 * z + if exact then 0 else 1 : Nat) : ℚ) / 2 ↔ n * 2 ^ k < r) := by
  have hv : (z : ℚ) ≤ ((2 * z + if exact then 0 else 1 : Nat) : ℚ) / 2 := by push_cast; split <;> linarith
  rcases lt_or_ge ((n : ℚ) * 2 ^ k) (2 ^ (p + 2)) with h | h
  · have hz' : (2 : ℚ) ^ (p + 2) ≤ z := by exact_mod_cast hz
    exact ⟨⟨fun _ => by linarith, fun _ => by linarith⟩, ⟨fun _ => by linarith, fun _ => by linarith⟩⟩
  · obtain ⟨t, ht⟩ := whole_of_large hn h
    rw [ht]
    by_cases hex : exact
    · rw [he hex, if_pos hex]
      push_cast
      constructor <;> constructor <;> intro _ <;> linarith
    · have := hx hex
      rw [if_neg hex]
      push_cast
      rcases Nat.lt_or_ge z t with h1 | h1
      · have h2 : (z : ℚ) + 1 ≤ t := by exact_mod_cast h1
        constructor <;> constructor <;> intro _ <;> linarith
      · have h2 : (t : ℚ) ≤ z := by exact_mod_cast h1
        constructor <;> constructor <;> intro _ <;> linarith

/-- The quotient that is rounded lies as the exact one does among the numbers of p + 1 bits (R642). -/
theorem quotient_among (p : Nat) (a b : Exact) (hb : b.m ≠ 0) {n : Nat} {k : Int} (hn : n < 2 ^ (p + 1)) :
    (|(quotient p a b).rat| < n * 2 ^ k ↔ |a.rat / b.rat| < n * 2 ^ k) ∧
      ((n : ℚ) * 2 ^ k < |(quotient p a b).rat| ↔ n * 2 ^ k < |a.rat / b.rat|) := by
  by_cases ha : a.m = 0
  · have h1 : (quotient p a b).rat = 0 := by rw [Exact.rat_eq_zero]; simp [quotient, ha]
    have h2 : a.rat = 0 := a.rat_eq_zero.mpr ha
    simp [h1, h2]
  have hB : 0 < b.m := Nat.pos_of_ne_zero hb
  generalize hj : p + b.m.log2 + 3 = j
  generalize hN : a.m * 2 ^ j = N
  have hz : 2 ^ (p + 2) ≤ N / b.m := by
    rw [Nat.le_div_iff_mul_le hB, ← hN, ← hj]
    calc 2 ^ (p + 2) * b.m ≤ 2 ^ (p + 2) * 2 ^ (b.m.log2 + 1) := Nat.mul_le_mul_left _ Nat.lt_log2_self.le
      _ = 1 * 2 ^ (p + b.m.log2 + 3) := by rw [← Nat.pow_add, one_mul]; congr 1; omega
      _ ≤ a.m * 2 ^ (p + b.m.log2 + 3) := Nat.mul_le_mul_right _ (Nat.pos_of_ne_zero ha)
  have hBq : (0 : ℚ) < b.m := by exact_mod_cast hB
  have hdm : ((N / b.m : Nat) : ℚ) * b.m + (N % b.m : Nat) = N := by exact_mod_cast Nat.div_add_mod' N b.m
  have hu : (0 : ℚ) < 2 ^ (a.e - b.e - (j : Int)) := by positivity
  have hv : |(quotient p a b).rat| =
      ((2 * (N / b.m) + if N % b.m = 0 then 0 else 1 : Nat) : ℚ) / 2 * 2 ^ (a.e - b.e - (j : Int)) := by
    rw [Exact.abs_rat]
    simp only [quotient, hj, hN]
    rw [zpow_sub_one₀ (by norm_num)]
    ring
  have hq : |a.rat / b.rat| = (N : ℚ) / b.m * 2 ^ (a.e - b.e - (j : Int)) := by
    rw [abs_div, Exact.abs_rat, Exact.abs_rat, ← hN, zpow_sub₀ (by norm_num), zpow_sub₀ (by norm_num), zpow_natCast]
    push_cast
    field_simp
  have ht : (n : ℚ) * 2 ^ k = n * 2 ^ (k - (a.e - b.e - (j : Int))) * 2 ^ (a.e - b.e - (j : Int)) := by
    rw [mul_assoc, ← zpow_add₀ (by norm_num)]
    congr 2
    omega
  rw [hv, hq, ht, mul_lt_mul_iff_left₀ hu, mul_lt_mul_iff_left₀ hu, mul_lt_mul_iff_left₀ hu, mul_lt_mul_iff_left₀ hu]
  refine sticky_among (exact := N % b.m = 0) hz (fun h => ?_) ?_ ?_ (fun h => ?_) hn
  · rw [div_eq_iff hBq.ne', ← hdm, h]; simp
  · rw [le_div_iff₀ hBq]; have : (0 : ℚ) ≤ (N % b.m : Nat) := by positivity
    linarith
  · rw [div_lt_iff₀ hBq]; have : ((N % b.m : Nat) : ℚ) < b.m := by exact_mod_cast Nat.mod_lt N hB
    linarith
  · rw [lt_div_iff₀ hBq]; have : (0 : ℚ) < (N % b.m : Nat) := by exact_mod_cast Nat.pos_of_ne_zero h
    linarith

/-- The bits tried from `2^i` down find the integer square root above `r`. -/
theorem isqrtFrom_spec (n : Nat) : ∀ i r, r * r ≤ n → n < (r + 2 ^ i) * (r + 2 ^ i) →
    isqrtFrom n i r * isqrtFrom n i r ≤ n ∧ n < (isqrtFrom n i r + 1) * (isqrtFrom n i r + 1)
  | 0, _, h1, h2 => ⟨h1, h2⟩
  | i + 1, r, h1, h2 => by
    unfold isqrtFrom
    split
    · rename_i h
      exact isqrtFrom_spec n i _ h (by rw [Nat.pow_succ] at h2; rwa [show r + 2 ^ i + 2 ^ i = r + 2 ^ i * 2 by omega])
    · rename_i h
      exact isqrtFrom_spec n i _ h1 (Nat.lt_of_not_le h)

/-- The integer square root. -/
theorem isqrt_spec (n : Nat) : isqrt n * isqrt n ≤ n ∧ n < (isqrt n + 1) * (isqrt n + 1) := by
  refine isqrtFrom_spec n _ 0 (Nat.zero_le n) ?_
  rw [Nat.zero_add, ← Nat.pow_add]
  exact Nat.lt_of_lt_of_le Nat.lt_log2_self (Nat.pow_le_pow_right (by norm_num) (by omega))

/-- The root that is rounded lies among the numbers of p + 1 bits as the root does, whose square is the operand (R672). -/
theorem root_among (p : Nat) (a : Exact) (ha : a.m ≠ 0) (hs : a.neg = false) {n : Nat} {k : Int} (hn : n < 2 ^ (p + 1)) :
    ((root p a).rat < n * 2 ^ k ↔ a.rat < ((n : ℚ) * 2 ^ k) ^ 2) ∧
      ((n : ℚ) * 2 ^ k < (root p a).rat ↔ ((n : ℚ) * 2 ^ k) ^ 2 < a.rat) := by
  generalize hN : a.m * 2 ^ (2 * (p + 2) + if a.e % 2 = 1 then 1 else 0) = N
  generalize hj : (if a.e % 2 = 1 then a.e - 1 else a.e) / 2 - ((p : Int) + 2) = j
  obtain ⟨hlo, hhi⟩ := isqrt_spec N
  have hz : 2 ^ (p + 2) ≤ isqrt N := by
    by_contra h
    have h1 : isqrt N + 1 ≤ 2 ^ (p + 2) := by omega
    have h2 : N < 2 ^ (p + 2) * 2 ^ (p + 2) := Nat.lt_of_lt_of_le hhi (Nat.mul_le_mul h1 h1)
    rw [← Nat.pow_add] at h2
    have h3 : 2 ^ (p + 2 + (p + 2)) ≤ N := by
      rw [← hN]
      calc 2 ^ (p + 2 + (p + 2)) ≤ 2 ^ (2 * (p + 2) + if a.e % 2 = 1 then 1 else 0) :=
            Nat.pow_le_pow_right (by norm_num) (by omega)
        _ ≤ _ := Nat.le_mul_of_pos_left _ (Nat.pos_of_ne_zero ha)
    omega
  have hv : (root p a).rat = ((2 * isqrt N + if isqrt N * isqrt N = N then 0 else 1 : Nat) : ℚ) / 2 * 2 ^ j := by
    have h1 : root p a = ⟨false, 2 * isqrt N + (if isqrt N * isqrt N = N then 0 else 1), j - 1⟩ := by
      rw [← hN, ← hj]; rfl
    rw [h1]
    unfold Exact.rat
    rw [zpow_sub_one₀ (by norm_num)]
    simp only [Bool.false_eq_true, if_false]
    ring
  have hr : a.rat = N * ((2 : ℚ) ^ j) ^ 2 := by
    unfold Exact.rat
    rw [hs, ← hN, ← zpow_natCast, ← zpow_mul]
    push_cast
    simp only [one_mul]
    rw [mul_assoc, ← zpow_natCast, ← zpow_add₀ (by norm_num)]
    congr 2
    rw [← hj]
    push_cast
    split <;> omega
  have hu : (0 : ℚ) < 2 ^ j := by positivity
  have ht : (n : ℚ) * 2 ^ k = n * 2 ^ (k - j) * 2 ^ j := by
    rw [mul_assoc, ← zpow_add₀ (by norm_num)]
    congr 2
    omega
  rw [hv, hr, ht, mul_pow, mul_lt_mul_iff_left₀ hu, mul_lt_mul_iff_left₀ hu, mul_lt_mul_iff_left₀ (by positivity),
    mul_lt_mul_iff_left₀ (by positivity)]
  have hloq : (isqrt N : ℚ) * isqrt N ≤ N := by exact_mod_cast hlo
  have hhiq : (N : ℚ) < (isqrt N + 1) * (isqrt N + 1) := by exact_mod_cast hhi
  have hzq : (2 : ℚ) ^ (p + 2) ≤ isqrt N := by exact_mod_cast hz
  have hvz : (isqrt N : ℚ) ≤ ((2 * isqrt N + if isqrt N * isqrt N = N then 0 else 1 : Nat) : ℚ) / 2 := by
    push_cast; split <;> linarith
  have ht0 : (0 : ℚ) ≤ n * 2 ^ (k - j) := by positivity
  rcases lt_or_ge ((n : ℚ) * 2 ^ (k - j)) (2 ^ (p + 2)) with h | h
  · have h1 : ((n : ℚ) * 2 ^ (k - j)) ^ 2 < N := by nlinarith
    exact ⟨⟨fun _ => by linarith, fun _ => by linarith⟩, ⟨fun _ => h1, fun _ => by linarith⟩⟩
  · obtain ⟨t, ht⟩ := whole_of_large hn h
    rw [ht]
    by_cases hex : isqrt N * isqrt N = N
    · rw [if_pos hex]
      have h1 : (N : ℚ) = isqrt N ^ 2 := by rw [sq]; exact_mod_cast hex.symm
      have h2 : ((2 * isqrt N + 0 : Nat) : ℚ) / 2 = isqrt N := by push_cast; ring
      rw [h1, h2, sq_lt_sq₀ (by positivity) (by positivity), sq_lt_sq₀ (by positivity) (by positivity)]
      exact ⟨Iff.rfl, Iff.rfl⟩
    · have h1 : (isqrt N : ℚ) ^ 2 < N := by
        rw [sq]; exact_mod_cast lt_of_le_of_ne hlo hex
      rw [if_neg hex]
      push_cast
      rcases Nat.lt_or_ge (isqrt N) t with h2 | h2
      · have h3 : (isqrt N : ℚ) + 1 ≤ t := by exact_mod_cast h2
        have h4 : (N : ℚ) < (t : ℚ) ^ 2 := by nlinarith
        exact ⟨⟨fun _ => h4, fun _ => by linarith⟩, ⟨fun _ => by linarith, fun _ => by linarith⟩⟩
      · have h3 : (t : ℚ) ≤ isqrt N := by exact_mod_cast h2
        have h4 : (t : ℚ) ^ 2 < N := by nlinarith [show (0 : ℚ) ≤ t by positivity]
        exact ⟨⟨fun _ => by linarith, fun _ => by linarith⟩, ⟨fun _ => h4, fun _ => by linarith⟩⟩

end Sys2Proof.Machine
end

