-- ==== Sys2Proof/Laws/PerInstr.lean ====
section
/-! SUPPORT. Per instruction: its word has the fixed bits of a row of the opcode table, and that row builds the
instruction again from the word's fields. -/

namespace Sys2Proof.Laws

/-- The word of a well-formed instruction matches a row of the opcode table, which reads back every operand. -/
def Layout.Statement (i : Instr) : Prop :=
  i.wf = true → ∃ (k : Nat) (r : Row), opcodeRows[k]? = some r ∧ r.hits (encode i) = true ∧ r.build (encode i) = i

theorem Layout.cloW (rd rj) : Layout.Statement (.cloW rd rj) := fun _ =>
  ⟨_, _, row_in1 (k := 0) rfl, hits_of_key (enc2R_key 0x4#22 rj rd) rfl,
    app2 Instr.cloW (enc2R_f2 0x4#22 rj rd) (enc2R_f1 0x4#22 rj rd)⟩

theorem Layout.clzW (rd rj) : Layout.Statement (.clzW rd rj) := fun _ =>
  ⟨_, _, row_in1 (k := 1) rfl, hits_of_key (enc2R_key 0x5#22 rj rd) rfl,
    app2 Instr.clzW (enc2R_f2 0x5#22 rj rd) (enc2R_f1 0x5#22 rj rd)⟩

theorem Layout.ctoW (rd rj) : Layout.Statement (.ctoW rd rj) := fun _ =>
  ⟨_, _, row_in1 (k := 2) rfl, hits_of_key (enc2R_key 0x6#22 rj rd) rfl,
    app2 Instr.ctoW (enc2R_f2 0x6#22 rj rd) (enc2R_f1 0x6#22 rj rd)⟩

theorem Layout.ctzW (rd rj) : Layout.Statement (.ctzW rd rj) := fun _ =>
  ⟨_, _, row_in1 (k := 3) rfl, hits_of_key (enc2R_key 0x7#22 rj rd) rfl,
    app2 Instr.ctzW (enc2R_f2 0x7#22 rj rd) (enc2R_f1 0x7#22 rj rd)⟩

theorem Layout.cloD (rd rj) : Layout.Statement (.cloD rd rj) := fun _ =>
  ⟨_, _, row_in1 (k := 4) rfl, hits_of_key (enc2R_key 0x8#22 rj rd) rfl,
    app2 Instr.cloD (enc2R_f2 0x8#22 rj rd) (enc2R_f1 0x8#22 rj rd)⟩

theorem Layout.clzD (rd rj) : Layout.Statement (.clzD rd rj) := fun _ =>
  ⟨_, _, row_in1 (k := 5) rfl, hits_of_key (enc2R_key 0x9#22 rj rd) rfl,
    app2 Instr.clzD (enc2R_f2 0x9#22 rj rd) (enc2R_f1 0x9#22 rj rd)⟩

theorem Layout.ctoD (rd rj) : Layout.Statement (.ctoD rd rj) := fun _ =>
  ⟨_, _, row_in1 (k := 6) rfl, hits_of_key (enc2R_key 0xa#22 rj rd) rfl,
    app2 Instr.ctoD (enc2R_f2 0xa#22 rj rd) (enc2R_f1 0xa#22 rj rd)⟩

theorem Layout.ctzD (rd rj) : Layout.Statement (.ctzD rd rj) := fun _ =>
  ⟨_, _, row_in1 (k := 7) rfl, hits_of_key (enc2R_key 0xb#22 rj rd) rfl,
    app2 Instr.ctzD (enc2R_f2 0xb#22 rj rd) (enc2R_f1 0xb#22 rj rd)⟩

theorem Layout.revb2H (rd rj) : Layout.Statement (.revb2H rd rj) := fun _ =>
  ⟨_, _, row_in1 (k := 8) rfl, hits_of_key (enc2R_key 0xc#22 rj rd) rfl,
    app2 Instr.revb2H (enc2R_f2 0xc#22 rj rd) (enc2R_f1 0xc#22 rj rd)⟩

theorem Layout.revb4H (rd rj) : Layout.Statement (.revb4H rd rj) := fun _ =>
  ⟨_, _, row_in1 (k := 9) rfl, hits_of_key (enc2R_key 0xd#22 rj rd) rfl,
    app2 Instr.revb4H (enc2R_f2 0xd#22 rj rd) (enc2R_f1 0xd#22 rj rd)⟩

theorem Layout.revb2W (rd rj) : Layout.Statement (.revb2W rd rj) := fun _ =>
  ⟨_, _, row_in1 (k := 10) rfl, hits_of_key (enc2R_key 0xe#22 rj rd) rfl,
    app2 Instr.revb2W (enc2R_f2 0xe#22 rj rd) (enc2R_f1 0xe#22 rj rd)⟩

theorem Layout.revbD (rd rj) : Layout.Statement (.revbD rd rj) := fun _ =>
  ⟨_, _, row_in1 (k := 11) rfl, hits_of_key (enc2R_key 0xf#22 rj rd) rfl,
    app2 Instr.revbD (enc2R_f2 0xf#22 rj rd) (enc2R_f1 0xf#22 rj rd)⟩

theorem Layout.revh2W (rd rj) : Layout.Statement (.revh2W rd rj) := fun _ =>
  ⟨_, _, row_in1 (k := 12) rfl, hits_of_key (enc2R_key 0x10#22 rj rd) rfl,
    app2 Instr.revh2W (enc2R_f2 0x10#22 rj rd) (enc2R_f1 0x10#22 rj rd)⟩

theorem Layout.revhD (rd rj) : Layout.Statement (.revhD rd rj) := fun _ =>
  ⟨_, _, row_in1 (k := 13) rfl, hits_of_key (enc2R_key 0x11#22 rj rd) rfl,
    app2 Instr.revhD (enc2R_f2 0x11#22 rj rd) (enc2R_f1 0x11#22 rj rd)⟩

theorem Layout.bitrev4B (rd rj) : Layout.Statement (.bitrev4B rd rj) := fun _ =>
  ⟨_, _, row_in1 (k := 14) rfl, hits_of_key (enc2R_key 0x12#22 rj rd) rfl,
    app2 Instr.bitrev4B (enc2R_f2 0x12#22 rj rd) (enc2R_f1 0x12#22 rj rd)⟩

theorem Layout.bitrev8B (rd rj) : Layout.Statement (.bitrev8B rd rj) := fun _ =>
  ⟨_, _, row_in1 (k := 15) rfl, hits_of_key (enc2R_key 0x13#22 rj rd) rfl,
    app2 Instr.bitrev8B (enc2R_f2 0x13#22 rj rd) (enc2R_f1 0x13#22 rj rd)⟩

theorem Layout.bitrevW (rd rj) : Layout.Statement (.bitrevW rd rj) := fun _ =>
  ⟨_, _, row_in1 (k := 16) rfl, hits_of_key (enc2R_key 0x14#22 rj rd) rfl,
    app2 Instr.bitrevW (enc2R_f2 0x14#22 rj rd) (enc2R_f1 0x14#22 rj rd)⟩

theorem Layout.bitrevD (rd rj) : Layout.Statement (.bitrevD rd rj) := fun _ =>
  ⟨_, _, row_in1 (k := 17) rfl, hits_of_key (enc2R_key 0x15#22 rj rd) rfl,
    app2 Instr.bitrevD (enc2R_f2 0x15#22 rj rd) (enc2R_f1 0x15#22 rj rd)⟩

theorem Layout.extWH (rd rj) : Layout.Statement (.extWH rd rj) := fun _ =>
  ⟨_, _, row_in1 (k := 18) rfl, hits_of_key (enc2R_key 0x16#22 rj rd) rfl,
    app2 Instr.extWH (enc2R_f2 0x16#22 rj rd) (enc2R_f1 0x16#22 rj rd)⟩

theorem Layout.extWB (rd rj) : Layout.Statement (.extWB rd rj) := fun _ =>
  ⟨_, _, row_in1 (k := 19) rfl, hits_of_key (enc2R_key 0x17#22 rj rd) rfl,
    app2 Instr.extWB (enc2R_f2 0x17#22 rj rd) (enc2R_f1 0x17#22 rj rd)⟩

theorem Layout.rdtimelW (rd rj) : Layout.Statement (.rdtimelW rd rj) := fun _ =>
  ⟨_, _, row_in1 (k := 20) rfl, hits_of_key (enc2R_key 0x18#22 rj rd) rfl,
    app2 Instr.rdtimelW (enc2R_f2 0x18#22 rj rd) (enc2R_f1 0x18#22 rj rd)⟩

theorem Layout.rdtimehW (rd rj) : Layout.Statement (.rdtimehW rd rj) := fun _ =>
  ⟨_, _, row_in1 (k := 21) rfl, hits_of_key (enc2R_key 0x19#22 rj rd) rfl,
    app2 Instr.rdtimehW (enc2R_f2 0x19#22 rj rd) (enc2R_f1 0x19#22 rj rd)⟩

theorem Layout.rdtimeD (rd rj) : Layout.Statement (.rdtimeD rd rj) := fun _ =>
  ⟨_, _, row_in1 (k := 22) rfl, hits_of_key (enc2R_key 0x1a#22 rj rd) rfl,
    app2 Instr.rdtimeD (enc2R_f2 0x1a#22 rj rd) (enc2R_f1 0x1a#22 rj rd)⟩

theorem Layout.cpucfg (rd rj) : Layout.Statement (.cpucfg rd rj) := fun _ =>
  ⟨_, _, row_in1 (k := 23) rfl, hits_of_key (enc2R_key 0x1b#22 rj rd) rfl,
    app2 Instr.cpucfg (enc2R_f2 0x1b#22 rj rd) (enc2R_f1 0x1b#22 rj rd)⟩

theorem Layout.asrtleD (rj rk) : Layout.Statement (.asrtleD rj rk) := fun _ =>
  ⟨_, _, row_in1 (k := 24) rfl, hits_of_key (encAsrt_key 0x2#17 rk rj) rfl,
    app2 Instr.asrtleD (encAsrt_f2 0x2#17 rk rj) (encAsrt_f1 0x2#17 rk rj)⟩

theorem Layout.asrtgtD (rj rk) : Layout.Statement (.asrtgtD rj rk) := fun _ =>
  ⟨_, _, row_in1 (k := 25) rfl, hits_of_key (encAsrt_key 0x3#17 rk rj) rfl,
    app2 Instr.asrtgtD (encAsrt_f2 0x3#17 rk rj) (encAsrt_f1 0x3#17 rk rj)⟩

theorem Layout.alslW (rd rj rk sa2) : Layout.Statement (.alslW rd rj rk sa2) := fun _ =>
  ⟨_, _, row_in1 (k := 26) rfl, hits_of_key (enc3RSA2_key 0x2#15 sa2 rk rj rd) rfl,
    app4 Instr.alslW (enc3RSA2_f4 0x2#15 sa2 rk rj rd) (enc3RSA2_f3 0x2#15 sa2 rk rj rd)
      (enc3RSA2_f2 0x2#15 sa2 rk rj rd) (enc3RSA2_f1 0x2#15 sa2 rk rj rd)⟩

theorem Layout.alslWu (rd rj rk sa2) : Layout.Statement (.alslWu rd rj rk sa2) := fun _ =>
  ⟨_, _, row_in1 (k := 27) rfl, hits_of_key (enc3RSA2_key 0x3#15 sa2 rk rj rd) rfl,
    app4 Instr.alslWu (enc3RSA2_f4 0x3#15 sa2 rk rj rd) (enc3RSA2_f3 0x3#15 sa2 rk rj rd)
      (enc3RSA2_f2 0x3#15 sa2 rk rj rd) (enc3RSA2_f1 0x3#15 sa2 rk rj rd)⟩

theorem Layout.bytepickW (rd rj rk sa2) : Layout.Statement (.bytepickW rd rj rk sa2) := fun _ =>
  ⟨_, _, row_in1 (k := 28) rfl, hits_of_key (enc3RSA2_key 0x4#15 sa2 rk rj rd) rfl,
    app4 Instr.bytepickW (enc3RSA2_f4 0x4#15 sa2 rk rj rd) (enc3RSA2_f3 0x4#15 sa2 rk rj rd)
      (enc3RSA2_f2 0x4#15 sa2 rk rj rd) (enc3RSA2_f1 0x4#15 sa2 rk rj rd)⟩

theorem Layout.bytepickD (rd rj rk sa3) : Layout.Statement (.bytepickD rd rj rk sa3) := fun _ =>
  ⟨_, _, row_in1 (k := 29) rfl, hits_of_key (enc3RSA3_key 0x3#14 sa3 rk rj rd) rfl,
    app4 Instr.bytepickD (enc3RSA3_f4 0x3#14 sa3 rk rj rd) (enc3RSA3_f3 0x3#14 sa3 rk rj rd)
      (enc3RSA3_f2 0x3#14 sa3 rk rj rd) (enc3RSA3_f1 0x3#14 sa3 rk rj rd)⟩

theorem Layout.addW (rd rj rk) : Layout.Statement (.addW rd rj rk) := fun _ =>
  ⟨_, _, row_in1 (k := 30) rfl, hits_of_key (enc3R_key 0x20#17 rk rj rd) rfl,
    app3 Instr.addW (enc3R_f3 0x20#17 rk rj rd) (enc3R_f2 0x20#17 rk rj rd) (enc3R_f1 0x20#17 rk rj rd)⟩

theorem Layout.addD (rd rj rk) : Layout.Statement (.addD rd rj rk) := fun _ =>
  ⟨_, _, row_in1 (k := 31) rfl, hits_of_key (enc3R_key 0x21#17 rk rj rd) rfl,
    app3 Instr.addD (enc3R_f3 0x21#17 rk rj rd) (enc3R_f2 0x21#17 rk rj rd) (enc3R_f1 0x21#17 rk rj rd)⟩

theorem Layout.subW (rd rj rk) : Layout.Statement (.subW rd rj rk) := fun _ =>
  ⟨_, _, row_in1 (k := 32) rfl, hits_of_key (enc3R_key 0x22#17 rk rj rd) rfl,
    app3 Instr.subW (enc3R_f3 0x22#17 rk rj rd) (enc3R_f2 0x22#17 rk rj rd) (enc3R_f1 0x22#17 rk rj rd)⟩

theorem Layout.subD (rd rj rk) : Layout.Statement (.subD rd rj rk) := fun _ =>
  ⟨_, _, row_in1 (k := 33) rfl, hits_of_key (enc3R_key 0x23#17 rk rj rd) rfl,
    app3 Instr.subD (enc3R_f3 0x23#17 rk rj rd) (enc3R_f2 0x23#17 rk rj rd) (enc3R_f1 0x23#17 rk rj rd)⟩

theorem Layout.slt (rd rj rk) : Layout.Statement (.slt rd rj rk) := fun _ =>
  ⟨_, _, row_in1 (k := 34) rfl, hits_of_key (enc3R_key 0x24#17 rk rj rd) rfl,
    app3 Instr.slt (enc3R_f3 0x24#17 rk rj rd) (enc3R_f2 0x24#17 rk rj rd) (enc3R_f1 0x24#17 rk rj rd)⟩

theorem Layout.sltu (rd rj rk) : Layout.Statement (.sltu rd rj rk) := fun _ =>
  ⟨_, _, row_in1 (k := 35) rfl, hits_of_key (enc3R_key 0x25#17 rk rj rd) rfl,
    app3 Instr.sltu (enc3R_f3 0x25#17 rk rj rd) (enc3R_f2 0x25#17 rk rj rd) (enc3R_f1 0x25#17 rk rj rd)⟩

theorem Layout.maskeqz (rd rj rk) : Layout.Statement (.maskeqz rd rj rk) := fun _ =>
  ⟨_, _, row_in1 (k := 36) rfl, hits_of_key (enc3R_key 0x26#17 rk rj rd) rfl,
    app3 Instr.maskeqz (enc3R_f3 0x26#17 rk rj rd) (enc3R_f2 0x26#17 rk rj rd) (enc3R_f1 0x26#17 rk rj rd)⟩

theorem Layout.masknez (rd rj rk) : Layout.Statement (.masknez rd rj rk) := fun _ =>
  ⟨_, _, row_in1 (k := 37) rfl, hits_of_key (enc3R_key 0x27#17 rk rj rd) rfl,
    app3 Instr.masknez (enc3R_f3 0x27#17 rk rj rd) (enc3R_f2 0x27#17 rk rj rd) (enc3R_f1 0x27#17 rk rj rd)⟩

theorem Layout.nor (rd rj rk) : Layout.Statement (.nor rd rj rk) := fun _ =>
  ⟨_, _, row_in1 (k := 38) rfl, hits_of_key (enc3R_key 0x28#17 rk rj rd) rfl,
    app3 Instr.nor (enc3R_f3 0x28#17 rk rj rd) (enc3R_f2 0x28#17 rk rj rd) (enc3R_f1 0x28#17 rk rj rd)⟩

theorem Layout.and (rd rj rk) : Layout.Statement (.and rd rj rk) := fun _ =>
  ⟨_, _, row_in1 (k := 39) rfl, hits_of_key (enc3R_key 0x29#17 rk rj rd) rfl,
    app3 Instr.and (enc3R_f3 0x29#17 rk rj rd) (enc3R_f2 0x29#17 rk rj rd) (enc3R_f1 0x29#17 rk rj rd)⟩

theorem Layout.or (rd rj rk) : Layout.Statement (.or rd rj rk) := fun _ =>
  ⟨_, _, row_in1 (k := 40) rfl, hits_of_key (enc3R_key 0x2a#17 rk rj rd) rfl,
    app3 Instr.or (enc3R_f3 0x2a#17 rk rj rd) (enc3R_f2 0x2a#17 rk rj rd) (enc3R_f1 0x2a#17 rk rj rd)⟩

theorem Layout.xor (rd rj rk) : Layout.Statement (.xor rd rj rk) := fun _ =>
  ⟨_, _, row_in1 (k := 41) rfl, hits_of_key (enc3R_key 0x2b#17 rk rj rd) rfl,
    app3 Instr.xor (enc3R_f3 0x2b#17 rk rj rd) (enc3R_f2 0x2b#17 rk rj rd) (enc3R_f1 0x2b#17 rk rj rd)⟩

theorem Layout.orn (rd rj rk) : Layout.Statement (.orn rd rj rk) := fun _ =>
  ⟨_, _, row_in1 (k := 42) rfl, hits_of_key (enc3R_key 0x2c#17 rk rj rd) rfl,
    app3 Instr.orn (enc3R_f3 0x2c#17 rk rj rd) (enc3R_f2 0x2c#17 rk rj rd) (enc3R_f1 0x2c#17 rk rj rd)⟩

theorem Layout.andn (rd rj rk) : Layout.Statement (.andn rd rj rk) := fun _ =>
  ⟨_, _, row_in1 (k := 43) rfl, hits_of_key (enc3R_key 0x2d#17 rk rj rd) rfl,
    app3 Instr.andn (enc3R_f3 0x2d#17 rk rj rd) (enc3R_f2 0x2d#17 rk rj rd) (enc3R_f1 0x2d#17 rk rj rd)⟩

theorem Layout.sllW (rd rj rk) : Layout.Statement (.sllW rd rj rk) := fun _ =>
  ⟨_, _, row_in1 (k := 44) rfl, hits_of_key (enc3R_key 0x2e#17 rk rj rd) rfl,
    app3 Instr.sllW (enc3R_f3 0x2e#17 rk rj rd) (enc3R_f2 0x2e#17 rk rj rd) (enc3R_f1 0x2e#17 rk rj rd)⟩

theorem Layout.srlW (rd rj rk) : Layout.Statement (.srlW rd rj rk) := fun _ =>
  ⟨_, _, row_in1 (k := 45) rfl, hits_of_key (enc3R_key 0x2f#17 rk rj rd) rfl,
    app3 Instr.srlW (enc3R_f3 0x2f#17 rk rj rd) (enc3R_f2 0x2f#17 rk rj rd) (enc3R_f1 0x2f#17 rk rj rd)⟩

theorem Layout.sraW (rd rj rk) : Layout.Statement (.sraW rd rj rk) := fun _ =>
  ⟨_, _, row_in1 (k := 46) rfl, hits_of_key (enc3R_key 0x30#17 rk rj rd) rfl,
    app3 Instr.sraW (enc3R_f3 0x30#17 rk rj rd) (enc3R_f2 0x30#17 rk rj rd) (enc3R_f1 0x30#17 rk rj rd)⟩

theorem Layout.sllD (rd rj rk) : Layout.Statement (.sllD rd rj rk) := fun _ =>
  ⟨_, _, row_in1 (k := 47) rfl, hits_of_key (enc3R_key 0x31#17 rk rj rd) rfl,
    app3 Instr.sllD (enc3R_f3 0x31#17 rk rj rd) (enc3R_f2 0x31#17 rk rj rd) (enc3R_f1 0x31#17 rk rj rd)⟩

theorem Layout.srlD (rd rj rk) : Layout.Statement (.srlD rd rj rk) := fun _ =>
  ⟨_, _, row_in1 (k := 48) rfl, hits_of_key (enc3R_key 0x32#17 rk rj rd) rfl,
    app3 Instr.srlD (enc3R_f3 0x32#17 rk rj rd) (enc3R_f2 0x32#17 rk rj rd) (enc3R_f1 0x32#17 rk rj rd)⟩

theorem Layout.sraD (rd rj rk) : Layout.Statement (.sraD rd rj rk) := fun _ =>
  ⟨_, _, row_in1 (k := 49) rfl, hits_of_key (enc3R_key 0x33#17 rk rj rd) rfl,
    app3 Instr.sraD (enc3R_f3 0x33#17 rk rj rd) (enc3R_f2 0x33#17 rk rj rd) (enc3R_f1 0x33#17 rk rj rd)⟩

theorem Layout.rotrW (rd rj rk) : Layout.Statement (.rotrW rd rj rk) := fun _ =>
  ⟨_, _, row_in2 (k := 0) rfl, hits_of_key (enc3R_key 0x36#17 rk rj rd) rfl,
    app3 Instr.rotrW (enc3R_f3 0x36#17 rk rj rd) (enc3R_f2 0x36#17 rk rj rd) (enc3R_f1 0x36#17 rk rj rd)⟩

theorem Layout.rotrD (rd rj rk) : Layout.Statement (.rotrD rd rj rk) := fun _ =>
  ⟨_, _, row_in2 (k := 1) rfl, hits_of_key (enc3R_key 0x37#17 rk rj rd) rfl,
    app3 Instr.rotrD (enc3R_f3 0x37#17 rk rj rd) (enc3R_f2 0x37#17 rk rj rd) (enc3R_f1 0x37#17 rk rj rd)⟩

theorem Layout.mulW (rd rj rk) : Layout.Statement (.mulW rd rj rk) := fun _ =>
  ⟨_, _, row_in2 (k := 2) rfl, hits_of_key (enc3R_key 0x38#17 rk rj rd) rfl,
    app3 Instr.mulW (enc3R_f3 0x38#17 rk rj rd) (enc3R_f2 0x38#17 rk rj rd) (enc3R_f1 0x38#17 rk rj rd)⟩

theorem Layout.mulhW (rd rj rk) : Layout.Statement (.mulhW rd rj rk) := fun _ =>
  ⟨_, _, row_in2 (k := 3) rfl, hits_of_key (enc3R_key 0x39#17 rk rj rd) rfl,
    app3 Instr.mulhW (enc3R_f3 0x39#17 rk rj rd) (enc3R_f2 0x39#17 rk rj rd) (enc3R_f1 0x39#17 rk rj rd)⟩

theorem Layout.mulhWu (rd rj rk) : Layout.Statement (.mulhWu rd rj rk) := fun _ =>
  ⟨_, _, row_in2 (k := 4) rfl, hits_of_key (enc3R_key 0x3a#17 rk rj rd) rfl,
    app3 Instr.mulhWu (enc3R_f3 0x3a#17 rk rj rd) (enc3R_f2 0x3a#17 rk rj rd) (enc3R_f1 0x3a#17 rk rj rd)⟩

theorem Layout.mulD (rd rj rk) : Layout.Statement (.mulD rd rj rk) := fun _ =>
  ⟨_, _, row_in2 (k := 5) rfl, hits_of_key (enc3R_key 0x3b#17 rk rj rd) rfl,
    app3 Instr.mulD (enc3R_f3 0x3b#17 rk rj rd) (enc3R_f2 0x3b#17 rk rj rd) (enc3R_f1 0x3b#17 rk rj rd)⟩

theorem Layout.mulhD (rd rj rk) : Layout.Statement (.mulhD rd rj rk) := fun _ =>
  ⟨_, _, row_in2 (k := 6) rfl, hits_of_key (enc3R_key 0x3c#17 rk rj rd) rfl,
    app3 Instr.mulhD (enc3R_f3 0x3c#17 rk rj rd) (enc3R_f2 0x3c#17 rk rj rd) (enc3R_f1 0x3c#17 rk rj rd)⟩

theorem Layout.mulhDu (rd rj rk) : Layout.Statement (.mulhDu rd rj rk) := fun _ =>
  ⟨_, _, row_in2 (k := 7) rfl, hits_of_key (enc3R_key 0x3d#17 rk rj rd) rfl,
    app3 Instr.mulhDu (enc3R_f3 0x3d#17 rk rj rd) (enc3R_f2 0x3d#17 rk rj rd) (enc3R_f1 0x3d#17 rk rj rd)⟩

theorem Layout.mulwDW (rd rj rk) : Layout.Statement (.mulwDW rd rj rk) := fun _ =>
  ⟨_, _, row_in2 (k := 8) rfl, hits_of_key (enc3R_key 0x3e#17 rk rj rd) rfl,
    app3 Instr.mulwDW (enc3R_f3 0x3e#17 rk rj rd) (enc3R_f2 0x3e#17 rk rj rd) (enc3R_f1 0x3e#17 rk rj rd)⟩

theorem Layout.mulwDWu (rd rj rk) : Layout.Statement (.mulwDWu rd rj rk) := fun _ =>
  ⟨_, _, row_in2 (k := 9) rfl, hits_of_key (enc3R_key 0x3f#17 rk rj rd) rfl,
    app3 Instr.mulwDWu (enc3R_f3 0x3f#17 rk rj rd) (enc3R_f2 0x3f#17 rk rj rd) (enc3R_f1 0x3f#17 rk rj rd)⟩

theorem Layout.divW (rd rj rk) : Layout.Statement (.divW rd rj rk) := fun _ =>
  ⟨_, _, row_in2 (k := 10) rfl, hits_of_key (enc3R_key 0x40#17 rk rj rd) rfl,
    app3 Instr.divW (enc3R_f3 0x40#17 rk rj rd) (enc3R_f2 0x40#17 rk rj rd) (enc3R_f1 0x40#17 rk rj rd)⟩

theorem Layout.modW (rd rj rk) : Layout.Statement (.modW rd rj rk) := fun _ =>
  ⟨_, _, row_in2 (k := 11) rfl, hits_of_key (enc3R_key 0x41#17 rk rj rd) rfl,
    app3 Instr.modW (enc3R_f3 0x41#17 rk rj rd) (enc3R_f2 0x41#17 rk rj rd) (enc3R_f1 0x41#17 rk rj rd)⟩

theorem Layout.divWu (rd rj rk) : Layout.Statement (.divWu rd rj rk) := fun _ =>
  ⟨_, _, row_in2 (k := 12) rfl, hits_of_key (enc3R_key 0x42#17 rk rj rd) rfl,
    app3 Instr.divWu (enc3R_f3 0x42#17 rk rj rd) (enc3R_f2 0x42#17 rk rj rd) (enc3R_f1 0x42#17 rk rj rd)⟩

theorem Layout.modWu (rd rj rk) : Layout.Statement (.modWu rd rj rk) := fun _ =>
  ⟨_, _, row_in2 (k := 13) rfl, hits_of_key (enc3R_key 0x43#17 rk rj rd) rfl,
    app3 Instr.modWu (enc3R_f3 0x43#17 rk rj rd) (enc3R_f2 0x43#17 rk rj rd) (enc3R_f1 0x43#17 rk rj rd)⟩

theorem Layout.divD (rd rj rk) : Layout.Statement (.divD rd rj rk) := fun _ =>
  ⟨_, _, row_in2 (k := 14) rfl, hits_of_key (enc3R_key 0x44#17 rk rj rd) rfl,
    app3 Instr.divD (enc3R_f3 0x44#17 rk rj rd) (enc3R_f2 0x44#17 rk rj rd) (enc3R_f1 0x44#17 rk rj rd)⟩

theorem Layout.modD (rd rj rk) : Layout.Statement (.modD rd rj rk) := fun _ =>
  ⟨_, _, row_in2 (k := 15) rfl, hits_of_key (enc3R_key 0x45#17 rk rj rd) rfl,
    app3 Instr.modD (enc3R_f3 0x45#17 rk rj rd) (enc3R_f2 0x45#17 rk rj rd) (enc3R_f1 0x45#17 rk rj rd)⟩

theorem Layout.divDu (rd rj rk) : Layout.Statement (.divDu rd rj rk) := fun _ =>
  ⟨_, _, row_in2 (k := 16) rfl, hits_of_key (enc3R_key 0x46#17 rk rj rd) rfl,
    app3 Instr.divDu (enc3R_f3 0x46#17 rk rj rd) (enc3R_f2 0x46#17 rk rj rd) (enc3R_f1 0x46#17 rk rj rd)⟩

theorem Layout.modDu (rd rj rk) : Layout.Statement (.modDu rd rj rk) := fun _ =>
  ⟨_, _, row_in2 (k := 17) rfl, hits_of_key (enc3R_key 0x47#17 rk rj rd) rfl,
    app3 Instr.modDu (enc3R_f3 0x47#17 rk rj rd) (enc3R_f2 0x47#17 rk rj rd) (enc3R_f1 0x47#17 rk rj rd)⟩

theorem Layout.crcWBW (rd rj rk) : Layout.Statement (.crcWBW rd rj rk) := fun _ =>
  ⟨_, _, row_in2 (k := 18) rfl, hits_of_key (enc3R_key 0x48#17 rk rj rd) rfl,
    app3 Instr.crcWBW (enc3R_f3 0x48#17 rk rj rd) (enc3R_f2 0x48#17 rk rj rd) (enc3R_f1 0x48#17 rk rj rd)⟩

theorem Layout.crcWHW (rd rj rk) : Layout.Statement (.crcWHW rd rj rk) := fun _ =>
  ⟨_, _, row_in2 (k := 19) rfl, hits_of_key (enc3R_key 0x49#17 rk rj rd) rfl,
    app3 Instr.crcWHW (enc3R_f3 0x49#17 rk rj rd) (enc3R_f2 0x49#17 rk rj rd) (enc3R_f1 0x49#17 rk rj rd)⟩

theorem Layout.crcWWW (rd rj rk) : Layout.Statement (.crcWWW rd rj rk) := fun _ =>
  ⟨_, _, row_in2 (k := 20) rfl, hits_of_key (enc3R_key 0x4a#17 rk rj rd) rfl,
    app3 Instr.crcWWW (enc3R_f3 0x4a#17 rk rj rd) (enc3R_f2 0x4a#17 rk rj rd) (enc3R_f1 0x4a#17 rk rj rd)⟩

theorem Layout.crcWDW (rd rj rk) : Layout.Statement (.crcWDW rd rj rk) := fun _ =>
  ⟨_, _, row_in2 (k := 21) rfl, hits_of_key (enc3R_key 0x4b#17 rk rj rd) rfl,
    app3 Instr.crcWDW (enc3R_f3 0x4b#17 rk rj rd) (enc3R_f2 0x4b#17 rk rj rd) (enc3R_f1 0x4b#17 rk rj rd)⟩

theorem Layout.crccWBW (rd rj rk) : Layout.Statement (.crccWBW rd rj rk) := fun _ =>
  ⟨_, _, row_in2 (k := 22) rfl, hits_of_key (enc3R_key 0x4c#17 rk rj rd) rfl,
    app3 Instr.crccWBW (enc3R_f3 0x4c#17 rk rj rd) (enc3R_f2 0x4c#17 rk rj rd) (enc3R_f1 0x4c#17 rk rj rd)⟩

theorem Layout.crccWHW (rd rj rk) : Layout.Statement (.crccWHW rd rj rk) := fun _ =>
  ⟨_, _, row_in2 (k := 23) rfl, hits_of_key (enc3R_key 0x4d#17 rk rj rd) rfl,
    app3 Instr.crccWHW (enc3R_f3 0x4d#17 rk rj rd) (enc3R_f2 0x4d#17 rk rj rd) (enc3R_f1 0x4d#17 rk rj rd)⟩

theorem Layout.crccWWW (rd rj rk) : Layout.Statement (.crccWWW rd rj rk) := fun _ =>
  ⟨_, _, row_in2 (k := 24) rfl, hits_of_key (enc3R_key 0x4e#17 rk rj rd) rfl,
    app3 Instr.crccWWW (enc3R_f3 0x4e#17 rk rj rd) (enc3R_f2 0x4e#17 rk rj rd) (enc3R_f1 0x4e#17 rk rj rd)⟩

theorem Layout.crccWDW (rd rj rk) : Layout.Statement (.crccWDW rd rj rk) := fun _ =>
  ⟨_, _, row_in2 (k := 25) rfl, hits_of_key (enc3R_key 0x4f#17 rk rj rd) rfl,
    app3 Instr.crccWDW (enc3R_f3 0x4f#17 rk rj rd) (enc3R_f2 0x4f#17 rk rj rd) (enc3R_f1 0x4f#17 rk rj rd)⟩

theorem Layout.brk (code) : Layout.Statement (.brk code) := fun _ =>
  ⟨_, _, row_in2 (k := 26) rfl, hits_of_key (encCode15_key 0x54#17 code) rfl,
    app1 Instr.brk (encCode15_f1 0x54#17 code)⟩

theorem Layout.dbcl (code) : Layout.Statement (.dbcl code) := fun _ =>
  ⟨_, _, row_in2 (k := 27) rfl, hits_of_key (encCode15_key 0x55#17 code) rfl,
    app1 Instr.dbcl (encCode15_f1 0x55#17 code)⟩

theorem Layout.syscall (code) : Layout.Statement (.syscall code) := fun _ =>
  ⟨_, _, row_in2 (k := 28) rfl, hits_of_key (encCode15_key 0x56#17 code) rfl,
    app1 Instr.syscall (encCode15_f1 0x56#17 code)⟩

theorem Layout.alslD (rd rj rk sa2) : Layout.Statement (.alslD rd rj rk sa2) := fun _ =>
  ⟨_, _, row_in2 (k := 29) rfl, hits_of_key (enc3RSA2_key 0x16#15 sa2 rk rj rd) rfl,
    app4 Instr.alslD (enc3RSA2_f4 0x16#15 sa2 rk rj rd) (enc3RSA2_f3 0x16#15 sa2 rk rj rd)
      (enc3RSA2_f2 0x16#15 sa2 rk rj rd) (enc3RSA2_f1 0x16#15 sa2 rk rj rd)⟩

theorem Layout.slliW (rd rj ui5) : Layout.Statement (.slliW rd rj ui5) := fun _ =>
  ⟨_, _, row_in2 (k := 30) rfl, hits_of_key (enc3R_key 0x81#17 ui5 rj rd) rfl,
    app3 Instr.slliW (enc3R_f3 0x81#17 ui5 rj rd) (enc3R_f2 0x81#17 ui5 rj rd) (enc3R_f1 0x81#17 ui5 rj rd)⟩

theorem Layout.slliD (rd rj ui6) : Layout.Statement (.slliD rd rj ui6) := fun _ =>
  ⟨_, _, row_in2 (k := 31) rfl, hits_of_key (enc2RUI6_key 0x41#16 ui6 rj rd) rfl,
    app3 Instr.slliD (enc2RUI6_f3 0x41#16 ui6 rj rd) (enc2RUI6_f2 0x41#16 ui6 rj rd) (enc2RUI6_f1 0x41#16 ui6 rj rd)⟩

theorem Layout.srliW (rd rj ui5) : Layout.Statement (.srliW rd rj ui5) := fun _ =>
  ⟨_, _, row_in2 (k := 32) rfl, hits_of_key (enc3R_key 0x89#17 ui5 rj rd) rfl,
    app3 Instr.srliW (enc3R_f3 0x89#17 ui5 rj rd) (enc3R_f2 0x89#17 ui5 rj rd) (enc3R_f1 0x89#17 ui5 rj rd)⟩

theorem Layout.srliD (rd rj ui6) : Layout.Statement (.srliD rd rj ui6) := fun _ =>
  ⟨_, _, row_in2 (k := 33) rfl, hits_of_key (enc2RUI6_key 0x45#16 ui6 rj rd) rfl,
    app3 Instr.srliD (enc2RUI6_f3 0x45#16 ui6 rj rd) (enc2RUI6_f2 0x45#16 ui6 rj rd) (enc2RUI6_f1 0x45#16 ui6 rj rd)⟩

theorem Layout.sraiW (rd rj ui5) : Layout.Statement (.sraiW rd rj ui5) := fun _ =>
  ⟨_, _, row_in2 (k := 34) rfl, hits_of_key (enc3R_key 0x91#17 ui5 rj rd) rfl,
    app3 Instr.sraiW (enc3R_f3 0x91#17 ui5 rj rd) (enc3R_f2 0x91#17 ui5 rj rd) (enc3R_f1 0x91#17 ui5 rj rd)⟩

theorem Layout.sraiD (rd rj ui6) : Layout.Statement (.sraiD rd rj ui6) := fun _ =>
  ⟨_, _, row_in2 (k := 35) rfl, hits_of_key (enc2RUI6_key 0x49#16 ui6 rj rd) rfl,
    app3 Instr.sraiD (enc2RUI6_f3 0x49#16 ui6 rj rd) (enc2RUI6_f2 0x49#16 ui6 rj rd) (enc2RUI6_f1 0x49#16 ui6 rj rd)⟩

theorem Layout.rotriW (rd rj ui5) : Layout.Statement (.rotriW rd rj ui5) := fun _ =>
  ⟨_, _, row_in2 (k := 36) rfl, hits_of_key (enc3R_key 0x99#17 ui5 rj rd) rfl,
    app3 Instr.rotriW (enc3R_f3 0x99#17 ui5 rj rd) (enc3R_f2 0x99#17 ui5 rj rd) (enc3R_f1 0x99#17 ui5 rj rd)⟩

theorem Layout.rotriD (rd rj ui6) : Layout.Statement (.rotriD rd rj ui6) := fun _ =>
  ⟨_, _, row_in2 (k := 37) rfl, hits_of_key (enc2RUI6_key 0x4d#16 ui6 rj rd) rfl,
    app3 Instr.rotriD (enc2RUI6_f3 0x4d#16 ui6 rj rd) (enc2RUI6_f2 0x4d#16 ui6 rj rd) (enc2RUI6_f1 0x4d#16 ui6 rj rd)⟩

theorem Layout.bstrinsW (rd rj msbw lsbw) : Layout.Statement (.bstrinsW rd rj msbw lsbw) := fun _ =>
  ⟨_, _, row_in2 (k := 38) rfl, hits_of_key (encBstrinsW_key 0x3#11 msbw lsbw rj rd) rfl,
    app4 Instr.bstrinsW (encBstrinsW_f4 0x3#11 msbw lsbw rj rd) (encBstrinsW_f3 0x3#11 msbw lsbw rj rd)
      (encBstrinsW_f1 0x3#11 msbw lsbw rj rd) (encBstrinsW_f2 0x3#11 msbw lsbw rj rd)⟩

theorem Layout.bstrpickW (rd rj msbw lsbw) : Layout.Statement (.bstrpickW rd rj msbw lsbw) := fun _ =>
  ⟨_, _, row_in2 (k := 39) rfl, hits_of_key (encBstrpickW_key 0x3#11 msbw lsbw rj rd) rfl,
    app4 Instr.bstrpickW (encBstrpickW_f4 0x3#11 msbw lsbw rj rd) (encBstrpickW_f3 0x3#11 msbw lsbw rj rd)
      (encBstrpickW_f1 0x3#11 msbw lsbw rj rd) (encBstrpickW_f2 0x3#11 msbw lsbw rj rd)⟩

theorem Layout.bstrinsD (rd rj msbd lsbd) : Layout.Statement (.bstrinsD rd rj msbd lsbd) := fun _ =>
  ⟨_, _, row_in2 (k := 40) rfl, hits_of_key (encBstrD_key 0x2#10 msbd lsbd rj rd) rfl,
    app4 Instr.bstrinsD (encBstrD_f4 0x2#10 msbd lsbd rj rd) (encBstrD_f3 0x2#10 msbd lsbd rj rd)
      (encBstrD_f1 0x2#10 msbd lsbd rj rd) (encBstrD_f2 0x2#10 msbd lsbd rj rd)⟩

theorem Layout.bstrpickD (rd rj msbd lsbd) : Layout.Statement (.bstrpickD rd rj msbd lsbd) := fun _ =>
  ⟨_, _, row_in2 (k := 41) rfl, hits_of_key (encBstrD_key 0x3#10 msbd lsbd rj rd) rfl,
    app4 Instr.bstrpickD (encBstrD_f4 0x3#10 msbd lsbd rj rd) (encBstrD_f3 0x3#10 msbd lsbd rj rd)
      (encBstrD_f1 0x3#10 msbd lsbd rj rd) (encBstrD_f2 0x3#10 msbd lsbd rj rd)⟩

theorem Layout.faddS (fd fj fk) : Layout.Statement (.faddS fd fj fk) := fun _ =>
  ⟨_, _, row_in2 (k := 42) rfl, hits_of_key (enc3R_key 0x201#17 fk fj fd) rfl,
    app3 Instr.faddS (enc3R_f3 0x201#17 fk fj fd) (enc3R_f2 0x201#17 fk fj fd) (enc3R_f1 0x201#17 fk fj fd)⟩

theorem Layout.faddD (fd fj fk) : Layout.Statement (.faddD fd fj fk) := fun _ =>
  ⟨_, _, row_in2 (k := 43) rfl, hits_of_key (enc3R_key 0x202#17 fk fj fd) rfl,
    app3 Instr.faddD (enc3R_f3 0x202#17 fk fj fd) (enc3R_f2 0x202#17 fk fj fd) (enc3R_f1 0x202#17 fk fj fd)⟩

theorem Layout.fsubS (fd fj fk) : Layout.Statement (.fsubS fd fj fk) := fun _ =>
  ⟨_, _, row_in2 (k := 44) rfl, hits_of_key (enc3R_key 0x205#17 fk fj fd) rfl,
    app3 Instr.fsubS (enc3R_f3 0x205#17 fk fj fd) (enc3R_f2 0x205#17 fk fj fd) (enc3R_f1 0x205#17 fk fj fd)⟩

theorem Layout.fsubD (fd fj fk) : Layout.Statement (.fsubD fd fj fk) := fun _ =>
  ⟨_, _, row_in2 (k := 45) rfl, hits_of_key (enc3R_key 0x206#17 fk fj fd) rfl,
    app3 Instr.fsubD (enc3R_f3 0x206#17 fk fj fd) (enc3R_f2 0x206#17 fk fj fd) (enc3R_f1 0x206#17 fk fj fd)⟩

theorem Layout.fmulS (fd fj fk) : Layout.Statement (.fmulS fd fj fk) := fun _ =>
  ⟨_, _, row_in2 (k := 46) rfl, hits_of_key (enc3R_key 0x209#17 fk fj fd) rfl,
    app3 Instr.fmulS (enc3R_f3 0x209#17 fk fj fd) (enc3R_f2 0x209#17 fk fj fd) (enc3R_f1 0x209#17 fk fj fd)⟩

theorem Layout.fmulD (fd fj fk) : Layout.Statement (.fmulD fd fj fk) := fun _ =>
  ⟨_, _, row_in2 (k := 47) rfl, hits_of_key (enc3R_key 0x20a#17 fk fj fd) rfl,
    app3 Instr.fmulD (enc3R_f3 0x20a#17 fk fj fd) (enc3R_f2 0x20a#17 fk fj fd) (enc3R_f1 0x20a#17 fk fj fd)⟩

theorem Layout.fdivS (fd fj fk) : Layout.Statement (.fdivS fd fj fk) := fun _ =>
  ⟨_, _, row_in2 (k := 48) rfl, hits_of_key (enc3R_key 0x20d#17 fk fj fd) rfl,
    app3 Instr.fdivS (enc3R_f3 0x20d#17 fk fj fd) (enc3R_f2 0x20d#17 fk fj fd) (enc3R_f1 0x20d#17 fk fj fd)⟩

theorem Layout.fdivD (fd fj fk) : Layout.Statement (.fdivD fd fj fk) := fun _ =>
  ⟨_, _, row_in2 (k := 49) rfl, hits_of_key (enc3R_key 0x20e#17 fk fj fd) rfl,
    app3 Instr.fdivD (enc3R_f3 0x20e#17 fk fj fd) (enc3R_f2 0x20e#17 fk fj fd) (enc3R_f1 0x20e#17 fk fj fd)⟩

theorem Layout.fmaxS (fd fj fk) : Layout.Statement (.fmaxS fd fj fk) := fun _ =>
  ⟨_, _, row_in3 (k := 0) rfl, hits_of_key (enc3R_key 0x211#17 fk fj fd) rfl,
    app3 Instr.fmaxS (enc3R_f3 0x211#17 fk fj fd) (enc3R_f2 0x211#17 fk fj fd) (enc3R_f1 0x211#17 fk fj fd)⟩

theorem Layout.fmaxD (fd fj fk) : Layout.Statement (.fmaxD fd fj fk) := fun _ =>
  ⟨_, _, row_in3 (k := 1) rfl, hits_of_key (enc3R_key 0x212#17 fk fj fd) rfl,
    app3 Instr.fmaxD (enc3R_f3 0x212#17 fk fj fd) (enc3R_f2 0x212#17 fk fj fd) (enc3R_f1 0x212#17 fk fj fd)⟩

theorem Layout.fminS (fd fj fk) : Layout.Statement (.fminS fd fj fk) := fun _ =>
  ⟨_, _, row_in3 (k := 2) rfl, hits_of_key (enc3R_key 0x215#17 fk fj fd) rfl,
    app3 Instr.fminS (enc3R_f3 0x215#17 fk fj fd) (enc3R_f2 0x215#17 fk fj fd) (enc3R_f1 0x215#17 fk fj fd)⟩

theorem Layout.fminD (fd fj fk) : Layout.Statement (.fminD fd fj fk) := fun _ =>
  ⟨_, _, row_in3 (k := 3) rfl, hits_of_key (enc3R_key 0x216#17 fk fj fd) rfl,
    app3 Instr.fminD (enc3R_f3 0x216#17 fk fj fd) (enc3R_f2 0x216#17 fk fj fd) (enc3R_f1 0x216#17 fk fj fd)⟩

theorem Layout.fmaxaS (fd fj fk) : Layout.Statement (.fmaxaS fd fj fk) := fun _ =>
  ⟨_, _, row_in3 (k := 4) rfl, hits_of_key (enc3R_key 0x219#17 fk fj fd) rfl,
    app3 Instr.fmaxaS (enc3R_f3 0x219#17 fk fj fd) (enc3R_f2 0x219#17 fk fj fd) (enc3R_f1 0x219#17 fk fj fd)⟩

theorem Layout.fmaxaD (fd fj fk) : Layout.Statement (.fmaxaD fd fj fk) := fun _ =>
  ⟨_, _, row_in3 (k := 5) rfl, hits_of_key (enc3R_key 0x21a#17 fk fj fd) rfl,
    app3 Instr.fmaxaD (enc3R_f3 0x21a#17 fk fj fd) (enc3R_f2 0x21a#17 fk fj fd) (enc3R_f1 0x21a#17 fk fj fd)⟩

theorem Layout.fminaS (fd fj fk) : Layout.Statement (.fminaS fd fj fk) := fun _ =>
  ⟨_, _, row_in3 (k := 6) rfl, hits_of_key (enc3R_key 0x21d#17 fk fj fd) rfl,
    app3 Instr.fminaS (enc3R_f3 0x21d#17 fk fj fd) (enc3R_f2 0x21d#17 fk fj fd) (enc3R_f1 0x21d#17 fk fj fd)⟩

theorem Layout.fminaD (fd fj fk) : Layout.Statement (.fminaD fd fj fk) := fun _ =>
  ⟨_, _, row_in3 (k := 7) rfl, hits_of_key (enc3R_key 0x21e#17 fk fj fd) rfl,
    app3 Instr.fminaD (enc3R_f3 0x21e#17 fk fj fd) (enc3R_f2 0x21e#17 fk fj fd) (enc3R_f1 0x21e#17 fk fj fd)⟩

theorem Layout.fscalebS (fd fj fk) : Layout.Statement (.fscalebS fd fj fk) := fun _ =>
  ⟨_, _, row_in3 (k := 8) rfl, hits_of_key (enc3R_key 0x221#17 fk fj fd) rfl,
    app3 Instr.fscalebS (enc3R_f3 0x221#17 fk fj fd) (enc3R_f2 0x221#17 fk fj fd) (enc3R_f1 0x221#17 fk fj fd)⟩

theorem Layout.fscalebD (fd fj fk) : Layout.Statement (.fscalebD fd fj fk) := fun _ =>
  ⟨_, _, row_in3 (k := 9) rfl, hits_of_key (enc3R_key 0x222#17 fk fj fd) rfl,
    app3 Instr.fscalebD (enc3R_f3 0x222#17 fk fj fd) (enc3R_f2 0x222#17 fk fj fd) (enc3R_f1 0x222#17 fk fj fd)⟩

theorem Layout.fcopysignS (fd fj fk) : Layout.Statement (.fcopysignS fd fj fk) := fun _ =>
  ⟨_, _, row_in3 (k := 10) rfl, hits_of_key (enc3R_key 0x225#17 fk fj fd) rfl,
    app3 Instr.fcopysignS (enc3R_f3 0x225#17 fk fj fd) (enc3R_f2 0x225#17 fk fj fd) (enc3R_f1 0x225#17 fk fj fd)⟩

theorem Layout.fcopysignD (fd fj fk) : Layout.Statement (.fcopysignD fd fj fk) := fun _ =>
  ⟨_, _, row_in3 (k := 11) rfl, hits_of_key (enc3R_key 0x226#17 fk fj fd) rfl,
    app3 Instr.fcopysignD (enc3R_f3 0x226#17 fk fj fd) (enc3R_f2 0x226#17 fk fj fd) (enc3R_f1 0x226#17 fk fj fd)⟩

theorem Layout.fabsS (fd fj) : Layout.Statement (.fabsS fd fj) := fun _ =>
  ⟨_, _, row_in3 (k := 12) rfl, hits_of_key (enc2R_key 0x4501#22 fj fd) rfl,
    app2 Instr.fabsS (enc2R_f2 0x4501#22 fj fd) (enc2R_f1 0x4501#22 fj fd)⟩

theorem Layout.fabsD (fd fj) : Layout.Statement (.fabsD fd fj) := fun _ =>
  ⟨_, _, row_in3 (k := 13) rfl, hits_of_key (enc2R_key 0x4502#22 fj fd) rfl,
    app2 Instr.fabsD (enc2R_f2 0x4502#22 fj fd) (enc2R_f1 0x4502#22 fj fd)⟩

theorem Layout.fnegS (fd fj) : Layout.Statement (.fnegS fd fj) := fun _ =>
  ⟨_, _, row_in3 (k := 14) rfl, hits_of_key (enc2R_key 0x4505#22 fj fd) rfl,
    app2 Instr.fnegS (enc2R_f2 0x4505#22 fj fd) (enc2R_f1 0x4505#22 fj fd)⟩

theorem Layout.fnegD (fd fj) : Layout.Statement (.fnegD fd fj) := fun _ =>
  ⟨_, _, row_in3 (k := 15) rfl, hits_of_key (enc2R_key 0x4506#22 fj fd) rfl,
    app2 Instr.fnegD (enc2R_f2 0x4506#22 fj fd) (enc2R_f1 0x4506#22 fj fd)⟩

theorem Layout.flogbS (fd fj) : Layout.Statement (.flogbS fd fj) := fun _ =>
  ⟨_, _, row_in3 (k := 16) rfl, hits_of_key (enc2R_key 0x4509#22 fj fd) rfl,
    app2 Instr.flogbS (enc2R_f2 0x4509#22 fj fd) (enc2R_f1 0x4509#22 fj fd)⟩

theorem Layout.flogbD (fd fj) : Layout.Statement (.flogbD fd fj) := fun _ =>
  ⟨_, _, row_in3 (k := 17) rfl, hits_of_key (enc2R_key 0x450a#22 fj fd) rfl,
    app2 Instr.flogbD (enc2R_f2 0x450a#22 fj fd) (enc2R_f1 0x450a#22 fj fd)⟩

theorem Layout.fclassS (fd fj) : Layout.Statement (.fclassS fd fj) := fun _ =>
  ⟨_, _, row_in3 (k := 18) rfl, hits_of_key (enc2R_key 0x450d#22 fj fd) rfl,
    app2 Instr.fclassS (enc2R_f2 0x450d#22 fj fd) (enc2R_f1 0x450d#22 fj fd)⟩

theorem Layout.fclassD (fd fj) : Layout.Statement (.fclassD fd fj) := fun _ =>
  ⟨_, _, row_in3 (k := 19) rfl, hits_of_key (enc2R_key 0x450e#22 fj fd) rfl,
    app2 Instr.fclassD (enc2R_f2 0x450e#22 fj fd) (enc2R_f1 0x450e#22 fj fd)⟩

theorem Layout.fsqrtS (fd fj) : Layout.Statement (.fsqrtS fd fj) := fun _ =>
  ⟨_, _, row_in3 (k := 20) rfl, hits_of_key (enc2R_key 0x4511#22 fj fd) rfl,
    app2 Instr.fsqrtS (enc2R_f2 0x4511#22 fj fd) (enc2R_f1 0x4511#22 fj fd)⟩

theorem Layout.fsqrtD (fd fj) : Layout.Statement (.fsqrtD fd fj) := fun _ =>
  ⟨_, _, row_in3 (k := 21) rfl, hits_of_key (enc2R_key 0x4512#22 fj fd) rfl,
    app2 Instr.fsqrtD (enc2R_f2 0x4512#22 fj fd) (enc2R_f1 0x4512#22 fj fd)⟩

theorem Layout.frecipS (fd fj) : Layout.Statement (.frecipS fd fj) := fun _ =>
  ⟨_, _, row_in3 (k := 22) rfl, hits_of_key (enc2R_key 0x4515#22 fj fd) rfl,
    app2 Instr.frecipS (enc2R_f2 0x4515#22 fj fd) (enc2R_f1 0x4515#22 fj fd)⟩

theorem Layout.frecipD (fd fj) : Layout.Statement (.frecipD fd fj) := fun _ =>
  ⟨_, _, row_in3 (k := 23) rfl, hits_of_key (enc2R_key 0x4516#22 fj fd) rfl,
    app2 Instr.frecipD (enc2R_f2 0x4516#22 fj fd) (enc2R_f1 0x4516#22 fj fd)⟩

theorem Layout.frsqrtS (fd fj) : Layout.Statement (.frsqrtS fd fj) := fun _ =>
  ⟨_, _, row_in3 (k := 24) rfl, hits_of_key (enc2R_key 0x4519#22 fj fd) rfl,
    app2 Instr.frsqrtS (enc2R_f2 0x4519#22 fj fd) (enc2R_f1 0x4519#22 fj fd)⟩

theorem Layout.frsqrtD (fd fj) : Layout.Statement (.frsqrtD fd fj) := fun _ =>
  ⟨_, _, row_in3 (k := 25) rfl, hits_of_key (enc2R_key 0x451a#22 fj fd) rfl,
    app2 Instr.frsqrtD (enc2R_f2 0x451a#22 fj fd) (enc2R_f1 0x451a#22 fj fd)⟩

theorem Layout.frecipeS (fd fj) : Layout.Statement (.frecipeS fd fj) := fun _ =>
  ⟨_, _, row_in3 (k := 26) rfl, hits_of_key (enc2R_key 0x451d#22 fj fd) rfl,
    app2 Instr.frecipeS (enc2R_f2 0x451d#22 fj fd) (enc2R_f1 0x451d#22 fj fd)⟩

theorem Layout.frecipeD (fd fj) : Layout.Statement (.frecipeD fd fj) := fun _ =>
  ⟨_, _, row_in3 (k := 27) rfl, hits_of_key (enc2R_key 0x451e#22 fj fd) rfl,
    app2 Instr.frecipeD (enc2R_f2 0x451e#22 fj fd) (enc2R_f1 0x451e#22 fj fd)⟩

theorem Layout.frsqrteS (fd fj) : Layout.Statement (.frsqrteS fd fj) := fun _ =>
  ⟨_, _, row_in3 (k := 28) rfl, hits_of_key (enc2R_key 0x4521#22 fj fd) rfl,
    app2 Instr.frsqrteS (enc2R_f2 0x4521#22 fj fd) (enc2R_f1 0x4521#22 fj fd)⟩

theorem Layout.frsqrteD (fd fj) : Layout.Statement (.frsqrteD fd fj) := fun _ =>
  ⟨_, _, row_in3 (k := 29) rfl, hits_of_key (enc2R_key 0x4522#22 fj fd) rfl,
    app2 Instr.frsqrteD (enc2R_f2 0x4522#22 fj fd) (enc2R_f1 0x4522#22 fj fd)⟩

theorem Layout.fmovS (fd fj) : Layout.Statement (.fmovS fd fj) := fun _ =>
  ⟨_, _, row_in3 (k := 30) rfl, hits_of_key (enc2R_key 0x4525#22 fj fd) rfl,
    app2 Instr.fmovS (enc2R_f2 0x4525#22 fj fd) (enc2R_f1 0x4525#22 fj fd)⟩

theorem Layout.fmovD (fd fj) : Layout.Statement (.fmovD fd fj) := fun _ =>
  ⟨_, _, row_in3 (k := 31) rfl, hits_of_key (enc2R_key 0x4526#22 fj fd) rfl,
    app2 Instr.fmovD (enc2R_f2 0x4526#22 fj fd) (enc2R_f1 0x4526#22 fj fd)⟩

theorem Layout.movgr2frW (fd rj) : Layout.Statement (.movgr2frW fd rj) := fun _ =>
  ⟨_, _, row_in3 (k := 32) rfl, hits_of_key (enc2R_key 0x4529#22 rj fd) rfl,
    app2 Instr.movgr2frW (enc2R_f2 0x4529#22 rj fd) (enc2R_f1 0x4529#22 rj fd)⟩

theorem Layout.movgr2frD (fd rj) : Layout.Statement (.movgr2frD fd rj) := fun _ =>
  ⟨_, _, row_in3 (k := 33) rfl, hits_of_key (enc2R_key 0x452a#22 rj fd) rfl,
    app2 Instr.movgr2frD (enc2R_f2 0x452a#22 rj fd) (enc2R_f1 0x452a#22 rj fd)⟩

theorem Layout.movgr2frhW (fd rj) : Layout.Statement (.movgr2frhW fd rj) := fun _ =>
  ⟨_, _, row_in3 (k := 34) rfl, hits_of_key (enc2R_key 0x452b#22 rj fd) rfl,
    app2 Instr.movgr2frhW (enc2R_f2 0x452b#22 rj fd) (enc2R_f1 0x452b#22 rj fd)⟩

theorem Layout.movfr2grS (rd fj) : Layout.Statement (.movfr2grS rd fj) := fun _ =>
  ⟨_, _, row_in3 (k := 35) rfl, hits_of_key (enc2R_key 0x452d#22 fj rd) rfl,
    app2 Instr.movfr2grS (enc2R_f2 0x452d#22 fj rd) (enc2R_f1 0x452d#22 fj rd)⟩

theorem Layout.movfr2grD (rd fj) : Layout.Statement (.movfr2grD rd fj) := fun _ =>
  ⟨_, _, row_in3 (k := 36) rfl, hits_of_key (enc2R_key 0x452e#22 fj rd) rfl,
    app2 Instr.movfr2grD (enc2R_f2 0x452e#22 fj rd) (enc2R_f1 0x452e#22 fj rd)⟩

theorem Layout.movfrh2grS (rd fj) : Layout.Statement (.movfrh2grS rd fj) := fun _ =>
  ⟨_, _, row_in3 (k := 37) rfl, hits_of_key (enc2R_key 0x452f#22 fj rd) rfl,
    app2 Instr.movfrh2grS (enc2R_f2 0x452f#22 fj rd) (enc2R_f1 0x452f#22 fj rd)⟩

theorem Layout.movgr2fcsr (fcsr rj) : Layout.Statement (.movgr2fcsr fcsr rj) := fun _ =>
  ⟨_, _, row_in3 (k := 38) rfl, hits_of_key (enc2R_key 0x4530#22 rj fcsr) rfl,
    app2 Instr.movgr2fcsr (enc2R_f2 0x4530#22 rj fcsr) (enc2R_f1 0x4530#22 rj fcsr)⟩

theorem Layout.movfcsr2gr (rd fcsr) : Layout.Statement (.movfcsr2gr rd fcsr) := fun _ =>
  ⟨_, _, row_in3 (k := 39) rfl, hits_of_key (enc2R_key 0x4532#22 fcsr rd) rfl,
    app2 Instr.movfcsr2gr (enc2R_f2 0x4532#22 fcsr rd) (enc2R_f1 0x4532#22 fcsr rd)⟩

theorem Layout.movfr2cf (cd fj) : Layout.Statement (.movfr2cf cd fj) := fun _ =>
  ⟨_, _, row_in3 (k := 40) rfl, hits_of_key (enc2RCd_key 0x4534#22 fj cd) rfl,
    app2 Instr.movfr2cf (enc2RCd_f2 0x4534#22 fj cd) (enc2RCd_f1 0x4534#22 fj cd)⟩

theorem Layout.movcf2fr (fd cj) : Layout.Statement (.movcf2fr fd cj) := fun _ =>
  ⟨_, _, row_in3 (k := 41) rfl, hits_of_key (enc2RCj_key 0x114d4#24 cj fd) rfl,
    app2 Instr.movcf2fr (enc2RCj_f2 0x114d4#24 cj fd) (enc2RCj_f1 0x114d4#24 cj fd)⟩

theorem Layout.movgr2cf (cd rj) : Layout.Statement (.movgr2cf cd rj) := fun _ =>
  ⟨_, _, row_in3 (k := 42) rfl, hits_of_key (enc2RCd_key 0x4536#22 rj cd) rfl,
    app2 Instr.movgr2cf (enc2RCd_f2 0x4536#22 rj cd) (enc2RCd_f1 0x4536#22 rj cd)⟩

theorem Layout.movcf2gr (rd cj) : Layout.Statement (.movcf2gr rd cj) := fun _ =>
  ⟨_, _, row_in3 (k := 43) rfl, hits_of_key (enc2RCj_key 0x114dc#24 cj rd) rfl,
    app2 Instr.movcf2gr (enc2RCj_f2 0x114dc#24 cj rd) (enc2RCj_f1 0x114dc#24 cj rd)⟩

theorem Layout.fcvtSD (fd fj) : Layout.Statement (.fcvtSD fd fj) := fun _ =>
  ⟨_, _, row_in3 (k := 44) rfl, hits_of_key (enc2R_key 0x4646#22 fj fd) rfl,
    app2 Instr.fcvtSD (enc2R_f2 0x4646#22 fj fd) (enc2R_f1 0x4646#22 fj fd)⟩

theorem Layout.fcvtDS (fd fj) : Layout.Statement (.fcvtDS fd fj) := fun _ =>
  ⟨_, _, row_in3 (k := 45) rfl, hits_of_key (enc2R_key 0x4649#22 fj fd) rfl,
    app2 Instr.fcvtDS (enc2R_f2 0x4649#22 fj fd) (enc2R_f1 0x4649#22 fj fd)⟩

theorem Layout.ftintrmWS (fd fj) : Layout.Statement (.ftintrmWS fd fj) := fun _ =>
  ⟨_, _, row_in3 (k := 46) rfl, hits_of_key (enc2R_key 0x4681#22 fj fd) rfl,
    app2 Instr.ftintrmWS (enc2R_f2 0x4681#22 fj fd) (enc2R_f1 0x4681#22 fj fd)⟩

theorem Layout.ftintrmWD (fd fj) : Layout.Statement (.ftintrmWD fd fj) := fun _ =>
  ⟨_, _, row_in3 (k := 47) rfl, hits_of_key (enc2R_key 0x4682#22 fj fd) rfl,
    app2 Instr.ftintrmWD (enc2R_f2 0x4682#22 fj fd) (enc2R_f1 0x4682#22 fj fd)⟩

theorem Layout.ftintrmLS (fd fj) : Layout.Statement (.ftintrmLS fd fj) := fun _ =>
  ⟨_, _, row_in3 (k := 48) rfl, hits_of_key (enc2R_key 0x4689#22 fj fd) rfl,
    app2 Instr.ftintrmLS (enc2R_f2 0x4689#22 fj fd) (enc2R_f1 0x4689#22 fj fd)⟩

theorem Layout.ftintrmLD (fd fj) : Layout.Statement (.ftintrmLD fd fj) := fun _ =>
  ⟨_, _, row_in3 (k := 49) rfl, hits_of_key (enc2R_key 0x468a#22 fj fd) rfl,
    app2 Instr.ftintrmLD (enc2R_f2 0x468a#22 fj fd) (enc2R_f1 0x468a#22 fj fd)⟩

theorem Layout.ftintrpWS (fd fj) : Layout.Statement (.ftintrpWS fd fj) := fun _ =>
  ⟨_, _, row_in4 (k := 0) rfl, hits_of_key (enc2R_key 0x4691#22 fj fd) rfl,
    app2 Instr.ftintrpWS (enc2R_f2 0x4691#22 fj fd) (enc2R_f1 0x4691#22 fj fd)⟩

theorem Layout.ftintrpWD (fd fj) : Layout.Statement (.ftintrpWD fd fj) := fun _ =>
  ⟨_, _, row_in4 (k := 1) rfl, hits_of_key (enc2R_key 0x4692#22 fj fd) rfl,
    app2 Instr.ftintrpWD (enc2R_f2 0x4692#22 fj fd) (enc2R_f1 0x4692#22 fj fd)⟩

theorem Layout.ftintrpLS (fd fj) : Layout.Statement (.ftintrpLS fd fj) := fun _ =>
  ⟨_, _, row_in4 (k := 2) rfl, hits_of_key (enc2R_key 0x4699#22 fj fd) rfl,
    app2 Instr.ftintrpLS (enc2R_f2 0x4699#22 fj fd) (enc2R_f1 0x4699#22 fj fd)⟩

theorem Layout.ftintrpLD (fd fj) : Layout.Statement (.ftintrpLD fd fj) := fun _ =>
  ⟨_, _, row_in4 (k := 3) rfl, hits_of_key (enc2R_key 0x469a#22 fj fd) rfl,
    app2 Instr.ftintrpLD (enc2R_f2 0x469a#22 fj fd) (enc2R_f1 0x469a#22 fj fd)⟩

theorem Layout.ftintrzWS (fd fj) : Layout.Statement (.ftintrzWS fd fj) := fun _ =>
  ⟨_, _, row_in4 (k := 4) rfl, hits_of_key (enc2R_key 0x46a1#22 fj fd) rfl,
    app2 Instr.ftintrzWS (enc2R_f2 0x46a1#22 fj fd) (enc2R_f1 0x46a1#22 fj fd)⟩

theorem Layout.ftintrzWD (fd fj) : Layout.Statement (.ftintrzWD fd fj) := fun _ =>
  ⟨_, _, row_in4 (k := 5) rfl, hits_of_key (enc2R_key 0x46a2#22 fj fd) rfl,
    app2 Instr.ftintrzWD (enc2R_f2 0x46a2#22 fj fd) (enc2R_f1 0x46a2#22 fj fd)⟩

theorem Layout.ftintrzLS (fd fj) : Layout.Statement (.ftintrzLS fd fj) := fun _ =>
  ⟨_, _, row_in4 (k := 6) rfl, hits_of_key (enc2R_key 0x46a9#22 fj fd) rfl,
    app2 Instr.ftintrzLS (enc2R_f2 0x46a9#22 fj fd) (enc2R_f1 0x46a9#22 fj fd)⟩

theorem Layout.ftintrzLD (fd fj) : Layout.Statement (.ftintrzLD fd fj) := fun _ =>
  ⟨_, _, row_in4 (k := 7) rfl, hits_of_key (enc2R_key 0x46aa#22 fj fd) rfl,
    app2 Instr.ftintrzLD (enc2R_f2 0x46aa#22 fj fd) (enc2R_f1 0x46aa#22 fj fd)⟩

theorem Layout.ftintrneWS (fd fj) : Layout.Statement (.ftintrneWS fd fj) := fun _ =>
  ⟨_, _, row_in4 (k := 8) rfl, hits_of_key (enc2R_key 0x46b1#22 fj fd) rfl,
    app2 Instr.ftintrneWS (enc2R_f2 0x46b1#22 fj fd) (enc2R_f1 0x46b1#22 fj fd)⟩

theorem Layout.ftintrneWD (fd fj) : Layout.Statement (.ftintrneWD fd fj) := fun _ =>
  ⟨_, _, row_in4 (k := 9) rfl, hits_of_key (enc2R_key 0x46b2#22 fj fd) rfl,
    app2 Instr.ftintrneWD (enc2R_f2 0x46b2#22 fj fd) (enc2R_f1 0x46b2#22 fj fd)⟩

theorem Layout.ftintrneLS (fd fj) : Layout.Statement (.ftintrneLS fd fj) := fun _ =>
  ⟨_, _, row_in4 (k := 10) rfl, hits_of_key (enc2R_key 0x46b9#22 fj fd) rfl,
    app2 Instr.ftintrneLS (enc2R_f2 0x46b9#22 fj fd) (enc2R_f1 0x46b9#22 fj fd)⟩

theorem Layout.ftintrneLD (fd fj) : Layout.Statement (.ftintrneLD fd fj) := fun _ =>
  ⟨_, _, row_in4 (k := 11) rfl, hits_of_key (enc2R_key 0x46ba#22 fj fd) rfl,
    app2 Instr.ftintrneLD (enc2R_f2 0x46ba#22 fj fd) (enc2R_f1 0x46ba#22 fj fd)⟩

theorem Layout.ftintWS (fd fj) : Layout.Statement (.ftintWS fd fj) := fun _ =>
  ⟨_, _, row_in4 (k := 12) rfl, hits_of_key (enc2R_key 0x46c1#22 fj fd) rfl,
    app2 Instr.ftintWS (enc2R_f2 0x46c1#22 fj fd) (enc2R_f1 0x46c1#22 fj fd)⟩

theorem Layout.ftintWD (fd fj) : Layout.Statement (.ftintWD fd fj) := fun _ =>
  ⟨_, _, row_in4 (k := 13) rfl, hits_of_key (enc2R_key 0x46c2#22 fj fd) rfl,
    app2 Instr.ftintWD (enc2R_f2 0x46c2#22 fj fd) (enc2R_f1 0x46c2#22 fj fd)⟩

theorem Layout.ftintLS (fd fj) : Layout.Statement (.ftintLS fd fj) := fun _ =>
  ⟨_, _, row_in4 (k := 14) rfl, hits_of_key (enc2R_key 0x46c9#22 fj fd) rfl,
    app2 Instr.ftintLS (enc2R_f2 0x46c9#22 fj fd) (enc2R_f1 0x46c9#22 fj fd)⟩

theorem Layout.ftintLD (fd fj) : Layout.Statement (.ftintLD fd fj) := fun _ =>
  ⟨_, _, row_in4 (k := 15) rfl, hits_of_key (enc2R_key 0x46ca#22 fj fd) rfl,
    app2 Instr.ftintLD (enc2R_f2 0x46ca#22 fj fd) (enc2R_f1 0x46ca#22 fj fd)⟩

theorem Layout.ffintSW (fd fj) : Layout.Statement (.ffintSW fd fj) := fun _ =>
  ⟨_, _, row_in4 (k := 16) rfl, hits_of_key (enc2R_key 0x4744#22 fj fd) rfl,
    app2 Instr.ffintSW (enc2R_f2 0x4744#22 fj fd) (enc2R_f1 0x4744#22 fj fd)⟩

theorem Layout.ffintSL (fd fj) : Layout.Statement (.ffintSL fd fj) := fun _ =>
  ⟨_, _, row_in4 (k := 17) rfl, hits_of_key (enc2R_key 0x4746#22 fj fd) rfl,
    app2 Instr.ffintSL (enc2R_f2 0x4746#22 fj fd) (enc2R_f1 0x4746#22 fj fd)⟩

theorem Layout.ffintDW (fd fj) : Layout.Statement (.ffintDW fd fj) := fun _ =>
  ⟨_, _, row_in4 (k := 18) rfl, hits_of_key (enc2R_key 0x4748#22 fj fd) rfl,
    app2 Instr.ffintDW (enc2R_f2 0x4748#22 fj fd) (enc2R_f1 0x4748#22 fj fd)⟩

theorem Layout.ffintDL (fd fj) : Layout.Statement (.ffintDL fd fj) := fun _ =>
  ⟨_, _, row_in4 (k := 19) rfl, hits_of_key (enc2R_key 0x474a#22 fj fd) rfl,
    app2 Instr.ffintDL (enc2R_f2 0x474a#22 fj fd) (enc2R_f1 0x474a#22 fj fd)⟩

theorem Layout.frintS (fd fj) : Layout.Statement (.frintS fd fj) := fun _ =>
  ⟨_, _, row_in4 (k := 20) rfl, hits_of_key (enc2R_key 0x4791#22 fj fd) rfl,
    app2 Instr.frintS (enc2R_f2 0x4791#22 fj fd) (enc2R_f1 0x4791#22 fj fd)⟩

theorem Layout.frintD (fd fj) : Layout.Statement (.frintD fd fj) := fun _ =>
  ⟨_, _, row_in4 (k := 21) rfl, hits_of_key (enc2R_key 0x4792#22 fj fd) rfl,
    app2 Instr.frintD (enc2R_f2 0x4792#22 fj fd) (enc2R_f1 0x4792#22 fj fd)⟩

theorem Layout.slti (rd rj si12) : Layout.Statement (.slti rd rj si12) := fun _ =>
  ⟨_, _, row_in4 (k := 22) rfl, hits_of_key (enc2RI12_key 0x8#10 si12 rj rd) rfl,
    app3 Instr.slti (enc2RI12_f3 0x8#10 si12 rj rd) (enc2RI12_f2 0x8#10 si12 rj rd) (enc2RI12_f1 0x8#10 si12 rj rd)⟩

theorem Layout.sltui (rd rj si12) : Layout.Statement (.sltui rd rj si12) := fun _ =>
  ⟨_, _, row_in4 (k := 23) rfl, hits_of_key (enc2RI12_key 0x9#10 si12 rj rd) rfl,
    app3 Instr.sltui (enc2RI12_f3 0x9#10 si12 rj rd) (enc2RI12_f2 0x9#10 si12 rj rd) (enc2RI12_f1 0x9#10 si12 rj rd)⟩

theorem Layout.addiW (rd rj si12) : Layout.Statement (.addiW rd rj si12) := fun _ =>
  ⟨_, _, row_in4 (k := 24) rfl, hits_of_key (enc2RI12_key 0xa#10 si12 rj rd) rfl,
    app3 Instr.addiW (enc2RI12_f3 0xa#10 si12 rj rd) (enc2RI12_f2 0xa#10 si12 rj rd) (enc2RI12_f1 0xa#10 si12 rj rd)⟩

theorem Layout.addiD (rd rj si12) : Layout.Statement (.addiD rd rj si12) := fun _ =>
  ⟨_, _, row_in4 (k := 25) rfl, hits_of_key (enc2RI12_key 0xb#10 si12 rj rd) rfl,
    app3 Instr.addiD (enc2RI12_f3 0xb#10 si12 rj rd) (enc2RI12_f2 0xb#10 si12 rj rd) (enc2RI12_f1 0xb#10 si12 rj rd)⟩

theorem Layout.lu52iD (rd rj si12) : Layout.Statement (.lu52iD rd rj si12) := fun _ =>
  ⟨_, _, row_in4 (k := 26) rfl, hits_of_key (enc2RI12_key 0xc#10 si12 rj rd) rfl,
    app3 Instr.lu52iD (enc2RI12_f3 0xc#10 si12 rj rd) (enc2RI12_f2 0xc#10 si12 rj rd) (enc2RI12_f1 0xc#10 si12 rj rd)⟩

theorem Layout.andi (rd rj ui12) : Layout.Statement (.andi rd rj ui12) := fun _ =>
  ⟨_, _, row_in4 (k := 27) rfl, hits_of_key (enc2RI12_key 0xd#10 ui12 rj rd) rfl,
    app3 Instr.andi (enc2RI12_f3 0xd#10 ui12 rj rd) (enc2RI12_f2 0xd#10 ui12 rj rd) (enc2RI12_f1 0xd#10 ui12 rj rd)⟩

theorem Layout.ori (rd rj ui12) : Layout.Statement (.ori rd rj ui12) := fun _ =>
  ⟨_, _, row_in4 (k := 28) rfl, hits_of_key (enc2RI12_key 0xe#10 ui12 rj rd) rfl,
    app3 Instr.ori (enc2RI12_f3 0xe#10 ui12 rj rd) (enc2RI12_f2 0xe#10 ui12 rj rd) (enc2RI12_f1 0xe#10 ui12 rj rd)⟩

theorem Layout.xori (rd rj ui12) : Layout.Statement (.xori rd rj ui12) := fun _ =>
  ⟨_, _, row_in4 (k := 29) rfl, hits_of_key (enc2RI12_key 0xf#10 ui12 rj rd) rfl,
    app3 Instr.xori (enc2RI12_f3 0xf#10 ui12 rj rd) (enc2RI12_f2 0xf#10 ui12 rj rd) (enc2RI12_f1 0xf#10 ui12 rj rd)⟩

theorem Layout.csrrd (rd csr) : Layout.Statement (.csrrd rd csr) := fun _ =>
  ⟨_, _, row_in4 (k := 30) rfl, hits_of_key (encCsrrd_key 0x4#8 csr rd) rfl,
    app2 Instr.csrrd (encCsrrd_f2 0x4#8 csr rd) (encCsrrd_f1 0x4#8 csr rd)⟩

theorem Layout.csrwr (rd csr) : Layout.Statement (.csrwr rd csr) := fun _ =>
  ⟨_, _, row_in4 (k := 31) rfl, hits_of_key (encCsrwr_key 0x4#8 csr rd) rfl,
    app2 Instr.csrwr (encCsrwr_f2 0x4#8 csr rd) (encCsrwr_f1 0x4#8 csr rd)⟩

theorem Layout.csrxchg (rd rj csr) : Layout.Statement (.csrxchg rd rj csr) := fun _ =>
  ⟨_, _, row_in4 (k := 32) rfl, hits_of_key (enc2RI14_key 0x4#8 csr rj rd) rfl,
    app3 Instr.csrxchg (enc2RI14_f3 0x4#8 csr rj rd) (enc2RI14_f2 0x4#8 csr rj rd) (enc2RI14_f1 0x4#8 csr rj rd)⟩

theorem Layout.cacop (op rj si12) : Layout.Statement (.cacop op rj si12) := fun _ =>
  ⟨_, _, row_in4 (k := 33) rfl, hits_of_key (enc2RI12_key 0x18#10 si12 rj op) rfl,
    app3 Instr.cacop (enc2RI12_f3 0x18#10 si12 rj op) (enc2RI12_f2 0x18#10 si12 rj op)
      (enc2RI12_f1 0x18#10 si12 rj op)⟩

theorem Layout.lddir (rd rj level) : Layout.Statement (.lddir rd rj level) := fun _ =>
  ⟨_, _, row_in4 (k := 34) rfl, hits_of_key (enc2RI8_key 0x190#14 level rj rd) rfl,
    app3 Instr.lddir (enc2RI8_f3 0x190#14 level rj rd) (enc2RI8_f2 0x190#14 level rj rd)
      (enc2RI8_f1 0x190#14 level rj rd)⟩

theorem Layout.ldpte (rj seq) : Layout.Statement (.ldpte rj seq) := fun _ =>
  ⟨_, _, row_in4 (k := 35) rfl, hits_of_key (encLdpte_key 0x191#14 seq rj) rfl,
    app2 Instr.ldpte (encLdpte_f2 0x191#14 seq rj) (encLdpte_f1 0x191#14 seq rj)⟩

theorem Layout.iocsrrdB (rd rj) : Layout.Statement (.iocsrrdB rd rj) := fun _ =>
  ⟨_, _, row_in4 (k := 36) rfl, hits_of_key (enc2R_key 0x19200#22 rj rd) rfl,
    app2 Instr.iocsrrdB (enc2R_f2 0x19200#22 rj rd) (enc2R_f1 0x19200#22 rj rd)⟩

theorem Layout.iocsrrdH (rd rj) : Layout.Statement (.iocsrrdH rd rj) := fun _ =>
  ⟨_, _, row_in4 (k := 37) rfl, hits_of_key (enc2R_key 0x19201#22 rj rd) rfl,
    app2 Instr.iocsrrdH (enc2R_f2 0x19201#22 rj rd) (enc2R_f1 0x19201#22 rj rd)⟩

theorem Layout.iocsrrdW (rd rj) : Layout.Statement (.iocsrrdW rd rj) := fun _ =>
  ⟨_, _, row_in4 (k := 38) rfl, hits_of_key (enc2R_key 0x19202#22 rj rd) rfl,
    app2 Instr.iocsrrdW (enc2R_f2 0x19202#22 rj rd) (enc2R_f1 0x19202#22 rj rd)⟩

theorem Layout.iocsrrdD (rd rj) : Layout.Statement (.iocsrrdD rd rj) := fun _ =>
  ⟨_, _, row_in4 (k := 39) rfl, hits_of_key (enc2R_key 0x19203#22 rj rd) rfl,
    app2 Instr.iocsrrdD (enc2R_f2 0x19203#22 rj rd) (enc2R_f1 0x19203#22 rj rd)⟩

theorem Layout.iocsrwrB (rd rj) : Layout.Statement (.iocsrwrB rd rj) := fun _ =>
  ⟨_, _, row_in4 (k := 40) rfl, hits_of_key (enc2R_key 0x19204#22 rj rd) rfl,
    app2 Instr.iocsrwrB (enc2R_f2 0x19204#22 rj rd) (enc2R_f1 0x19204#22 rj rd)⟩

theorem Layout.iocsrwrH (rd rj) : Layout.Statement (.iocsrwrH rd rj) := fun _ =>
  ⟨_, _, row_in4 (k := 41) rfl, hits_of_key (enc2R_key 0x19205#22 rj rd) rfl,
    app2 Instr.iocsrwrH (enc2R_f2 0x19205#22 rj rd) (enc2R_f1 0x19205#22 rj rd)⟩

theorem Layout.iocsrwrW (rd rj) : Layout.Statement (.iocsrwrW rd rj) := fun _ =>
  ⟨_, _, row_in4 (k := 42) rfl, hits_of_key (enc2R_key 0x19206#22 rj rd) rfl,
    app2 Instr.iocsrwrW (enc2R_f2 0x19206#22 rj rd) (enc2R_f1 0x19206#22 rj rd)⟩

theorem Layout.iocsrwrD (rd rj) : Layout.Statement (.iocsrwrD rd rj) := fun _ =>
  ⟨_, _, row_in4 (k := 43) rfl, hits_of_key (enc2R_key 0x19207#22 rj rd) rfl,
    app2 Instr.iocsrwrD (enc2R_f2 0x19207#22 rj rd) (enc2R_f1 0x19207#22 rj rd)⟩

theorem Layout.tlbclr : Layout.Statement (.tlbclr) := fun _ =>
  ⟨_, _, row_in4 (k := 44) rfl, hits_of_key (encNone_key 0x6482000#32) rfl, rfl⟩

theorem Layout.tlbflush : Layout.Statement (.tlbflush) := fun _ =>
  ⟨_, _, row_in4 (k := 45) rfl, hits_of_key (encNone_key 0x6482400#32) rfl, rfl⟩

theorem Layout.tlbsrch : Layout.Statement (.tlbsrch) := fun _ =>
  ⟨_, _, row_in4 (k := 46) rfl, hits_of_key (encNone_key 0x6482800#32) rfl, rfl⟩

theorem Layout.tlbrd : Layout.Statement (.tlbrd) := fun _ =>
  ⟨_, _, row_in4 (k := 47) rfl, hits_of_key (encNone_key 0x6482c00#32) rfl, rfl⟩

theorem Layout.tlbwr : Layout.Statement (.tlbwr) := fun _ =>
  ⟨_, _, row_in4 (k := 48) rfl, hits_of_key (encNone_key 0x6483000#32) rfl, rfl⟩

theorem Layout.tlbfill : Layout.Statement (.tlbfill) := fun _ =>
  ⟨_, _, row_in4 (k := 49) rfl, hits_of_key (encNone_key 0x6483400#32) rfl, rfl⟩

theorem Layout.ertn : Layout.Statement (.ertn) := fun _ =>
  ⟨_, _, row_in5 (k := 0) rfl, hits_of_key (encNone_key 0x6483800#32) rfl, rfl⟩

theorem Layout.idle (hint) : Layout.Statement (.idle hint) := fun _ =>
  ⟨_, _, row_in5 (k := 1) rfl, hits_of_key (encCode15_key 0xc91#17 hint) rfl,
    app1 Instr.idle (encCode15_f1 0xc91#17 hint)⟩

theorem Layout.invtlb (op rj rk) : Layout.Statement (.invtlb op rj rk) := fun _ =>
  ⟨_, _, row_in5 (k := 2) rfl, hits_of_key (enc3R_key 0xc93#17 rk rj op) rfl,
    app3 Instr.invtlb (enc3R_f3 0xc93#17 rk rj op) (enc3R_f2 0xc93#17 rk rj op) (enc3R_f1 0xc93#17 rk rj op)⟩

theorem Layout.fmaddS (fd fj fk fa) : Layout.Statement (.fmaddS fd fj fk fa) := fun _ =>
  ⟨_, _, row_in5 (k := 3) rfl, hits_of_key (enc4R_key 0x81#12 fa fk fj fd) rfl,
    app4 Instr.fmaddS (enc4R_f4 0x81#12 fa fk fj fd) (enc4R_f3 0x81#12 fa fk fj fd) (enc4R_f2 0x81#12 fa fk fj fd)
      (enc4R_f1 0x81#12 fa fk fj fd)⟩

theorem Layout.fmaddD (fd fj fk fa) : Layout.Statement (.fmaddD fd fj fk fa) := fun _ =>
  ⟨_, _, row_in5 (k := 4) rfl, hits_of_key (enc4R_key 0x82#12 fa fk fj fd) rfl,
    app4 Instr.fmaddD (enc4R_f4 0x82#12 fa fk fj fd) (enc4R_f3 0x82#12 fa fk fj fd) (enc4R_f2 0x82#12 fa fk fj fd)
      (enc4R_f1 0x82#12 fa fk fj fd)⟩

theorem Layout.fmsubS (fd fj fk fa) : Layout.Statement (.fmsubS fd fj fk fa) := fun _ =>
  ⟨_, _, row_in5 (k := 5) rfl, hits_of_key (enc4R_key 0x85#12 fa fk fj fd) rfl,
    app4 Instr.fmsubS (enc4R_f4 0x85#12 fa fk fj fd) (enc4R_f3 0x85#12 fa fk fj fd) (enc4R_f2 0x85#12 fa fk fj fd)
      (enc4R_f1 0x85#12 fa fk fj fd)⟩

theorem Layout.fmsubD (fd fj fk fa) : Layout.Statement (.fmsubD fd fj fk fa) := fun _ =>
  ⟨_, _, row_in5 (k := 6) rfl, hits_of_key (enc4R_key 0x86#12 fa fk fj fd) rfl,
    app4 Instr.fmsubD (enc4R_f4 0x86#12 fa fk fj fd) (enc4R_f3 0x86#12 fa fk fj fd) (enc4R_f2 0x86#12 fa fk fj fd)
      (enc4R_f1 0x86#12 fa fk fj fd)⟩

theorem Layout.fnmaddS (fd fj fk fa) : Layout.Statement (.fnmaddS fd fj fk fa) := fun _ =>
  ⟨_, _, row_in5 (k := 7) rfl, hits_of_key (enc4R_key 0x89#12 fa fk fj fd) rfl,
    app4 Instr.fnmaddS (enc4R_f4 0x89#12 fa fk fj fd) (enc4R_f3 0x89#12 fa fk fj fd)
      (enc4R_f2 0x89#12 fa fk fj fd) (enc4R_f1 0x89#12 fa fk fj fd)⟩

theorem Layout.fnmaddD (fd fj fk fa) : Layout.Statement (.fnmaddD fd fj fk fa) := fun _ =>
  ⟨_, _, row_in5 (k := 8) rfl, hits_of_key (enc4R_key 0x8a#12 fa fk fj fd) rfl,
    app4 Instr.fnmaddD (enc4R_f4 0x8a#12 fa fk fj fd) (enc4R_f3 0x8a#12 fa fk fj fd)
      (enc4R_f2 0x8a#12 fa fk fj fd) (enc4R_f1 0x8a#12 fa fk fj fd)⟩

theorem Layout.fnmsubS (fd fj fk fa) : Layout.Statement (.fnmsubS fd fj fk fa) := fun _ =>
  ⟨_, _, row_in5 (k := 9) rfl, hits_of_key (enc4R_key 0x8d#12 fa fk fj fd) rfl,
    app4 Instr.fnmsubS (enc4R_f4 0x8d#12 fa fk fj fd) (enc4R_f3 0x8d#12 fa fk fj fd)
      (enc4R_f2 0x8d#12 fa fk fj fd) (enc4R_f1 0x8d#12 fa fk fj fd)⟩

theorem Layout.fnmsubD (fd fj fk fa) : Layout.Statement (.fnmsubD fd fj fk fa) := fun _ =>
  ⟨_, _, row_in5 (k := 10) rfl, hits_of_key (enc4R_key 0x8e#12 fa fk fj fd) rfl,
    app4 Instr.fnmsubD (enc4R_f4 0x8e#12 fa fk fj fd) (enc4R_f3 0x8e#12 fa fk fj fd)
      (enc4R_f2 0x8e#12 fa fk fj fd) (enc4R_f1 0x8e#12 fa fk fj fd)⟩

theorem Layout.fcmpCafS (cd fj fk) : Layout.Statement (.fcmpCafS cd fj fk) := fun _ =>
  ⟨_, _, row_in5 (k := 11) rfl, hits_of_key (encFcmp_key 0x1820#17 fk fj cd) rfl,
    app3 Instr.fcmpCafS (encFcmp_f3 0x1820#17 fk fj cd) (encFcmp_f2 0x1820#17 fk fj cd)
      (encFcmp_f1 0x1820#17 fk fj cd)⟩

theorem Layout.fcmpSafS (cd fj fk) : Layout.Statement (.fcmpSafS cd fj fk) := fun _ =>
  ⟨_, _, row_in5 (k := 12) rfl, hits_of_key (encFcmp_key 0x1821#17 fk fj cd) rfl,
    app3 Instr.fcmpSafS (encFcmp_f3 0x1821#17 fk fj cd) (encFcmp_f2 0x1821#17 fk fj cd)
      (encFcmp_f1 0x1821#17 fk fj cd)⟩

theorem Layout.fcmpCltS (cd fj fk) : Layout.Statement (.fcmpCltS cd fj fk) := fun _ =>
  ⟨_, _, row_in5 (k := 13) rfl, hits_of_key (encFcmp_key 0x1822#17 fk fj cd) rfl,
    app3 Instr.fcmpCltS (encFcmp_f3 0x1822#17 fk fj cd) (encFcmp_f2 0x1822#17 fk fj cd)
      (encFcmp_f1 0x1822#17 fk fj cd)⟩

theorem Layout.fcmpSltS (cd fj fk) : Layout.Statement (.fcmpSltS cd fj fk) := fun _ =>
  ⟨_, _, row_in5 (k := 14) rfl, hits_of_key (encFcmp_key 0x1823#17 fk fj cd) rfl,
    app3 Instr.fcmpSltS (encFcmp_f3 0x1823#17 fk fj cd) (encFcmp_f2 0x1823#17 fk fj cd)
      (encFcmp_f1 0x1823#17 fk fj cd)⟩

theorem Layout.fcmpCeqS (cd fj fk) : Layout.Statement (.fcmpCeqS cd fj fk) := fun _ =>
  ⟨_, _, row_in5 (k := 15) rfl, hits_of_key (encFcmp_key 0x1824#17 fk fj cd) rfl,
    app3 Instr.fcmpCeqS (encFcmp_f3 0x1824#17 fk fj cd) (encFcmp_f2 0x1824#17 fk fj cd)
      (encFcmp_f1 0x1824#17 fk fj cd)⟩

theorem Layout.fcmpSeqS (cd fj fk) : Layout.Statement (.fcmpSeqS cd fj fk) := fun _ =>
  ⟨_, _, row_in5 (k := 16) rfl, hits_of_key (encFcmp_key 0x1825#17 fk fj cd) rfl,
    app3 Instr.fcmpSeqS (encFcmp_f3 0x1825#17 fk fj cd) (encFcmp_f2 0x1825#17 fk fj cd)
      (encFcmp_f1 0x1825#17 fk fj cd)⟩

theorem Layout.fcmpCleS (cd fj fk) : Layout.Statement (.fcmpCleS cd fj fk) := fun _ =>
  ⟨_, _, row_in5 (k := 17) rfl, hits_of_key (encFcmp_key 0x1826#17 fk fj cd) rfl,
    app3 Instr.fcmpCleS (encFcmp_f3 0x1826#17 fk fj cd) (encFcmp_f2 0x1826#17 fk fj cd)
      (encFcmp_f1 0x1826#17 fk fj cd)⟩

theorem Layout.fcmpSleS (cd fj fk) : Layout.Statement (.fcmpSleS cd fj fk) := fun _ =>
  ⟨_, _, row_in5 (k := 18) rfl, hits_of_key (encFcmp_key 0x1827#17 fk fj cd) rfl,
    app3 Instr.fcmpSleS (encFcmp_f3 0x1827#17 fk fj cd) (encFcmp_f2 0x1827#17 fk fj cd)
      (encFcmp_f1 0x1827#17 fk fj cd)⟩

theorem Layout.fcmpCunS (cd fj fk) : Layout.Statement (.fcmpCunS cd fj fk) := fun _ =>
  ⟨_, _, row_in5 (k := 19) rfl, hits_of_key (encFcmp_key 0x1828#17 fk fj cd) rfl,
    app3 Instr.fcmpCunS (encFcmp_f3 0x1828#17 fk fj cd) (encFcmp_f2 0x1828#17 fk fj cd)
      (encFcmp_f1 0x1828#17 fk fj cd)⟩

theorem Layout.fcmpSunS (cd fj fk) : Layout.Statement (.fcmpSunS cd fj fk) := fun _ =>
  ⟨_, _, row_in5 (k := 20) rfl, hits_of_key (encFcmp_key 0x1829#17 fk fj cd) rfl,
    app3 Instr.fcmpSunS (encFcmp_f3 0x1829#17 fk fj cd) (encFcmp_f2 0x1829#17 fk fj cd)
      (encFcmp_f1 0x1829#17 fk fj cd)⟩

theorem Layout.fcmpCultS (cd fj fk) : Layout.Statement (.fcmpCultS cd fj fk) := fun _ =>
  ⟨_, _, row_in5 (k := 21) rfl, hits_of_key (encFcmp_key 0x182a#17 fk fj cd) rfl,
    app3 Instr.fcmpCultS (encFcmp_f3 0x182a#17 fk fj cd) (encFcmp_f2 0x182a#17 fk fj cd)
      (encFcmp_f1 0x182a#17 fk fj cd)⟩

theorem Layout.fcmpSultS (cd fj fk) : Layout.Statement (.fcmpSultS cd fj fk) := fun _ =>
  ⟨_, _, row_in5 (k := 22) rfl, hits_of_key (encFcmp_key 0x182b#17 fk fj cd) rfl,
    app3 Instr.fcmpSultS (encFcmp_f3 0x182b#17 fk fj cd) (encFcmp_f2 0x182b#17 fk fj cd)
      (encFcmp_f1 0x182b#17 fk fj cd)⟩

theorem Layout.fcmpCueqS (cd fj fk) : Layout.Statement (.fcmpCueqS cd fj fk) := fun _ =>
  ⟨_, _, row_in5 (k := 23) rfl, hits_of_key (encFcmp_key 0x182c#17 fk fj cd) rfl,
    app3 Instr.fcmpCueqS (encFcmp_f3 0x182c#17 fk fj cd) (encFcmp_f2 0x182c#17 fk fj cd)
      (encFcmp_f1 0x182c#17 fk fj cd)⟩

theorem Layout.fcmpSueqS (cd fj fk) : Layout.Statement (.fcmpSueqS cd fj fk) := fun _ =>
  ⟨_, _, row_in5 (k := 24) rfl, hits_of_key (encFcmp_key 0x182d#17 fk fj cd) rfl,
    app3 Instr.fcmpSueqS (encFcmp_f3 0x182d#17 fk fj cd) (encFcmp_f2 0x182d#17 fk fj cd)
      (encFcmp_f1 0x182d#17 fk fj cd)⟩

theorem Layout.fcmpCuleS (cd fj fk) : Layout.Statement (.fcmpCuleS cd fj fk) := fun _ =>
  ⟨_, _, row_in5 (k := 25) rfl, hits_of_key (encFcmp_key 0x182e#17 fk fj cd) rfl,
    app3 Instr.fcmpCuleS (encFcmp_f3 0x182e#17 fk fj cd) (encFcmp_f2 0x182e#17 fk fj cd)
      (encFcmp_f1 0x182e#17 fk fj cd)⟩

theorem Layout.fcmpSuleS (cd fj fk) : Layout.Statement (.fcmpSuleS cd fj fk) := fun _ =>
  ⟨_, _, row_in5 (k := 26) rfl, hits_of_key (encFcmp_key 0x182f#17 fk fj cd) rfl,
    app3 Instr.fcmpSuleS (encFcmp_f3 0x182f#17 fk fj cd) (encFcmp_f2 0x182f#17 fk fj cd)
      (encFcmp_f1 0x182f#17 fk fj cd)⟩

theorem Layout.fcmpCneS (cd fj fk) : Layout.Statement (.fcmpCneS cd fj fk) := fun _ =>
  ⟨_, _, row_in5 (k := 27) rfl, hits_of_key (encFcmp_key 0x1830#17 fk fj cd) rfl,
    app3 Instr.fcmpCneS (encFcmp_f3 0x1830#17 fk fj cd) (encFcmp_f2 0x1830#17 fk fj cd)
      (encFcmp_f1 0x1830#17 fk fj cd)⟩

theorem Layout.fcmpSneS (cd fj fk) : Layout.Statement (.fcmpSneS cd fj fk) := fun _ =>
  ⟨_, _, row_in5 (k := 28) rfl, hits_of_key (encFcmp_key 0x1831#17 fk fj cd) rfl,
    app3 Instr.fcmpSneS (encFcmp_f3 0x1831#17 fk fj cd) (encFcmp_f2 0x1831#17 fk fj cd)
      (encFcmp_f1 0x1831#17 fk fj cd)⟩

theorem Layout.fcmpCorS (cd fj fk) : Layout.Statement (.fcmpCorS cd fj fk) := fun _ =>
  ⟨_, _, row_in5 (k := 29) rfl, hits_of_key (encFcmp_key 0x1834#17 fk fj cd) rfl,
    app3 Instr.fcmpCorS (encFcmp_f3 0x1834#17 fk fj cd) (encFcmp_f2 0x1834#17 fk fj cd)
      (encFcmp_f1 0x1834#17 fk fj cd)⟩

theorem Layout.fcmpSorS (cd fj fk) : Layout.Statement (.fcmpSorS cd fj fk) := fun _ =>
  ⟨_, _, row_in5 (k := 30) rfl, hits_of_key (encFcmp_key 0x1835#17 fk fj cd) rfl,
    app3 Instr.fcmpSorS (encFcmp_f3 0x1835#17 fk fj cd) (encFcmp_f2 0x1835#17 fk fj cd)
      (encFcmp_f1 0x1835#17 fk fj cd)⟩

theorem Layout.fcmpCuneS (cd fj fk) : Layout.Statement (.fcmpCuneS cd fj fk) := fun _ =>
  ⟨_, _, row_in5 (k := 31) rfl, hits_of_key (encFcmp_key 0x1838#17 fk fj cd) rfl,
    app3 Instr.fcmpCuneS (encFcmp_f3 0x1838#17 fk fj cd) (encFcmp_f2 0x1838#17 fk fj cd)
      (encFcmp_f1 0x1838#17 fk fj cd)⟩

theorem Layout.fcmpSuneS (cd fj fk) : Layout.Statement (.fcmpSuneS cd fj fk) := fun _ =>
  ⟨_, _, row_in5 (k := 32) rfl, hits_of_key (encFcmp_key 0x1839#17 fk fj cd) rfl,
    app3 Instr.fcmpSuneS (encFcmp_f3 0x1839#17 fk fj cd) (encFcmp_f2 0x1839#17 fk fj cd)
      (encFcmp_f1 0x1839#17 fk fj cd)⟩

theorem Layout.fcmpCafD (cd fj fk) : Layout.Statement (.fcmpCafD cd fj fk) := fun _ =>
  ⟨_, _, row_in5 (k := 33) rfl, hits_of_key (encFcmp_key 0x1840#17 fk fj cd) rfl,
    app3 Instr.fcmpCafD (encFcmp_f3 0x1840#17 fk fj cd) (encFcmp_f2 0x1840#17 fk fj cd)
      (encFcmp_f1 0x1840#17 fk fj cd)⟩

theorem Layout.fcmpSafD (cd fj fk) : Layout.Statement (.fcmpSafD cd fj fk) := fun _ =>
  ⟨_, _, row_in5 (k := 34) rfl, hits_of_key (encFcmp_key 0x1841#17 fk fj cd) rfl,
    app3 Instr.fcmpSafD (encFcmp_f3 0x1841#17 fk fj cd) (encFcmp_f2 0x1841#17 fk fj cd)
      (encFcmp_f1 0x1841#17 fk fj cd)⟩

theorem Layout.fcmpCltD (cd fj fk) : Layout.Statement (.fcmpCltD cd fj fk) := fun _ =>
  ⟨_, _, row_in5 (k := 35) rfl, hits_of_key (encFcmp_key 0x1842#17 fk fj cd) rfl,
    app3 Instr.fcmpCltD (encFcmp_f3 0x1842#17 fk fj cd) (encFcmp_f2 0x1842#17 fk fj cd)
      (encFcmp_f1 0x1842#17 fk fj cd)⟩

theorem Layout.fcmpSltD (cd fj fk) : Layout.Statement (.fcmpSltD cd fj fk) := fun _ =>
  ⟨_, _, row_in5 (k := 36) rfl, hits_of_key (encFcmp_key 0x1843#17 fk fj cd) rfl,
    app3 Instr.fcmpSltD (encFcmp_f3 0x1843#17 fk fj cd) (encFcmp_f2 0x1843#17 fk fj cd)
      (encFcmp_f1 0x1843#17 fk fj cd)⟩

theorem Layout.fcmpCeqD (cd fj fk) : Layout.Statement (.fcmpCeqD cd fj fk) := fun _ =>
  ⟨_, _, row_in5 (k := 37) rfl, hits_of_key (encFcmp_key 0x1844#17 fk fj cd) rfl,
    app3 Instr.fcmpCeqD (encFcmp_f3 0x1844#17 fk fj cd) (encFcmp_f2 0x1844#17 fk fj cd)
      (encFcmp_f1 0x1844#17 fk fj cd)⟩

theorem Layout.fcmpSeqD (cd fj fk) : Layout.Statement (.fcmpSeqD cd fj fk) := fun _ =>
  ⟨_, _, row_in5 (k := 38) rfl, hits_of_key (encFcmp_key 0x1845#17 fk fj cd) rfl,
    app3 Instr.fcmpSeqD (encFcmp_f3 0x1845#17 fk fj cd) (encFcmp_f2 0x1845#17 fk fj cd)
      (encFcmp_f1 0x1845#17 fk fj cd)⟩

theorem Layout.fcmpCleD (cd fj fk) : Layout.Statement (.fcmpCleD cd fj fk) := fun _ =>
  ⟨_, _, row_in5 (k := 39) rfl, hits_of_key (encFcmp_key 0x1846#17 fk fj cd) rfl,
    app3 Instr.fcmpCleD (encFcmp_f3 0x1846#17 fk fj cd) (encFcmp_f2 0x1846#17 fk fj cd)
      (encFcmp_f1 0x1846#17 fk fj cd)⟩

theorem Layout.fcmpSleD (cd fj fk) : Layout.Statement (.fcmpSleD cd fj fk) := fun _ =>
  ⟨_, _, row_in5 (k := 40) rfl, hits_of_key (encFcmp_key 0x1847#17 fk fj cd) rfl,
    app3 Instr.fcmpSleD (encFcmp_f3 0x1847#17 fk fj cd) (encFcmp_f2 0x1847#17 fk fj cd)
      (encFcmp_f1 0x1847#17 fk fj cd)⟩

theorem Layout.fcmpCunD (cd fj fk) : Layout.Statement (.fcmpCunD cd fj fk) := fun _ =>
  ⟨_, _, row_in5 (k := 41) rfl, hits_of_key (encFcmp_key 0x1848#17 fk fj cd) rfl,
    app3 Instr.fcmpCunD (encFcmp_f3 0x1848#17 fk fj cd) (encFcmp_f2 0x1848#17 fk fj cd)
      (encFcmp_f1 0x1848#17 fk fj cd)⟩

theorem Layout.fcmpSunD (cd fj fk) : Layout.Statement (.fcmpSunD cd fj fk) := fun _ =>
  ⟨_, _, row_in5 (k := 42) rfl, hits_of_key (encFcmp_key 0x1849#17 fk fj cd) rfl,
    app3 Instr.fcmpSunD (encFcmp_f3 0x1849#17 fk fj cd) (encFcmp_f2 0x1849#17 fk fj cd)
      (encFcmp_f1 0x1849#17 fk fj cd)⟩

theorem Layout.fcmpCultD (cd fj fk) : Layout.Statement (.fcmpCultD cd fj fk) := fun _ =>
  ⟨_, _, row_in5 (k := 43) rfl, hits_of_key (encFcmp_key 0x184a#17 fk fj cd) rfl,
    app3 Instr.fcmpCultD (encFcmp_f3 0x184a#17 fk fj cd) (encFcmp_f2 0x184a#17 fk fj cd)
      (encFcmp_f1 0x184a#17 fk fj cd)⟩

theorem Layout.fcmpSultD (cd fj fk) : Layout.Statement (.fcmpSultD cd fj fk) := fun _ =>
  ⟨_, _, row_in5 (k := 44) rfl, hits_of_key (encFcmp_key 0x184b#17 fk fj cd) rfl,
    app3 Instr.fcmpSultD (encFcmp_f3 0x184b#17 fk fj cd) (encFcmp_f2 0x184b#17 fk fj cd)
      (encFcmp_f1 0x184b#17 fk fj cd)⟩

theorem Layout.fcmpCueqD (cd fj fk) : Layout.Statement (.fcmpCueqD cd fj fk) := fun _ =>
  ⟨_, _, row_in5 (k := 45) rfl, hits_of_key (encFcmp_key 0x184c#17 fk fj cd) rfl,
    app3 Instr.fcmpCueqD (encFcmp_f3 0x184c#17 fk fj cd) (encFcmp_f2 0x184c#17 fk fj cd)
      (encFcmp_f1 0x184c#17 fk fj cd)⟩

theorem Layout.fcmpSueqD (cd fj fk) : Layout.Statement (.fcmpSueqD cd fj fk) := fun _ =>
  ⟨_, _, row_in5 (k := 46) rfl, hits_of_key (encFcmp_key 0x184d#17 fk fj cd) rfl,
    app3 Instr.fcmpSueqD (encFcmp_f3 0x184d#17 fk fj cd) (encFcmp_f2 0x184d#17 fk fj cd)
      (encFcmp_f1 0x184d#17 fk fj cd)⟩

theorem Layout.fcmpCuleD (cd fj fk) : Layout.Statement (.fcmpCuleD cd fj fk) := fun _ =>
  ⟨_, _, row_in5 (k := 47) rfl, hits_of_key (encFcmp_key 0x184e#17 fk fj cd) rfl,
    app3 Instr.fcmpCuleD (encFcmp_f3 0x184e#17 fk fj cd) (encFcmp_f2 0x184e#17 fk fj cd)
      (encFcmp_f1 0x184e#17 fk fj cd)⟩

theorem Layout.fcmpSuleD (cd fj fk) : Layout.Statement (.fcmpSuleD cd fj fk) := fun _ =>
  ⟨_, _, row_in5 (k := 48) rfl, hits_of_key (encFcmp_key 0x184f#17 fk fj cd) rfl,
    app3 Instr.fcmpSuleD (encFcmp_f3 0x184f#17 fk fj cd) (encFcmp_f2 0x184f#17 fk fj cd)
      (encFcmp_f1 0x184f#17 fk fj cd)⟩

theorem Layout.fcmpCneD (cd fj fk) : Layout.Statement (.fcmpCneD cd fj fk) := fun _ =>
  ⟨_, _, row_in5 (k := 49) rfl, hits_of_key (encFcmp_key 0x1850#17 fk fj cd) rfl,
    app3 Instr.fcmpCneD (encFcmp_f3 0x1850#17 fk fj cd) (encFcmp_f2 0x1850#17 fk fj cd)
      (encFcmp_f1 0x1850#17 fk fj cd)⟩

theorem Layout.fcmpSneD (cd fj fk) : Layout.Statement (.fcmpSneD cd fj fk) := fun _ =>
  ⟨_, _, row_in6 (k := 0) rfl, hits_of_key (encFcmp_key 0x1851#17 fk fj cd) rfl,
    app3 Instr.fcmpSneD (encFcmp_f3 0x1851#17 fk fj cd) (encFcmp_f2 0x1851#17 fk fj cd)
      (encFcmp_f1 0x1851#17 fk fj cd)⟩

theorem Layout.fcmpCorD (cd fj fk) : Layout.Statement (.fcmpCorD cd fj fk) := fun _ =>
  ⟨_, _, row_in6 (k := 1) rfl, hits_of_key (encFcmp_key 0x1854#17 fk fj cd) rfl,
    app3 Instr.fcmpCorD (encFcmp_f3 0x1854#17 fk fj cd) (encFcmp_f2 0x1854#17 fk fj cd)
      (encFcmp_f1 0x1854#17 fk fj cd)⟩

theorem Layout.fcmpSorD (cd fj fk) : Layout.Statement (.fcmpSorD cd fj fk) := fun _ =>
  ⟨_, _, row_in6 (k := 2) rfl, hits_of_key (encFcmp_key 0x1855#17 fk fj cd) rfl,
    app3 Instr.fcmpSorD (encFcmp_f3 0x1855#17 fk fj cd) (encFcmp_f2 0x1855#17 fk fj cd)
      (encFcmp_f1 0x1855#17 fk fj cd)⟩

theorem Layout.fcmpCuneD (cd fj fk) : Layout.Statement (.fcmpCuneD cd fj fk) := fun _ =>
  ⟨_, _, row_in6 (k := 3) rfl, hits_of_key (encFcmp_key 0x1858#17 fk fj cd) rfl,
    app3 Instr.fcmpCuneD (encFcmp_f3 0x1858#17 fk fj cd) (encFcmp_f2 0x1858#17 fk fj cd)
      (encFcmp_f1 0x1858#17 fk fj cd)⟩

theorem Layout.fcmpSuneD (cd fj fk) : Layout.Statement (.fcmpSuneD cd fj fk) := fun _ =>
  ⟨_, _, row_in6 (k := 4) rfl, hits_of_key (encFcmp_key 0x1859#17 fk fj cd) rfl,
    app3 Instr.fcmpSuneD (encFcmp_f3 0x1859#17 fk fj cd) (encFcmp_f2 0x1859#17 fk fj cd)
      (encFcmp_f1 0x1859#17 fk fj cd)⟩

theorem Layout.fsel (fd fj fk ca) : Layout.Statement (.fsel fd fj fk ca) := fun _ =>
  ⟨_, _, row_in6 (k := 5) rfl, hits_of_key (enc3RSA3_key 0x340#14 ca fk fj fd) rfl,
    app4 Instr.fsel (enc3RSA3_f4 0x340#14 ca fk fj fd) (enc3RSA3_f3 0x340#14 ca fk fj fd)
      (enc3RSA3_f2 0x340#14 ca fk fj fd) (enc3RSA3_f1 0x340#14 ca fk fj fd)⟩

theorem Layout.addu16iD (rd rj si16) : Layout.Statement (.addu16iD rd rj si16) := fun _ =>
  ⟨_, _, row_in6 (k := 6) rfl, hits_of_key (enc2RI16_key 0x4#6 si16 rj rd) rfl,
    app3 Instr.addu16iD (enc2RI16_f3 0x4#6 si16 rj rd) (enc2RI16_f2 0x4#6 si16 rj rd) (enc2RI16_f1 0x4#6 si16 rj rd)⟩

theorem Layout.lu12iW (rd si20) : Layout.Statement (.lu12iW rd si20) := fun _ =>
  ⟨_, _, row_in6 (k := 7) rfl, hits_of_key (enc1RI20_key 0xa#7 si20 rd) rfl,
    app2 Instr.lu12iW (enc1RI20_f2 0xa#7 si20 rd) (enc1RI20_f1 0xa#7 si20 rd)⟩

theorem Layout.lu32iD (rd si20) : Layout.Statement (.lu32iD rd si20) := fun _ =>
  ⟨_, _, row_in6 (k := 8) rfl, hits_of_key (enc1RI20_key 0xb#7 si20 rd) rfl,
    app2 Instr.lu32iD (enc1RI20_f2 0xb#7 si20 rd) (enc1RI20_f1 0xb#7 si20 rd)⟩

theorem Layout.pcaddi (rd si20) : Layout.Statement (.pcaddi rd si20) := fun _ =>
  ⟨_, _, row_in6 (k := 9) rfl, hits_of_key (enc1RI20_key 0xc#7 si20 rd) rfl,
    app2 Instr.pcaddi (enc1RI20_f2 0xc#7 si20 rd) (enc1RI20_f1 0xc#7 si20 rd)⟩

theorem Layout.pcalau12i (rd si20) : Layout.Statement (.pcalau12i rd si20) := fun _ =>
  ⟨_, _, row_in6 (k := 10) rfl, hits_of_key (enc1RI20_key 0xd#7 si20 rd) rfl,
    app2 Instr.pcalau12i (enc1RI20_f2 0xd#7 si20 rd) (enc1RI20_f1 0xd#7 si20 rd)⟩

theorem Layout.pcaddu12i (rd si20) : Layout.Statement (.pcaddu12i rd si20) := fun _ =>
  ⟨_, _, row_in6 (k := 11) rfl, hits_of_key (enc1RI20_key 0xe#7 si20 rd) rfl,
    app2 Instr.pcaddu12i (enc1RI20_f2 0xe#7 si20 rd) (enc1RI20_f1 0xe#7 si20 rd)⟩

theorem Layout.pcaddu18i (rd si20) : Layout.Statement (.pcaddu18i rd si20) := fun _ =>
  ⟨_, _, row_in6 (k := 12) rfl, hits_of_key (enc1RI20_key 0xf#7 si20 rd) rfl,
    app2 Instr.pcaddu18i (enc1RI20_f2 0xf#7 si20 rd) (enc1RI20_f1 0xf#7 si20 rd)⟩

theorem Layout.llW (rd rj si14) : Layout.Statement (.llW rd rj si14) := fun _ =>
  ⟨_, _, row_in6 (k := 13) rfl, hits_of_key (enc2RI14_key 0x20#8 si14 rj rd) rfl,
    app3 Instr.llW (enc2RI14_f3 0x20#8 si14 rj rd) (enc2RI14_f2 0x20#8 si14 rj rd) (enc2RI14_f1 0x20#8 si14 rj rd)⟩

theorem Layout.scW (rd rj si14) : Layout.Statement (.scW rd rj si14) := fun _ =>
  ⟨_, _, row_in6 (k := 14) rfl, hits_of_key (enc2RI14_key 0x21#8 si14 rj rd) rfl,
    app3 Instr.scW (enc2RI14_f3 0x21#8 si14 rj rd) (enc2RI14_f2 0x21#8 si14 rj rd) (enc2RI14_f1 0x21#8 si14 rj rd)⟩

theorem Layout.llD (rd rj si14) : Layout.Statement (.llD rd rj si14) := fun _ =>
  ⟨_, _, row_in6 (k := 15) rfl, hits_of_key (enc2RI14_key 0x22#8 si14 rj rd) rfl,
    app3 Instr.llD (enc2RI14_f3 0x22#8 si14 rj rd) (enc2RI14_f2 0x22#8 si14 rj rd) (enc2RI14_f1 0x22#8 si14 rj rd)⟩

theorem Layout.scD (rd rj si14) : Layout.Statement (.scD rd rj si14) := fun _ =>
  ⟨_, _, row_in6 (k := 16) rfl, hits_of_key (enc2RI14_key 0x23#8 si14 rj rd) rfl,
    app3 Instr.scD (enc2RI14_f3 0x23#8 si14 rj rd) (enc2RI14_f2 0x23#8 si14 rj rd) (enc2RI14_f1 0x23#8 si14 rj rd)⟩

theorem Layout.ldptrW (rd rj si14) : Layout.Statement (.ldptrW rd rj si14) := fun _ =>
  ⟨_, _, row_in6 (k := 17) rfl, hits_of_key (enc2RI14_key 0x24#8 si14 rj rd) rfl,
    app3 Instr.ldptrW (enc2RI14_f3 0x24#8 si14 rj rd) (enc2RI14_f2 0x24#8 si14 rj rd) (enc2RI14_f1 0x24#8 si14 rj rd)⟩

theorem Layout.stptrW (rd rj si14) : Layout.Statement (.stptrW rd rj si14) := fun _ =>
  ⟨_, _, row_in6 (k := 18) rfl, hits_of_key (enc2RI14_key 0x25#8 si14 rj rd) rfl,
    app3 Instr.stptrW (enc2RI14_f3 0x25#8 si14 rj rd) (enc2RI14_f2 0x25#8 si14 rj rd) (enc2RI14_f1 0x25#8 si14 rj rd)⟩

theorem Layout.ldptrD (rd rj si14) : Layout.Statement (.ldptrD rd rj si14) := fun _ =>
  ⟨_, _, row_in6 (k := 19) rfl, hits_of_key (enc2RI14_key 0x26#8 si14 rj rd) rfl,
    app3 Instr.ldptrD (enc2RI14_f3 0x26#8 si14 rj rd) (enc2RI14_f2 0x26#8 si14 rj rd) (enc2RI14_f1 0x26#8 si14 rj rd)⟩

theorem Layout.stptrD (rd rj si14) : Layout.Statement (.stptrD rd rj si14) := fun _ =>
  ⟨_, _, row_in6 (k := 20) rfl, hits_of_key (enc2RI14_key 0x27#8 si14 rj rd) rfl,
    app3 Instr.stptrD (enc2RI14_f3 0x27#8 si14 rj rd) (enc2RI14_f2 0x27#8 si14 rj rd) (enc2RI14_f1 0x27#8 si14 rj rd)⟩

theorem Layout.ldB (rd rj si12) : Layout.Statement (.ldB rd rj si12) := fun _ =>
  ⟨_, _, row_in6 (k := 21) rfl, hits_of_key (enc2RI12_key 0xa0#10 si12 rj rd) rfl,
    app3 Instr.ldB (enc2RI12_f3 0xa0#10 si12 rj rd) (enc2RI12_f2 0xa0#10 si12 rj rd) (enc2RI12_f1 0xa0#10 si12 rj rd)⟩

theorem Layout.ldH (rd rj si12) : Layout.Statement (.ldH rd rj si12) := fun _ =>
  ⟨_, _, row_in6 (k := 22) rfl, hits_of_key (enc2RI12_key 0xa1#10 si12 rj rd) rfl,
    app3 Instr.ldH (enc2RI12_f3 0xa1#10 si12 rj rd) (enc2RI12_f2 0xa1#10 si12 rj rd) (enc2RI12_f1 0xa1#10 si12 rj rd)⟩

theorem Layout.ldW (rd rj si12) : Layout.Statement (.ldW rd rj si12) := fun _ =>
  ⟨_, _, row_in6 (k := 23) rfl, hits_of_key (enc2RI12_key 0xa2#10 si12 rj rd) rfl,
    app3 Instr.ldW (enc2RI12_f3 0xa2#10 si12 rj rd) (enc2RI12_f2 0xa2#10 si12 rj rd) (enc2RI12_f1 0xa2#10 si12 rj rd)⟩

theorem Layout.ldD (rd rj si12) : Layout.Statement (.ldD rd rj si12) := fun _ =>
  ⟨_, _, row_in6 (k := 24) rfl, hits_of_key (enc2RI12_key 0xa3#10 si12 rj rd) rfl,
    app3 Instr.ldD (enc2RI12_f3 0xa3#10 si12 rj rd) (enc2RI12_f2 0xa3#10 si12 rj rd) (enc2RI12_f1 0xa3#10 si12 rj rd)⟩

theorem Layout.stB (rd rj si12) : Layout.Statement (.stB rd rj si12) := fun _ =>
  ⟨_, _, row_in6 (k := 25) rfl, hits_of_key (enc2RI12_key 0xa4#10 si12 rj rd) rfl,
    app3 Instr.stB (enc2RI12_f3 0xa4#10 si12 rj rd) (enc2RI12_f2 0xa4#10 si12 rj rd) (enc2RI12_f1 0xa4#10 si12 rj rd)⟩

theorem Layout.stH (rd rj si12) : Layout.Statement (.stH rd rj si12) := fun _ =>
  ⟨_, _, row_in6 (k := 26) rfl, hits_of_key (enc2RI12_key 0xa5#10 si12 rj rd) rfl,
    app3 Instr.stH (enc2RI12_f3 0xa5#10 si12 rj rd) (enc2RI12_f2 0xa5#10 si12 rj rd) (enc2RI12_f1 0xa5#10 si12 rj rd)⟩

theorem Layout.stW (rd rj si12) : Layout.Statement (.stW rd rj si12) := fun _ =>
  ⟨_, _, row_in6 (k := 27) rfl, hits_of_key (enc2RI12_key 0xa6#10 si12 rj rd) rfl,
    app3 Instr.stW (enc2RI12_f3 0xa6#10 si12 rj rd) (enc2RI12_f2 0xa6#10 si12 rj rd) (enc2RI12_f1 0xa6#10 si12 rj rd)⟩

theorem Layout.stD (rd rj si12) : Layout.Statement (.stD rd rj si12) := fun _ =>
  ⟨_, _, row_in6 (k := 28) rfl, hits_of_key (enc2RI12_key 0xa7#10 si12 rj rd) rfl,
    app3 Instr.stD (enc2RI12_f3 0xa7#10 si12 rj rd) (enc2RI12_f2 0xa7#10 si12 rj rd) (enc2RI12_f1 0xa7#10 si12 rj rd)⟩

theorem Layout.ldBu (rd rj si12) : Layout.Statement (.ldBu rd rj si12) := fun _ =>
  ⟨_, _, row_in6 (k := 29) rfl, hits_of_key (enc2RI12_key 0xa8#10 si12 rj rd) rfl,
    app3 Instr.ldBu (enc2RI12_f3 0xa8#10 si12 rj rd) (enc2RI12_f2 0xa8#10 si12 rj rd)
      (enc2RI12_f1 0xa8#10 si12 rj rd)⟩

theorem Layout.ldHu (rd rj si12) : Layout.Statement (.ldHu rd rj si12) := fun _ =>
  ⟨_, _, row_in6 (k := 30) rfl, hits_of_key (enc2RI12_key 0xa9#10 si12 rj rd) rfl,
    app3 Instr.ldHu (enc2RI12_f3 0xa9#10 si12 rj rd) (enc2RI12_f2 0xa9#10 si12 rj rd)
      (enc2RI12_f1 0xa9#10 si12 rj rd)⟩

theorem Layout.ldWu (rd rj si12) : Layout.Statement (.ldWu rd rj si12) := fun _ =>
  ⟨_, _, row_in6 (k := 31) rfl, hits_of_key (enc2RI12_key 0xaa#10 si12 rj rd) rfl,
    app3 Instr.ldWu (enc2RI12_f3 0xaa#10 si12 rj rd) (enc2RI12_f2 0xaa#10 si12 rj rd)
      (enc2RI12_f1 0xaa#10 si12 rj rd)⟩

theorem Layout.preld (hint rj si12) : Layout.Statement (.preld hint rj si12) := fun _ =>
  ⟨_, _, row_in6 (k := 32) rfl, hits_of_key (enc2RI12_key 0xab#10 si12 rj hint) rfl,
    app3 Instr.preld (enc2RI12_f3 0xab#10 si12 rj hint) (enc2RI12_f2 0xab#10 si12 rj hint)
      (enc2RI12_f1 0xab#10 si12 rj hint)⟩

theorem Layout.fldS (fd rj si12) : Layout.Statement (.fldS fd rj si12) := fun _ =>
  ⟨_, _, row_in6 (k := 33) rfl, hits_of_key (enc2RI12_key 0xac#10 si12 rj fd) rfl,
    app3 Instr.fldS (enc2RI12_f3 0xac#10 si12 rj fd) (enc2RI12_f2 0xac#10 si12 rj fd)
      (enc2RI12_f1 0xac#10 si12 rj fd)⟩

theorem Layout.fstS (fd rj si12) : Layout.Statement (.fstS fd rj si12) := fun _ =>
  ⟨_, _, row_in6 (k := 34) rfl, hits_of_key (enc2RI12_key 0xad#10 si12 rj fd) rfl,
    app3 Instr.fstS (enc2RI12_f3 0xad#10 si12 rj fd) (enc2RI12_f2 0xad#10 si12 rj fd)
      (enc2RI12_f1 0xad#10 si12 rj fd)⟩

theorem Layout.fldD (fd rj si12) : Layout.Statement (.fldD fd rj si12) := fun _ =>
  ⟨_, _, row_in6 (k := 35) rfl, hits_of_key (enc2RI12_key 0xae#10 si12 rj fd) rfl,
    app3 Instr.fldD (enc2RI12_f3 0xae#10 si12 rj fd) (enc2RI12_f2 0xae#10 si12 rj fd)
      (enc2RI12_f1 0xae#10 si12 rj fd)⟩

theorem Layout.fstD (fd rj si12) : Layout.Statement (.fstD fd rj si12) := fun _ =>
  ⟨_, _, row_in6 (k := 36) rfl, hits_of_key (enc2RI12_key 0xaf#10 si12 rj fd) rfl,
    app3 Instr.fstD (enc2RI12_f3 0xaf#10 si12 rj fd) (enc2RI12_f2 0xaf#10 si12 rj fd)
      (enc2RI12_f1 0xaf#10 si12 rj fd)⟩

theorem Layout.ldxB (rd rj rk) : Layout.Statement (.ldxB rd rj rk) := fun _ =>
  ⟨_, _, row_in6 (k := 37) rfl, hits_of_key (enc3R_key 0x7000#17 rk rj rd) rfl,
    app3 Instr.ldxB (enc3R_f3 0x7000#17 rk rj rd) (enc3R_f2 0x7000#17 rk rj rd) (enc3R_f1 0x7000#17 rk rj rd)⟩

theorem Layout.ldxH (rd rj rk) : Layout.Statement (.ldxH rd rj rk) := fun _ =>
  ⟨_, _, row_in6 (k := 38) rfl, hits_of_key (enc3R_key 0x7008#17 rk rj rd) rfl,
    app3 Instr.ldxH (enc3R_f3 0x7008#17 rk rj rd) (enc3R_f2 0x7008#17 rk rj rd) (enc3R_f1 0x7008#17 rk rj rd)⟩

theorem Layout.ldxW (rd rj rk) : Layout.Statement (.ldxW rd rj rk) := fun _ =>
  ⟨_, _, row_in6 (k := 39) rfl, hits_of_key (enc3R_key 0x7010#17 rk rj rd) rfl,
    app3 Instr.ldxW (enc3R_f3 0x7010#17 rk rj rd) (enc3R_f2 0x7010#17 rk rj rd) (enc3R_f1 0x7010#17 rk rj rd)⟩

theorem Layout.ldxD (rd rj rk) : Layout.Statement (.ldxD rd rj rk) := fun _ =>
  ⟨_, _, row_in6 (k := 40) rfl, hits_of_key (enc3R_key 0x7018#17 rk rj rd) rfl,
    app3 Instr.ldxD (enc3R_f3 0x7018#17 rk rj rd) (enc3R_f2 0x7018#17 rk rj rd) (enc3R_f1 0x7018#17 rk rj rd)⟩

theorem Layout.stxB (rd rj rk) : Layout.Statement (.stxB rd rj rk) := fun _ =>
  ⟨_, _, row_in6 (k := 41) rfl, hits_of_key (enc3R_key 0x7020#17 rk rj rd) rfl,
    app3 Instr.stxB (enc3R_f3 0x7020#17 rk rj rd) (enc3R_f2 0x7020#17 rk rj rd) (enc3R_f1 0x7020#17 rk rj rd)⟩

theorem Layout.stxH (rd rj rk) : Layout.Statement (.stxH rd rj rk) := fun _ =>
  ⟨_, _, row_in6 (k := 42) rfl, hits_of_key (enc3R_key 0x7028#17 rk rj rd) rfl,
    app3 Instr.stxH (enc3R_f3 0x7028#17 rk rj rd) (enc3R_f2 0x7028#17 rk rj rd) (enc3R_f1 0x7028#17 rk rj rd)⟩

theorem Layout.stxW (rd rj rk) : Layout.Statement (.stxW rd rj rk) := fun _ =>
  ⟨_, _, row_in6 (k := 43) rfl, hits_of_key (enc3R_key 0x7030#17 rk rj rd) rfl,
    app3 Instr.stxW (enc3R_f3 0x7030#17 rk rj rd) (enc3R_f2 0x7030#17 rk rj rd) (enc3R_f1 0x7030#17 rk rj rd)⟩

theorem Layout.stxD (rd rj rk) : Layout.Statement (.stxD rd rj rk) := fun _ =>
  ⟨_, _, row_in6 (k := 44) rfl, hits_of_key (enc3R_key 0x7038#17 rk rj rd) rfl,
    app3 Instr.stxD (enc3R_f3 0x7038#17 rk rj rd) (enc3R_f2 0x7038#17 rk rj rd) (enc3R_f1 0x7038#17 rk rj rd)⟩

theorem Layout.ldxBu (rd rj rk) : Layout.Statement (.ldxBu rd rj rk) := fun _ =>
  ⟨_, _, row_in6 (k := 45) rfl, hits_of_key (enc3R_key 0x7040#17 rk rj rd) rfl,
    app3 Instr.ldxBu (enc3R_f3 0x7040#17 rk rj rd) (enc3R_f2 0x7040#17 rk rj rd) (enc3R_f1 0x7040#17 rk rj rd)⟩

theorem Layout.ldxHu (rd rj rk) : Layout.Statement (.ldxHu rd rj rk) := fun _ =>
  ⟨_, _, row_in6 (k := 46) rfl, hits_of_key (enc3R_key 0x7048#17 rk rj rd) rfl,
    app3 Instr.ldxHu (enc3R_f3 0x7048#17 rk rj rd) (enc3R_f2 0x7048#17 rk rj rd) (enc3R_f1 0x7048#17 rk rj rd)⟩

theorem Layout.ldxWu (rd rj rk) : Layout.Statement (.ldxWu rd rj rk) := fun _ =>
  ⟨_, _, row_in6 (k := 47) rfl, hits_of_key (enc3R_key 0x7050#17 rk rj rd) rfl,
    app3 Instr.ldxWu (enc3R_f3 0x7050#17 rk rj rd) (enc3R_f2 0x7050#17 rk rj rd) (enc3R_f1 0x7050#17 rk rj rd)⟩

theorem Layout.preldx (hint rj rk) : Layout.Statement (.preldx hint rj rk) := fun _ =>
  ⟨_, _, row_in6 (k := 48) rfl, hits_of_key (enc3R_key 0x7058#17 rk rj hint) rfl,
    app3 Instr.preldx (enc3R_f3 0x7058#17 rk rj hint) (enc3R_f2 0x7058#17 rk rj hint) (enc3R_f1 0x7058#17 rk rj hint)⟩

theorem Layout.fldxS (fd rj rk) : Layout.Statement (.fldxS fd rj rk) := fun _ =>
  ⟨_, _, row_in6 (k := 49) rfl, hits_of_key (enc3R_key 0x7060#17 rk rj fd) rfl,
    app3 Instr.fldxS (enc3R_f3 0x7060#17 rk rj fd) (enc3R_f2 0x7060#17 rk rj fd) (enc3R_f1 0x7060#17 rk rj fd)⟩

theorem Layout.fldxD (fd rj rk) : Layout.Statement (.fldxD fd rj rk) := fun _ =>
  ⟨_, _, row_in7 (k := 0) rfl, hits_of_key (enc3R_key 0x7068#17 rk rj fd) rfl,
    app3 Instr.fldxD (enc3R_f3 0x7068#17 rk rj fd) (enc3R_f2 0x7068#17 rk rj fd) (enc3R_f1 0x7068#17 rk rj fd)⟩

theorem Layout.fstxS (fd rj rk) : Layout.Statement (.fstxS fd rj rk) := fun _ =>
  ⟨_, _, row_in7 (k := 1) rfl, hits_of_key (enc3R_key 0x7070#17 rk rj fd) rfl,
    app3 Instr.fstxS (enc3R_f3 0x7070#17 rk rj fd) (enc3R_f2 0x7070#17 rk rj fd) (enc3R_f1 0x7070#17 rk rj fd)⟩

theorem Layout.fstxD (fd rj rk) : Layout.Statement (.fstxD fd rj rk) := fun _ =>
  ⟨_, _, row_in7 (k := 2) rfl, hits_of_key (enc3R_key 0x7078#17 rk rj fd) rfl,
    app3 Instr.fstxD (enc3R_f3 0x7078#17 rk rj fd) (enc3R_f2 0x7078#17 rk rj fd) (enc3R_f1 0x7078#17 rk rj fd)⟩

theorem Layout.scQ (rd rj rk) : Layout.Statement (.scQ rd rj rk) := fun _ =>
  ⟨_, _, row_in7 (k := 3) rfl, hits_of_key (enc3R_key 0x70ae#17 rk rj rd) rfl,
    app3 Instr.scQ (enc3R_f3 0x70ae#17 rk rj rd) (enc3R_f2 0x70ae#17 rk rj rd) (enc3R_f1 0x70ae#17 rk rj rd)⟩

theorem Layout.llacqW (rd rj) : Layout.Statement (.llacqW rd rj) := fun _ =>
  ⟨_, _, row_in7 (k := 4) rfl, hits_of_key (enc2R_key 0xe15e0#22 rj rd) rfl,
    app2 Instr.llacqW (enc2R_f2 0xe15e0#22 rj rd) (enc2R_f1 0xe15e0#22 rj rd)⟩

theorem Layout.screlW (rd rj) : Layout.Statement (.screlW rd rj) := fun _ =>
  ⟨_, _, row_in7 (k := 5) rfl, hits_of_key (enc2R_key 0xe15e1#22 rj rd) rfl,
    app2 Instr.screlW (enc2R_f2 0xe15e1#22 rj rd) (enc2R_f1 0xe15e1#22 rj rd)⟩

theorem Layout.llacqD (rd rj) : Layout.Statement (.llacqD rd rj) := fun _ =>
  ⟨_, _, row_in7 (k := 6) rfl, hits_of_key (enc2R_key 0xe15e2#22 rj rd) rfl,
    app2 Instr.llacqD (enc2R_f2 0xe15e2#22 rj rd) (enc2R_f1 0xe15e2#22 rj rd)⟩

theorem Layout.screlD (rd rj) : Layout.Statement (.screlD rd rj) := fun _ =>
  ⟨_, _, row_in7 (k := 7) rfl, hits_of_key (enc2R_key 0xe15e3#22 rj rd) rfl,
    app2 Instr.screlD (enc2R_f2 0xe15e3#22 rj rd) (enc2R_f1 0xe15e3#22 rj rd)⟩

theorem Layout.amcasB (rd rj rk) : Layout.Statement (.amcasB rd rj rk) := fun _ =>
  ⟨_, _, row_in7 (k := 8) rfl, hits_of_key (enc3R_key 0x70b0#17 rk rj rd) rfl,
    app3 Instr.amcasB (enc3R_f3 0x70b0#17 rk rj rd) (enc3R_f2 0x70b0#17 rk rj rd) (enc3R_f1 0x70b0#17 rk rj rd)⟩

theorem Layout.amcasH (rd rj rk) : Layout.Statement (.amcasH rd rj rk) := fun _ =>
  ⟨_, _, row_in7 (k := 9) rfl, hits_of_key (enc3R_key 0x70b1#17 rk rj rd) rfl,
    app3 Instr.amcasH (enc3R_f3 0x70b1#17 rk rj rd) (enc3R_f2 0x70b1#17 rk rj rd) (enc3R_f1 0x70b1#17 rk rj rd)⟩

theorem Layout.amcasW (rd rj rk) : Layout.Statement (.amcasW rd rj rk) := fun _ =>
  ⟨_, _, row_in7 (k := 10) rfl, hits_of_key (enc3R_key 0x70b2#17 rk rj rd) rfl,
    app3 Instr.amcasW (enc3R_f3 0x70b2#17 rk rj rd) (enc3R_f2 0x70b2#17 rk rj rd) (enc3R_f1 0x70b2#17 rk rj rd)⟩

theorem Layout.amcasD (rd rj rk) : Layout.Statement (.amcasD rd rj rk) := fun _ =>
  ⟨_, _, row_in7 (k := 11) rfl, hits_of_key (enc3R_key 0x70b3#17 rk rj rd) rfl,
    app3 Instr.amcasD (enc3R_f3 0x70b3#17 rk rj rd) (enc3R_f2 0x70b3#17 rk rj rd) (enc3R_f1 0x70b3#17 rk rj rd)⟩

theorem Layout.amcasDbB (rd rj rk) : Layout.Statement (.amcasDbB rd rj rk) := fun _ =>
  ⟨_, _, row_in7 (k := 12) rfl, hits_of_key (enc3R_key 0x70b4#17 rk rj rd) rfl,
    app3 Instr.amcasDbB (enc3R_f3 0x70b4#17 rk rj rd) (enc3R_f2 0x70b4#17 rk rj rd) (enc3R_f1 0x70b4#17 rk rj rd)⟩

theorem Layout.amcasDbH (rd rj rk) : Layout.Statement (.amcasDbH rd rj rk) := fun _ =>
  ⟨_, _, row_in7 (k := 13) rfl, hits_of_key (enc3R_key 0x70b5#17 rk rj rd) rfl,
    app3 Instr.amcasDbH (enc3R_f3 0x70b5#17 rk rj rd) (enc3R_f2 0x70b5#17 rk rj rd) (enc3R_f1 0x70b5#17 rk rj rd)⟩

theorem Layout.amcasDbW (rd rj rk) : Layout.Statement (.amcasDbW rd rj rk) := fun _ =>
  ⟨_, _, row_in7 (k := 14) rfl, hits_of_key (enc3R_key 0x70b6#17 rk rj rd) rfl,
    app3 Instr.amcasDbW (enc3R_f3 0x70b6#17 rk rj rd) (enc3R_f2 0x70b6#17 rk rj rd) (enc3R_f1 0x70b6#17 rk rj rd)⟩

theorem Layout.amcasDbD (rd rj rk) : Layout.Statement (.amcasDbD rd rj rk) := fun _ =>
  ⟨_, _, row_in7 (k := 15) rfl, hits_of_key (enc3R_key 0x70b7#17 rk rj rd) rfl,
    app3 Instr.amcasDbD (enc3R_f3 0x70b7#17 rk rj rd) (enc3R_f2 0x70b7#17 rk rj rd) (enc3R_f1 0x70b7#17 rk rj rd)⟩

theorem Layout.amswapB (rd rj rk) : Layout.Statement (.amswapB rd rj rk) := fun _ =>
  ⟨_, _, row_in7 (k := 16) rfl, hits_of_key (enc3R_key 0x70b8#17 rk rj rd) rfl,
    app3 Instr.amswapB (enc3R_f3 0x70b8#17 rk rj rd) (enc3R_f2 0x70b8#17 rk rj rd) (enc3R_f1 0x70b8#17 rk rj rd)⟩

theorem Layout.amswapH (rd rj rk) : Layout.Statement (.amswapH rd rj rk) := fun _ =>
  ⟨_, _, row_in7 (k := 17) rfl, hits_of_key (enc3R_key 0x70b9#17 rk rj rd) rfl,
    app3 Instr.amswapH (enc3R_f3 0x70b9#17 rk rj rd) (enc3R_f2 0x70b9#17 rk rj rd) (enc3R_f1 0x70b9#17 rk rj rd)⟩

theorem Layout.amaddB (rd rj rk) : Layout.Statement (.amaddB rd rj rk) := fun _ =>
  ⟨_, _, row_in7 (k := 18) rfl, hits_of_key (enc3R_key 0x70ba#17 rk rj rd) rfl,
    app3 Instr.amaddB (enc3R_f3 0x70ba#17 rk rj rd) (enc3R_f2 0x70ba#17 rk rj rd) (enc3R_f1 0x70ba#17 rk rj rd)⟩

theorem Layout.amaddH (rd rj rk) : Layout.Statement (.amaddH rd rj rk) := fun _ =>
  ⟨_, _, row_in7 (k := 19) rfl, hits_of_key (enc3R_key 0x70bb#17 rk rj rd) rfl,
    app3 Instr.amaddH (enc3R_f3 0x70bb#17 rk rj rd) (enc3R_f2 0x70bb#17 rk rj rd) (enc3R_f1 0x70bb#17 rk rj rd)⟩

theorem Layout.amswapDbB (rd rj rk) : Layout.Statement (.amswapDbB rd rj rk) := fun _ =>
  ⟨_, _, row_in7 (k := 20) rfl, hits_of_key (enc3R_key 0x70bc#17 rk rj rd) rfl,
    app3 Instr.amswapDbB (enc3R_f3 0x70bc#17 rk rj rd) (enc3R_f2 0x70bc#17 rk rj rd) (enc3R_f1 0x70bc#17 rk rj rd)⟩

theorem Layout.amswapDbH (rd rj rk) : Layout.Statement (.amswapDbH rd rj rk) := fun _ =>
  ⟨_, _, row_in7 (k := 21) rfl, hits_of_key (enc3R_key 0x70bd#17 rk rj rd) rfl,
    app3 Instr.amswapDbH (enc3R_f3 0x70bd#17 rk rj rd) (enc3R_f2 0x70bd#17 rk rj rd) (enc3R_f1 0x70bd#17 rk rj rd)⟩

theorem Layout.amaddDbB (rd rj rk) : Layout.Statement (.amaddDbB rd rj rk) := fun _ =>
  ⟨_, _, row_in7 (k := 22) rfl, hits_of_key (enc3R_key 0x70be#17 rk rj rd) rfl,
    app3 Instr.amaddDbB (enc3R_f3 0x70be#17 rk rj rd) (enc3R_f2 0x70be#17 rk rj rd) (enc3R_f1 0x70be#17 rk rj rd)⟩

theorem Layout.amaddDbH (rd rj rk) : Layout.Statement (.amaddDbH rd rj rk) := fun _ =>
  ⟨_, _, row_in7 (k := 23) rfl, hits_of_key (enc3R_key 0x70bf#17 rk rj rd) rfl,
    app3 Instr.amaddDbH (enc3R_f3 0x70bf#17 rk rj rd) (enc3R_f2 0x70bf#17 rk rj rd) (enc3R_f1 0x70bf#17 rk rj rd)⟩

theorem Layout.amswapW (rd rj rk) : Layout.Statement (.amswapW rd rj rk) := fun _ =>
  ⟨_, _, row_in7 (k := 24) rfl, hits_of_key (enc3R_key 0x70c0#17 rk rj rd) rfl,
    app3 Instr.amswapW (enc3R_f3 0x70c0#17 rk rj rd) (enc3R_f2 0x70c0#17 rk rj rd) (enc3R_f1 0x70c0#17 rk rj rd)⟩

theorem Layout.amswapD (rd rj rk) : Layout.Statement (.amswapD rd rj rk) := fun _ =>
  ⟨_, _, row_in7 (k := 25) rfl, hits_of_key (enc3R_key 0x70c1#17 rk rj rd) rfl,
    app3 Instr.amswapD (enc3R_f3 0x70c1#17 rk rj rd) (enc3R_f2 0x70c1#17 rk rj rd) (enc3R_f1 0x70c1#17 rk rj rd)⟩

theorem Layout.amaddW (rd rj rk) : Layout.Statement (.amaddW rd rj rk) := fun _ =>
  ⟨_, _, row_in7 (k := 26) rfl, hits_of_key (enc3R_key 0x70c2#17 rk rj rd) rfl,
    app3 Instr.amaddW (enc3R_f3 0x70c2#17 rk rj rd) (enc3R_f2 0x70c2#17 rk rj rd) (enc3R_f1 0x70c2#17 rk rj rd)⟩

theorem Layout.amaddD (rd rj rk) : Layout.Statement (.amaddD rd rj rk) := fun _ =>
  ⟨_, _, row_in7 (k := 27) rfl, hits_of_key (enc3R_key 0x70c3#17 rk rj rd) rfl,
    app3 Instr.amaddD (enc3R_f3 0x70c3#17 rk rj rd) (enc3R_f2 0x70c3#17 rk rj rd) (enc3R_f1 0x70c3#17 rk rj rd)⟩

theorem Layout.amandW (rd rj rk) : Layout.Statement (.amandW rd rj rk) := fun _ =>
  ⟨_, _, row_in7 (k := 28) rfl, hits_of_key (enc3R_key 0x70c4#17 rk rj rd) rfl,
    app3 Instr.amandW (enc3R_f3 0x70c4#17 rk rj rd) (enc3R_f2 0x70c4#17 rk rj rd) (enc3R_f1 0x70c4#17 rk rj rd)⟩

theorem Layout.amandD (rd rj rk) : Layout.Statement (.amandD rd rj rk) := fun _ =>
  ⟨_, _, row_in7 (k := 29) rfl, hits_of_key (enc3R_key 0x70c5#17 rk rj rd) rfl,
    app3 Instr.amandD (enc3R_f3 0x70c5#17 rk rj rd) (enc3R_f2 0x70c5#17 rk rj rd) (enc3R_f1 0x70c5#17 rk rj rd)⟩

theorem Layout.amorW (rd rj rk) : Layout.Statement (.amorW rd rj rk) := fun _ =>
  ⟨_, _, row_in7 (k := 30) rfl, hits_of_key (enc3R_key 0x70c6#17 rk rj rd) rfl,
    app3 Instr.amorW (enc3R_f3 0x70c6#17 rk rj rd) (enc3R_f2 0x70c6#17 rk rj rd) (enc3R_f1 0x70c6#17 rk rj rd)⟩

theorem Layout.amorD (rd rj rk) : Layout.Statement (.amorD rd rj rk) := fun _ =>
  ⟨_, _, row_in7 (k := 31) rfl, hits_of_key (enc3R_key 0x70c7#17 rk rj rd) rfl,
    app3 Instr.amorD (enc3R_f3 0x70c7#17 rk rj rd) (enc3R_f2 0x70c7#17 rk rj rd) (enc3R_f1 0x70c7#17 rk rj rd)⟩

theorem Layout.amxorW (rd rj rk) : Layout.Statement (.amxorW rd rj rk) := fun _ =>
  ⟨_, _, row_in7 (k := 32) rfl, hits_of_key (enc3R_key 0x70c8#17 rk rj rd) rfl,
    app3 Instr.amxorW (enc3R_f3 0x70c8#17 rk rj rd) (enc3R_f2 0x70c8#17 rk rj rd) (enc3R_f1 0x70c8#17 rk rj rd)⟩

theorem Layout.amxorD (rd rj rk) : Layout.Statement (.amxorD rd rj rk) := fun _ =>
  ⟨_, _, row_in7 (k := 33) rfl, hits_of_key (enc3R_key 0x70c9#17 rk rj rd) rfl,
    app3 Instr.amxorD (enc3R_f3 0x70c9#17 rk rj rd) (enc3R_f2 0x70c9#17 rk rj rd) (enc3R_f1 0x70c9#17 rk rj rd)⟩

theorem Layout.ammaxW (rd rj rk) : Layout.Statement (.ammaxW rd rj rk) := fun _ =>
  ⟨_, _, row_in7 (k := 34) rfl, hits_of_key (enc3R_key 0x70ca#17 rk rj rd) rfl,
    app3 Instr.ammaxW (enc3R_f3 0x70ca#17 rk rj rd) (enc3R_f2 0x70ca#17 rk rj rd) (enc3R_f1 0x70ca#17 rk rj rd)⟩

theorem Layout.ammaxD (rd rj rk) : Layout.Statement (.ammaxD rd rj rk) := fun _ =>
  ⟨_, _, row_in7 (k := 35) rfl, hits_of_key (enc3R_key 0x70cb#17 rk rj rd) rfl,
    app3 Instr.ammaxD (enc3R_f3 0x70cb#17 rk rj rd) (enc3R_f2 0x70cb#17 rk rj rd) (enc3R_f1 0x70cb#17 rk rj rd)⟩

theorem Layout.amminW (rd rj rk) : Layout.Statement (.amminW rd rj rk) := fun _ =>
  ⟨_, _, row_in7 (k := 36) rfl, hits_of_key (enc3R_key 0x70cc#17 rk rj rd) rfl,
    app3 Instr.amminW (enc3R_f3 0x70cc#17 rk rj rd) (enc3R_f2 0x70cc#17 rk rj rd) (enc3R_f1 0x70cc#17 rk rj rd)⟩

theorem Layout.amminD (rd rj rk) : Layout.Statement (.amminD rd rj rk) := fun _ =>
  ⟨_, _, row_in7 (k := 37) rfl, hits_of_key (enc3R_key 0x70cd#17 rk rj rd) rfl,
    app3 Instr.amminD (enc3R_f3 0x70cd#17 rk rj rd) (enc3R_f2 0x70cd#17 rk rj rd) (enc3R_f1 0x70cd#17 rk rj rd)⟩

theorem Layout.ammaxWu (rd rj rk) : Layout.Statement (.ammaxWu rd rj rk) := fun _ =>
  ⟨_, _, row_in7 (k := 38) rfl, hits_of_key (enc3R_key 0x70ce#17 rk rj rd) rfl,
    app3 Instr.ammaxWu (enc3R_f3 0x70ce#17 rk rj rd) (enc3R_f2 0x70ce#17 rk rj rd) (enc3R_f1 0x70ce#17 rk rj rd)⟩

theorem Layout.ammaxDu (rd rj rk) : Layout.Statement (.ammaxDu rd rj rk) := fun _ =>
  ⟨_, _, row_in7 (k := 39) rfl, hits_of_key (enc3R_key 0x70cf#17 rk rj rd) rfl,
    app3 Instr.ammaxDu (enc3R_f3 0x70cf#17 rk rj rd) (enc3R_f2 0x70cf#17 rk rj rd) (enc3R_f1 0x70cf#17 rk rj rd)⟩

theorem Layout.amminWu (rd rj rk) : Layout.Statement (.amminWu rd rj rk) := fun _ =>
  ⟨_, _, row_in7 (k := 40) rfl, hits_of_key (enc3R_key 0x70d0#17 rk rj rd) rfl,
    app3 Instr.amminWu (enc3R_f3 0x70d0#17 rk rj rd) (enc3R_f2 0x70d0#17 rk rj rd) (enc3R_f1 0x70d0#17 rk rj rd)⟩

theorem Layout.amminDu (rd rj rk) : Layout.Statement (.amminDu rd rj rk) := fun _ =>
  ⟨_, _, row_in7 (k := 41) rfl, hits_of_key (enc3R_key 0x70d1#17 rk rj rd) rfl,
    app3 Instr.amminDu (enc3R_f3 0x70d1#17 rk rj rd) (enc3R_f2 0x70d1#17 rk rj rd) (enc3R_f1 0x70d1#17 rk rj rd)⟩

theorem Layout.amswapDbW (rd rj rk) : Layout.Statement (.amswapDbW rd rj rk) := fun _ =>
  ⟨_, _, row_in7 (k := 42) rfl, hits_of_key (enc3R_key 0x70d2#17 rk rj rd) rfl,
    app3 Instr.amswapDbW (enc3R_f3 0x70d2#17 rk rj rd) (enc3R_f2 0x70d2#17 rk rj rd) (enc3R_f1 0x70d2#17 rk rj rd)⟩

theorem Layout.amswapDbD (rd rj rk) : Layout.Statement (.amswapDbD rd rj rk) := fun _ =>
  ⟨_, _, row_in7 (k := 43) rfl, hits_of_key (enc3R_key 0x70d3#17 rk rj rd) rfl,
    app3 Instr.amswapDbD (enc3R_f3 0x70d3#17 rk rj rd) (enc3R_f2 0x70d3#17 rk rj rd) (enc3R_f1 0x70d3#17 rk rj rd)⟩

theorem Layout.amaddDbW (rd rj rk) : Layout.Statement (.amaddDbW rd rj rk) := fun _ =>
  ⟨_, _, row_in7 (k := 44) rfl, hits_of_key (enc3R_key 0x70d4#17 rk rj rd) rfl,
    app3 Instr.amaddDbW (enc3R_f3 0x70d4#17 rk rj rd) (enc3R_f2 0x70d4#17 rk rj rd) (enc3R_f1 0x70d4#17 rk rj rd)⟩

theorem Layout.amaddDbD (rd rj rk) : Layout.Statement (.amaddDbD rd rj rk) := fun _ =>
  ⟨_, _, row_in7 (k := 45) rfl, hits_of_key (enc3R_key 0x70d5#17 rk rj rd) rfl,
    app3 Instr.amaddDbD (enc3R_f3 0x70d5#17 rk rj rd) (enc3R_f2 0x70d5#17 rk rj rd) (enc3R_f1 0x70d5#17 rk rj rd)⟩

theorem Layout.amandDbW (rd rj rk) : Layout.Statement (.amandDbW rd rj rk) := fun _ =>
  ⟨_, _, row_in7 (k := 46) rfl, hits_of_key (enc3R_key 0x70d6#17 rk rj rd) rfl,
    app3 Instr.amandDbW (enc3R_f3 0x70d6#17 rk rj rd) (enc3R_f2 0x70d6#17 rk rj rd) (enc3R_f1 0x70d6#17 rk rj rd)⟩

theorem Layout.amandDbD (rd rj rk) : Layout.Statement (.amandDbD rd rj rk) := fun _ =>
  ⟨_, _, row_in7 (k := 47) rfl, hits_of_key (enc3R_key 0x70d7#17 rk rj rd) rfl,
    app3 Instr.amandDbD (enc3R_f3 0x70d7#17 rk rj rd) (enc3R_f2 0x70d7#17 rk rj rd) (enc3R_f1 0x70d7#17 rk rj rd)⟩

theorem Layout.amorDbW (rd rj rk) : Layout.Statement (.amorDbW rd rj rk) := fun _ =>
  ⟨_, _, row_in7 (k := 48) rfl, hits_of_key (enc3R_key 0x70d8#17 rk rj rd) rfl,
    app3 Instr.amorDbW (enc3R_f3 0x70d8#17 rk rj rd) (enc3R_f2 0x70d8#17 rk rj rd) (enc3R_f1 0x70d8#17 rk rj rd)⟩

theorem Layout.amorDbD (rd rj rk) : Layout.Statement (.amorDbD rd rj rk) := fun _ =>
  ⟨_, _, row_in7 (k := 49) rfl, hits_of_key (enc3R_key 0x70d9#17 rk rj rd) rfl,
    app3 Instr.amorDbD (enc3R_f3 0x70d9#17 rk rj rd) (enc3R_f2 0x70d9#17 rk rj rd) (enc3R_f1 0x70d9#17 rk rj rd)⟩

theorem Layout.amxorDbW (rd rj rk) : Layout.Statement (.amxorDbW rd rj rk) := fun _ =>
  ⟨_, _, row_in8 (k := 0) rfl, hits_of_key (enc3R_key 0x70da#17 rk rj rd) rfl,
    app3 Instr.amxorDbW (enc3R_f3 0x70da#17 rk rj rd) (enc3R_f2 0x70da#17 rk rj rd) (enc3R_f1 0x70da#17 rk rj rd)⟩

theorem Layout.amxorDbD (rd rj rk) : Layout.Statement (.amxorDbD rd rj rk) := fun _ =>
  ⟨_, _, row_in8 (k := 1) rfl, hits_of_key (enc3R_key 0x70db#17 rk rj rd) rfl,
    app3 Instr.amxorDbD (enc3R_f3 0x70db#17 rk rj rd) (enc3R_f2 0x70db#17 rk rj rd) (enc3R_f1 0x70db#17 rk rj rd)⟩

theorem Layout.ammaxDbW (rd rj rk) : Layout.Statement (.ammaxDbW rd rj rk) := fun _ =>
  ⟨_, _, row_in8 (k := 2) rfl, hits_of_key (enc3R_key 0x70dc#17 rk rj rd) rfl,
    app3 Instr.ammaxDbW (enc3R_f3 0x70dc#17 rk rj rd) (enc3R_f2 0x70dc#17 rk rj rd) (enc3R_f1 0x70dc#17 rk rj rd)⟩

theorem Layout.ammaxDbD (rd rj rk) : Layout.Statement (.ammaxDbD rd rj rk) := fun _ =>
  ⟨_, _, row_in8 (k := 3) rfl, hits_of_key (enc3R_key 0x70dd#17 rk rj rd) rfl,
    app3 Instr.ammaxDbD (enc3R_f3 0x70dd#17 rk rj rd) (enc3R_f2 0x70dd#17 rk rj rd) (enc3R_f1 0x70dd#17 rk rj rd)⟩

theorem Layout.amminDbW (rd rj rk) : Layout.Statement (.amminDbW rd rj rk) := fun _ =>
  ⟨_, _, row_in8 (k := 4) rfl, hits_of_key (enc3R_key 0x70de#17 rk rj rd) rfl,
    app3 Instr.amminDbW (enc3R_f3 0x70de#17 rk rj rd) (enc3R_f2 0x70de#17 rk rj rd) (enc3R_f1 0x70de#17 rk rj rd)⟩

theorem Layout.amminDbD (rd rj rk) : Layout.Statement (.amminDbD rd rj rk) := fun _ =>
  ⟨_, _, row_in8 (k := 5) rfl, hits_of_key (enc3R_key 0x70df#17 rk rj rd) rfl,
    app3 Instr.amminDbD (enc3R_f3 0x70df#17 rk rj rd) (enc3R_f2 0x70df#17 rk rj rd) (enc3R_f1 0x70df#17 rk rj rd)⟩

theorem Layout.ammaxDbWu (rd rj rk) : Layout.Statement (.ammaxDbWu rd rj rk) := fun _ =>
  ⟨_, _, row_in8 (k := 6) rfl, hits_of_key (enc3R_key 0x70e0#17 rk rj rd) rfl,
    app3 Instr.ammaxDbWu (enc3R_f3 0x70e0#17 rk rj rd) (enc3R_f2 0x70e0#17 rk rj rd) (enc3R_f1 0x70e0#17 rk rj rd)⟩

theorem Layout.ammaxDbDu (rd rj rk) : Layout.Statement (.ammaxDbDu rd rj rk) := fun _ =>
  ⟨_, _, row_in8 (k := 7) rfl, hits_of_key (enc3R_key 0x70e1#17 rk rj rd) rfl,
    app3 Instr.ammaxDbDu (enc3R_f3 0x70e1#17 rk rj rd) (enc3R_f2 0x70e1#17 rk rj rd) (enc3R_f1 0x70e1#17 rk rj rd)⟩

theorem Layout.amminDbWu (rd rj rk) : Layout.Statement (.amminDbWu rd rj rk) := fun _ =>
  ⟨_, _, row_in8 (k := 8) rfl, hits_of_key (enc3R_key 0x70e2#17 rk rj rd) rfl,
    app3 Instr.amminDbWu (enc3R_f3 0x70e2#17 rk rj rd) (enc3R_f2 0x70e2#17 rk rj rd) (enc3R_f1 0x70e2#17 rk rj rd)⟩

theorem Layout.amminDbDu (rd rj rk) : Layout.Statement (.amminDbDu rd rj rk) := fun _ =>
  ⟨_, _, row_in8 (k := 9) rfl, hits_of_key (enc3R_key 0x70e3#17 rk rj rd) rfl,
    app3 Instr.amminDbDu (enc3R_f3 0x70e3#17 rk rj rd) (enc3R_f2 0x70e3#17 rk rj rd) (enc3R_f1 0x70e3#17 rk rj rd)⟩

theorem Layout.dbar (hint) : Layout.Statement (.dbar hint) := fun _ =>
  ⟨_, _, row_in8 (k := 10) rfl, hits_of_key (encCode15_key 0x70e4#17 hint) rfl,
    app1 Instr.dbar (encCode15_f1 0x70e4#17 hint)⟩

theorem Layout.ibar (hint) : Layout.Statement (.ibar hint) := fun _ =>
  ⟨_, _, row_in8 (k := 11) rfl, hits_of_key (encCode15_key 0x70e5#17 hint) rfl,
    app1 Instr.ibar (encCode15_f1 0x70e5#17 hint)⟩

theorem Layout.fldgtS (fd rj rk) : Layout.Statement (.fldgtS fd rj rk) := fun _ =>
  ⟨_, _, row_in8 (k := 12) rfl, hits_of_key (enc3R_key 0x70e8#17 rk rj fd) rfl,
    app3 Instr.fldgtS (enc3R_f3 0x70e8#17 rk rj fd) (enc3R_f2 0x70e8#17 rk rj fd) (enc3R_f1 0x70e8#17 rk rj fd)⟩

theorem Layout.fldgtD (fd rj rk) : Layout.Statement (.fldgtD fd rj rk) := fun _ =>
  ⟨_, _, row_in8 (k := 13) rfl, hits_of_key (enc3R_key 0x70e9#17 rk rj fd) rfl,
    app3 Instr.fldgtD (enc3R_f3 0x70e9#17 rk rj fd) (enc3R_f2 0x70e9#17 rk rj fd) (enc3R_f1 0x70e9#17 rk rj fd)⟩

theorem Layout.fldleS (fd rj rk) : Layout.Statement (.fldleS fd rj rk) := fun _ =>
  ⟨_, _, row_in8 (k := 14) rfl, hits_of_key (enc3R_key 0x70ea#17 rk rj fd) rfl,
    app3 Instr.fldleS (enc3R_f3 0x70ea#17 rk rj fd) (enc3R_f2 0x70ea#17 rk rj fd) (enc3R_f1 0x70ea#17 rk rj fd)⟩

theorem Layout.fldleD (fd rj rk) : Layout.Statement (.fldleD fd rj rk) := fun _ =>
  ⟨_, _, row_in8 (k := 15) rfl, hits_of_key (enc3R_key 0x70eb#17 rk rj fd) rfl,
    app3 Instr.fldleD (enc3R_f3 0x70eb#17 rk rj fd) (enc3R_f2 0x70eb#17 rk rj fd) (enc3R_f1 0x70eb#17 rk rj fd)⟩

theorem Layout.fstgtS (fd rj rk) : Layout.Statement (.fstgtS fd rj rk) := fun _ =>
  ⟨_, _, row_in8 (k := 16) rfl, hits_of_key (enc3R_key 0x70ec#17 rk rj fd) rfl,
    app3 Instr.fstgtS (enc3R_f3 0x70ec#17 rk rj fd) (enc3R_f2 0x70ec#17 rk rj fd) (enc3R_f1 0x70ec#17 rk rj fd)⟩

theorem Layout.fstgtD (fd rj rk) : Layout.Statement (.fstgtD fd rj rk) := fun _ =>
  ⟨_, _, row_in8 (k := 17) rfl, hits_of_key (enc3R_key 0x70ed#17 rk rj fd) rfl,
    app3 Instr.fstgtD (enc3R_f3 0x70ed#17 rk rj fd) (enc3R_f2 0x70ed#17 rk rj fd) (enc3R_f1 0x70ed#17 rk rj fd)⟩

theorem Layout.fstleS (fd rj rk) : Layout.Statement (.fstleS fd rj rk) := fun _ =>
  ⟨_, _, row_in8 (k := 18) rfl, hits_of_key (enc3R_key 0x70ee#17 rk rj fd) rfl,
    app3 Instr.fstleS (enc3R_f3 0x70ee#17 rk rj fd) (enc3R_f2 0x70ee#17 rk rj fd) (enc3R_f1 0x70ee#17 rk rj fd)⟩

theorem Layout.fstleD (fd rj rk) : Layout.Statement (.fstleD fd rj rk) := fun _ =>
  ⟨_, _, row_in8 (k := 19) rfl, hits_of_key (enc3R_key 0x70ef#17 rk rj fd) rfl,
    app3 Instr.fstleD (enc3R_f3 0x70ef#17 rk rj fd) (enc3R_f2 0x70ef#17 rk rj fd) (enc3R_f1 0x70ef#17 rk rj fd)⟩

theorem Layout.ldgtB (rd rj rk) : Layout.Statement (.ldgtB rd rj rk) := fun _ =>
  ⟨_, _, row_in8 (k := 20) rfl, hits_of_key (enc3R_key 0x70f0#17 rk rj rd) rfl,
    app3 Instr.ldgtB (enc3R_f3 0x70f0#17 rk rj rd) (enc3R_f2 0x70f0#17 rk rj rd) (enc3R_f1 0x70f0#17 rk rj rd)⟩

theorem Layout.ldgtH (rd rj rk) : Layout.Statement (.ldgtH rd rj rk) := fun _ =>
  ⟨_, _, row_in8 (k := 21) rfl, hits_of_key (enc3R_key 0x70f1#17 rk rj rd) rfl,
    app3 Instr.ldgtH (enc3R_f3 0x70f1#17 rk rj rd) (enc3R_f2 0x70f1#17 rk rj rd) (enc3R_f1 0x70f1#17 rk rj rd)⟩

theorem Layout.ldgtW (rd rj rk) : Layout.Statement (.ldgtW rd rj rk) := fun _ =>
  ⟨_, _, row_in8 (k := 22) rfl, hits_of_key (enc3R_key 0x70f2#17 rk rj rd) rfl,
    app3 Instr.ldgtW (enc3R_f3 0x70f2#17 rk rj rd) (enc3R_f2 0x70f2#17 rk rj rd) (enc3R_f1 0x70f2#17 rk rj rd)⟩

theorem Layout.ldgtD (rd rj rk) : Layout.Statement (.ldgtD rd rj rk) := fun _ =>
  ⟨_, _, row_in8 (k := 23) rfl, hits_of_key (enc3R_key 0x70f3#17 rk rj rd) rfl,
    app3 Instr.ldgtD (enc3R_f3 0x70f3#17 rk rj rd) (enc3R_f2 0x70f3#17 rk rj rd) (enc3R_f1 0x70f3#17 rk rj rd)⟩

theorem Layout.ldleB (rd rj rk) : Layout.Statement (.ldleB rd rj rk) := fun _ =>
  ⟨_, _, row_in8 (k := 24) rfl, hits_of_key (enc3R_key 0x70f4#17 rk rj rd) rfl,
    app3 Instr.ldleB (enc3R_f3 0x70f4#17 rk rj rd) (enc3R_f2 0x70f4#17 rk rj rd) (enc3R_f1 0x70f4#17 rk rj rd)⟩

theorem Layout.ldleH (rd rj rk) : Layout.Statement (.ldleH rd rj rk) := fun _ =>
  ⟨_, _, row_in8 (k := 25) rfl, hits_of_key (enc3R_key 0x70f5#17 rk rj rd) rfl,
    app3 Instr.ldleH (enc3R_f3 0x70f5#17 rk rj rd) (enc3R_f2 0x70f5#17 rk rj rd) (enc3R_f1 0x70f5#17 rk rj rd)⟩

theorem Layout.ldleW (rd rj rk) : Layout.Statement (.ldleW rd rj rk) := fun _ =>
  ⟨_, _, row_in8 (k := 26) rfl, hits_of_key (enc3R_key 0x70f6#17 rk rj rd) rfl,
    app3 Instr.ldleW (enc3R_f3 0x70f6#17 rk rj rd) (enc3R_f2 0x70f6#17 rk rj rd) (enc3R_f1 0x70f6#17 rk rj rd)⟩

theorem Layout.ldleD (rd rj rk) : Layout.Statement (.ldleD rd rj rk) := fun _ =>
  ⟨_, _, row_in8 (k := 27) rfl, hits_of_key (enc3R_key 0x70f7#17 rk rj rd) rfl,
    app3 Instr.ldleD (enc3R_f3 0x70f7#17 rk rj rd) (enc3R_f2 0x70f7#17 rk rj rd) (enc3R_f1 0x70f7#17 rk rj rd)⟩

theorem Layout.stgtB (rd rj rk) : Layout.Statement (.stgtB rd rj rk) := fun _ =>
  ⟨_, _, row_in8 (k := 28) rfl, hits_of_key (enc3R_key 0x70f8#17 rk rj rd) rfl,
    app3 Instr.stgtB (enc3R_f3 0x70f8#17 rk rj rd) (enc3R_f2 0x70f8#17 rk rj rd) (enc3R_f1 0x70f8#17 rk rj rd)⟩

theorem Layout.stgtH (rd rj rk) : Layout.Statement (.stgtH rd rj rk) := fun _ =>
  ⟨_, _, row_in8 (k := 29) rfl, hits_of_key (enc3R_key 0x70f9#17 rk rj rd) rfl,
    app3 Instr.stgtH (enc3R_f3 0x70f9#17 rk rj rd) (enc3R_f2 0x70f9#17 rk rj rd) (enc3R_f1 0x70f9#17 rk rj rd)⟩

theorem Layout.stgtW (rd rj rk) : Layout.Statement (.stgtW rd rj rk) := fun _ =>
  ⟨_, _, row_in8 (k := 30) rfl, hits_of_key (enc3R_key 0x70fa#17 rk rj rd) rfl,
    app3 Instr.stgtW (enc3R_f3 0x70fa#17 rk rj rd) (enc3R_f2 0x70fa#17 rk rj rd) (enc3R_f1 0x70fa#17 rk rj rd)⟩

theorem Layout.stgtD (rd rj rk) : Layout.Statement (.stgtD rd rj rk) := fun _ =>
  ⟨_, _, row_in8 (k := 31) rfl, hits_of_key (enc3R_key 0x70fb#17 rk rj rd) rfl,
    app3 Instr.stgtD (enc3R_f3 0x70fb#17 rk rj rd) (enc3R_f2 0x70fb#17 rk rj rd) (enc3R_f1 0x70fb#17 rk rj rd)⟩

theorem Layout.stleB (rd rj rk) : Layout.Statement (.stleB rd rj rk) := fun _ =>
  ⟨_, _, row_in8 (k := 32) rfl, hits_of_key (enc3R_key 0x70fc#17 rk rj rd) rfl,
    app3 Instr.stleB (enc3R_f3 0x70fc#17 rk rj rd) (enc3R_f2 0x70fc#17 rk rj rd) (enc3R_f1 0x70fc#17 rk rj rd)⟩

theorem Layout.stleH (rd rj rk) : Layout.Statement (.stleH rd rj rk) := fun _ =>
  ⟨_, _, row_in8 (k := 33) rfl, hits_of_key (enc3R_key 0x70fd#17 rk rj rd) rfl,
    app3 Instr.stleH (enc3R_f3 0x70fd#17 rk rj rd) (enc3R_f2 0x70fd#17 rk rj rd) (enc3R_f1 0x70fd#17 rk rj rd)⟩

theorem Layout.stleW (rd rj rk) : Layout.Statement (.stleW rd rj rk) := fun _ =>
  ⟨_, _, row_in8 (k := 34) rfl, hits_of_key (enc3R_key 0x70fe#17 rk rj rd) rfl,
    app3 Instr.stleW (enc3R_f3 0x70fe#17 rk rj rd) (enc3R_f2 0x70fe#17 rk rj rd) (enc3R_f1 0x70fe#17 rk rj rd)⟩

theorem Layout.stleD (rd rj rk) : Layout.Statement (.stleD rd rj rk) := fun _ =>
  ⟨_, _, row_in8 (k := 35) rfl, hits_of_key (enc3R_key 0x70ff#17 rk rj rd) rfl,
    app3 Instr.stleD (enc3R_f3 0x70ff#17 rk rj rd) (enc3R_f2 0x70ff#17 rk rj rd) (enc3R_f1 0x70ff#17 rk rj rd)⟩

theorem Layout.beqz (rj offs21) : Layout.Statement (.beqz rj offs21) := fun _ =>
  ⟨_, _, row_in8 (k := 36) rfl, hits_of_key (enc2RI16_key 0x10#6 (BitVec.extractLsb' 0 16 offs21) rj
      (BitVec.extractLsb' 16 5 offs21)) rfl,
    app2 Instr.beqz (enc2RI16_f2 0x10#6 (BitVec.extractLsb' 0 16 offs21) rj (BitVec.extractLsb' 16 5 offs21))
      ((app2 (· ++ ·) (enc2RI16_f3 0x10#6 (BitVec.extractLsb' 0 16 offs21) rj (BitVec.extractLsb' 16 5 offs21))
      (enc2RI16_f1 0x10#6 (BitVec.extractLsb' 0 16 offs21) rj (BitVec.extractLsb' 16 5 offs21))).trans
      (join_fields _))⟩

theorem Layout.bnez (rj offs21) : Layout.Statement (.bnez rj offs21) := fun _ =>
  ⟨_, _, row_in8 (k := 37) rfl, hits_of_key (enc2RI16_key 0x11#6 (BitVec.extractLsb' 0 16 offs21) rj
      (BitVec.extractLsb' 16 5 offs21)) rfl,
    app2 Instr.bnez (enc2RI16_f2 0x11#6 (BitVec.extractLsb' 0 16 offs21) rj (BitVec.extractLsb' 16 5 offs21))
      ((app2 (· ++ ·) (enc2RI16_f3 0x11#6 (BitVec.extractLsb' 0 16 offs21) rj (BitVec.extractLsb' 16 5 offs21))
      (enc2RI16_f1 0x11#6 (BitVec.extractLsb' 0 16 offs21) rj (BitVec.extractLsb' 16 5 offs21))).trans
      (join_fields _))⟩

theorem Layout.bceqz (cj offs21) : Layout.Statement (.bceqz cj offs21) := fun _ =>
  ⟨_, _, row_in8 (k := 38) rfl, hits_of_key (encBceqz_key 0x12#6 (BitVec.extractLsb' 0 16 offs21) cj
      (BitVec.extractLsb' 16 5 offs21)) rfl,
    app2 Instr.bceqz (encBceqz_f2 0x12#6 (BitVec.extractLsb' 0 16 offs21) cj (BitVec.extractLsb' 16 5 offs21))
      ((app2 (· ++ ·) (encBceqz_f3 0x12#6 (BitVec.extractLsb' 0 16 offs21) cj (BitVec.extractLsb' 16 5 offs21))
      (encBceqz_f1 0x12#6 (BitVec.extractLsb' 0 16 offs21) cj (BitVec.extractLsb' 16 5 offs21))).trans
      (join_fields _))⟩

theorem Layout.bcnez (cj offs21) : Layout.Statement (.bcnez cj offs21) := fun _ =>
  ⟨_, _, row_in8 (k := 39) rfl, hits_of_key (encBcnez_key 0x12#6 (BitVec.extractLsb' 0 16 offs21) cj
      (BitVec.extractLsb' 16 5 offs21)) rfl,
    app2 Instr.bcnez (encBcnez_f2 0x12#6 (BitVec.extractLsb' 0 16 offs21) cj (BitVec.extractLsb' 16 5 offs21))
      ((app2 (· ++ ·) (encBcnez_f3 0x12#6 (BitVec.extractLsb' 0 16 offs21) cj (BitVec.extractLsb' 16 5 offs21))
      (encBcnez_f1 0x12#6 (BitVec.extractLsb' 0 16 offs21) cj (BitVec.extractLsb' 16 5 offs21))).trans
      (join_fields _))⟩

theorem Layout.jirl (rd rj offs16) : Layout.Statement (.jirl rd rj offs16) := fun _ =>
  ⟨_, _, row_in8 (k := 40) rfl, hits_of_key (enc2RI16_key 0x13#6 offs16 rj rd) rfl,
    app3 Instr.jirl (enc2RI16_f3 0x13#6 offs16 rj rd) (enc2RI16_f2 0x13#6 offs16 rj rd)
      (enc2RI16_f1 0x13#6 offs16 rj rd)⟩

theorem Layout.b (offs26) : Layout.Statement (.b offs26) := fun _ =>
  ⟨_, _, row_in8 (k := 41) rfl, hits_of_key (encI26_key 0x14#6 (BitVec.extractLsb' 0 16 offs26)
      (BitVec.extractLsb' 16 10 offs26)) rfl,
    app1 Instr.b ((app2 (· ++ ·) (encI26_f2 0x14#6 (BitVec.extractLsb' 0 16 offs26)
      (BitVec.extractLsb' 16 10 offs26)) (encI26_f1 0x14#6 (BitVec.extractLsb' 0 16 offs26)
      (BitVec.extractLsb' 16 10 offs26))).trans (join_fields _))⟩

theorem Layout.bl (offs26) : Layout.Statement (.bl offs26) := fun _ =>
  ⟨_, _, row_in8 (k := 42) rfl, hits_of_key (encI26_key 0x15#6 (BitVec.extractLsb' 0 16 offs26)
      (BitVec.extractLsb' 16 10 offs26)) rfl,
    app1 Instr.bl ((app2 (· ++ ·) (encI26_f2 0x15#6 (BitVec.extractLsb' 0 16 offs26)
      (BitVec.extractLsb' 16 10 offs26)) (encI26_f1 0x15#6 (BitVec.extractLsb' 0 16 offs26)
      (BitVec.extractLsb' 16 10 offs26))).trans (join_fields _))⟩

theorem Layout.beq (rj rd offs16) : Layout.Statement (.beq rj rd offs16) := fun _ =>
  ⟨_, _, row_in8 (k := 43) rfl, hits_of_key (enc2RI16_key 0x16#6 offs16 rj rd) rfl,
    app3 Instr.beq (enc2RI16_f2 0x16#6 offs16 rj rd) (enc2RI16_f3 0x16#6 offs16 rj rd)
      (enc2RI16_f1 0x16#6 offs16 rj rd)⟩

theorem Layout.bne (rj rd offs16) : Layout.Statement (.bne rj rd offs16) := fun _ =>
  ⟨_, _, row_in8 (k := 44) rfl, hits_of_key (enc2RI16_key 0x17#6 offs16 rj rd) rfl,
    app3 Instr.bne (enc2RI16_f2 0x17#6 offs16 rj rd) (enc2RI16_f3 0x17#6 offs16 rj rd)
      (enc2RI16_f1 0x17#6 offs16 rj rd)⟩

theorem Layout.blt (rj rd offs16) : Layout.Statement (.blt rj rd offs16) := fun _ =>
  ⟨_, _, row_in8 (k := 45) rfl, hits_of_key (enc2RI16_key 0x18#6 offs16 rj rd) rfl,
    app3 Instr.blt (enc2RI16_f2 0x18#6 offs16 rj rd) (enc2RI16_f3 0x18#6 offs16 rj rd)
      (enc2RI16_f1 0x18#6 offs16 rj rd)⟩

theorem Layout.bge (rj rd offs16) : Layout.Statement (.bge rj rd offs16) := fun _ =>
  ⟨_, _, row_in8 (k := 46) rfl, hits_of_key (enc2RI16_key 0x19#6 offs16 rj rd) rfl,
    app3 Instr.bge (enc2RI16_f2 0x19#6 offs16 rj rd) (enc2RI16_f3 0x19#6 offs16 rj rd)
      (enc2RI16_f1 0x19#6 offs16 rj rd)⟩

theorem Layout.bltu (rj rd offs16) : Layout.Statement (.bltu rj rd offs16) := fun _ =>
  ⟨_, _, row_in8 (k := 47) rfl, hits_of_key (enc2RI16_key 0x1a#6 offs16 rj rd) rfl,
    app3 Instr.bltu (enc2RI16_f2 0x1a#6 offs16 rj rd) (enc2RI16_f3 0x1a#6 offs16 rj rd)
      (enc2RI16_f1 0x1a#6 offs16 rj rd)⟩

theorem Layout.bgeu (rj rd offs16) : Layout.Statement (.bgeu rj rd offs16) := fun _ =>
  ⟨_, _, row_in8 (k := 48) rfl, hits_of_key (enc2RI16_key 0x1b#6 offs16 rj rd) rfl,
    app3 Instr.bgeu (enc2RI16_f2 0x1b#6 offs16 rj rd) (enc2RI16_f3 0x1b#6 offs16 rj rd)
      (enc2RI16_f1 0x1b#6 offs16 rj rd)⟩

end Sys2Proof.Laws
end

