-- ==== Sys2Proof/Laws/Tlb.lean ====
section
/-! SUPPORT. The TLB's list keeps its form under every operation of Machine/Tlb.lean. -/

namespace Sys2Proof.Machine

/-- An entry that may stand at index `i`: the index exists, and an STLB entry stores no page size. -/
def slotOk (i : Nat) (e : TlbEntry) : Bool := decide (i < Config.tlbEntries) && (!isStlb i || e.ps == 0#6)

theorem tlbWfFrom_cons {lo i : Nat} {e : TlbEntry} {t : List (Nat × TlbEntry)} :
    tlbWfFrom lo ((i, e) :: t) = true ↔ lo ≤ i ∧ slotOk i e = true ∧ tlbWfFrom (i + 1) t = true := by
  simp [tlbWfFrom, slotOk, and_assoc]

theorem tlbWfFrom_mono {lo hi : Nat} {t : List (Nat × TlbEntry)} (hl : lo ≤ hi) (h : tlbWfFrom hi t = true) :
    tlbWfFrom lo t = true := by
  cases t with
  | nil => rfl
  | cons p t =>
    obtain ⟨i, e⟩ := p
    rw [tlbWfFrom_cons] at h ⊢
    exact ⟨le_trans hl h.1, h.2⟩

/-- Leaving entries out keeps the form (49_privileged.md R835, R836, R838). -/
theorem tlbWfFrom_filter {lo : Nat} {t : List (Nat × TlbEntry)} (f : Nat × TlbEntry → Bool)
    (h : tlbWfFrom lo t = true) : tlbWfFrom lo (t.filter f) = true := by
  induction t generalizing lo with
  | nil => rfl
  | cons p t ih =>
    obtain ⟨i, e⟩ := p
    rw [tlbWfFrom_cons] at h
    by_cases hf : f (i, e) = true
    · rw [List.filter_cons_of_pos hf, tlbWfFrom_cons]
      exact ⟨h.1, h.2.1, ih h.2.2⟩
    · rw [List.filter_cons_of_neg hf]
      exact tlbWfFrom_mono (by omega) (ih h.2.2)

theorem tlbWf_filter {t : List (Nat × TlbEntry)} (f : Nat × TlbEntry → Bool) (h : tlbWf t = true) :
    tlbWf (t.filter f) = true := tlbWfFrom_filter f h

/-- Writing an entry that may stand at its index keeps the form (R833, R834). -/
theorem tlbWfFrom_put {lo i : Nat} {o : Option TlbEntry} {t : List (Nat × TlbEntry)} (h : tlbWfFrom lo t = true)
    (hi : lo ≤ i) (ho : ∀ e, o = some e → slotOk i e = true) : tlbWfFrom lo (tlbPut t i o) = true := by
  induction t generalizing lo with
  | nil =>
    cases o with
    | none => rfl
    | some e => rw [tlbPut, tlbWfFrom_cons]; exact ⟨hi, ho e rfl, rfl⟩
  | cons p t ih =>
    obtain ⟨j, d⟩ := p
    rw [tlbWfFrom_cons] at h
    simp only [tlbPut]
    split
    · cases o with
      | none => exact tlbWfFrom_cons.2 h
      | some e => exact tlbWfFrom_cons.2 ⟨hi, ho e rfl, tlbWfFrom_cons.2 ⟨by omega, h.2⟩⟩
    · split
      · rename_i _ hij
        subst hij
        cases o with
        | none => exact tlbWfFrom_mono (by omega) h.2.2
        | some e => exact tlbWfFrom_cons.2 ⟨hi, ho e rfl, h.2.2⟩
      · exact tlbWfFrom_cons.2 ⟨h.1, h.2.1, ih h.2.2 (by omega)⟩

theorem tlbWf_put {i : Nat} {o : Option TlbEntry} {t : List (Nat × TlbEntry)} (h : tlbWf t = true)
    (ho : ∀ e, o = some e → slotOk i e = true) : tlbWf (tlbPut t i o) = true := tlbWfFrom_put h (Nat.zero_le i) ho

/-- What TLBWR and TLBFILL write may stand at any index of the TLB. -/
theorem newTlb_slotOk {s : State} {i : Nat} (hi : i < Config.tlbEntries) {e : TlbEntry}
    (h : s.newTlb (isStlb i) = some e) : slotOk i e = true := by
  simp only [State.newTlb] at h
  split at h
  · cases h
    cases hb : isStlb i <;> simp [slotOk, State.newEntry, hb, hi]
  · cases h

/-- A set of the STLB is one of its 256 (R261). -/
theorem stlbSetOf_lt (s : State) (va12 : Bool) : s.stlbSetOf va12 < 256 := Nat.mod_lt _ (by decide)

/-- TLBFILL chooses an index of the TLB (R833). -/
theorem fillIndex_lt (s : State) (n : Nat) : s.fillIndex n < Config.tlbEntries := by
  unfold State.fillIndex
  split
  · have h := stlbSetOf_lt s (decide (n / Config.stlbWays % 2 = 1))
    change n % 8 * 256 + s.stlbSetOf _ < 2112
    omega
  · change 2048 + n % 64 < 2112
    omega

/-! ## Lookups -/

/-- A lookup that answers examined entries of supported sizes alone, and found the one that matches, or none. -/
theorem State.tlbFind_ok {s : State} {va : Word} {o : Option (Nat × TlbEntry)} (h : s.tlbFind va = .ok o) :
    s.tlbSizesBad = false ∧ s.tlb.filter (s.tlbMatches s.asid va) = o.toList := by
  unfold State.tlbFind at h
  split at h
  · cases h
  · rename_i hb
    refine ⟨by simpa using hb, ?_⟩
    split at h
    · rename_i hf; cases h; exact hf
    · rename_i hf; cases h; exact hf
    · cases h

end Sys2Proof.Machine
end

