-- ==== Sys2Proof/Tests/Slice0.lean ====
section
/-! SUPPORT. Tests: words of the spec's examples and words written out bit by bit from the encodings decode to their
instructions; the well-formedness check; single steps whose results come from the examples of the rules and from
95_test_vectors.md; and for each statement with hypotheses a state and operands that meet them. -/

/-! ## Words of the examples, chapter by chapter -/

namespace Sys2Proof

/-- Example words of 40_int_arith.md (and 95_test_vectors.md). -/
theorem test_decode_int_arith_1 :
    decode 0x000498a4#32 = some (.alslW 4 5 6 1) ∧
    decode 0x000798a4#32 = some (.alslWu 4 5 6 3) ∧
    decode 0x001018a4#32 = some (.addW 4 5 6) ∧
    decode 0x001098a4#32 = some (.addD 4 5 6) ∧
    decode 0x001118a4#32 = some (.subW 4 5 6) ∧
    decode 0x001198a4#32 = some (.subD 4 5 6) ∧
    decode 0x001218a4#32 = some (.slt 4 5 6) ∧
    decode 0x001298a4#32 = some (.sltu 4 5 6) ∧
    decode 0x001418a4#32 = some (.nor 4 5 6) ∧
    decode 0x001498a4#32 = some (.and 4 5 6) ∧
    decode 0x001518a4#32 = some (.or 4 5 6) ∧
    decode 0x001598a4#32 = some (.xor 4 5 6) ∧
    decode 0x001618a4#32 = some (.orn 4 5 6) ∧
    decode 0x001698a4#32 = some (.andn 4 5 6) ∧
    decode 0x001c18a4#32 = some (.mulW 4 5 6) ∧
    decode 0x001c98a4#32 = some (.mulhW 4 5 6) ∧
    decode 0x001d18a4#32 = some (.mulhWu 4 5 6) ∧
    decode 0x001d98a4#32 = some (.mulD 4 5 6) ∧
    decode 0x001e18a4#32 = some (.mulhD 4 5 6) ∧
    decode 0x001e98a4#32 = some (.mulhDu 4 5 6) ∧
    decode 0x001f18a4#32 = some (.mulwDW 4 5 6) ∧
    decode 0x001f98a4#32 = some (.mulwDWu 4 5 6) ∧
    decode 0x002018a4#32 = some (.divW 4 5 6) ∧
    decode 0x002098a4#32 = some (.modW 4 5 6) ∧
    decode 0x002118a4#32 = some (.divWu 4 5 6) ∧
    decode 0x002198a4#32 = some (.modWu 4 5 6) ∧
    decode 0x002218a4#32 = some (.divD 4 5 6) ∧
    decode 0x002298a4#32 = some (.modD 4 5 6) ∧
    decode 0x002318a4#32 = some (.divDu 4 5 6) ∧
    decode 0x002398a4#32 = some (.modDu 4 5 6) ∧
    decode 0x002d98a4#32 = some (.alslD 4 5 6 3) ∧
    decode 0x023ffca4#32 = some (.slti 4 5 4095) ∧
    decode 0x027ffca4#32 = some (.sltui 4 5 4095) ∧
    decode 0x02bffca4#32 = some (.addiW 4 5 4095) ∧
    decode 0x02e000a4#32 = some (.addiD 4 5 2048) ∧
    decode 0x032000a4#32 = some (.lu52iD 4 5 2048) ∧
    decode 0x037ffca4#32 = some (.andi 4 5 4095) ∧
    decode 0x03a000a4#32 = some (.ori 4 5 2048) ∧
    decode 0x03fffca4#32 = some (.xori 4 5 4095) ∧
    decode 0x120000a4#32 = some (.addu16iD 4 5 32768) :=
  ⟨decode_row (row_in1 (k := 26) rfl) (by decide) rfl,
   decode_row (row_in1 (k := 27) rfl) (by decide) rfl,
   decode_row (row_in1 (k := 30) rfl) (by decide) rfl,
   decode_row (row_in1 (k := 31) rfl) (by decide) rfl,
   decode_row (row_in1 (k := 32) rfl) (by decide) rfl,
   decode_row (row_in1 (k := 33) rfl) (by decide) rfl,
   decode_row (row_in1 (k := 34) rfl) (by decide) rfl,
   decode_row (row_in1 (k := 35) rfl) (by decide) rfl,
   decode_row (row_in1 (k := 38) rfl) (by decide) rfl,
   decode_row (row_in1 (k := 39) rfl) (by decide) rfl,
   decode_row (row_in1 (k := 40) rfl) (by decide) rfl,
   decode_row (row_in1 (k := 41) rfl) (by decide) rfl,
   decode_row (row_in1 (k := 42) rfl) (by decide) rfl,
   decode_row (row_in1 (k := 43) rfl) (by decide) rfl,
   decode_row (row_in2 (k := 2) rfl) (by decide) rfl,
   decode_row (row_in2 (k := 3) rfl) (by decide) rfl,
   decode_row (row_in2 (k := 4) rfl) (by decide) rfl,
   decode_row (row_in2 (k := 5) rfl) (by decide) rfl,
   decode_row (row_in2 (k := 6) rfl) (by decide) rfl,
   decode_row (row_in2 (k := 7) rfl) (by decide) rfl,
   decode_row (row_in2 (k := 8) rfl) (by decide) rfl,
   decode_row (row_in2 (k := 9) rfl) (by decide) rfl,
   decode_row (row_in2 (k := 10) rfl) (by decide) rfl,
   decode_row (row_in2 (k := 11) rfl) (by decide) rfl,
   decode_row (row_in2 (k := 12) rfl) (by decide) rfl,
   decode_row (row_in2 (k := 13) rfl) (by decide) rfl,
   decode_row (row_in2 (k := 14) rfl) (by decide) rfl,
   decode_row (row_in2 (k := 15) rfl) (by decide) rfl,
   decode_row (row_in2 (k := 16) rfl) (by decide) rfl,
   decode_row (row_in2 (k := 17) rfl) (by decide) rfl,
   decode_row (row_in2 (k := 29) rfl) (by decide) rfl,
   decode_row (row_in4 (k := 22) rfl) (by decide) rfl,
   decode_row (row_in4 (k := 23) rfl) (by decide) rfl,
   decode_row (row_in4 (k := 24) rfl) (by decide) rfl,
   decode_row (row_in4 (k := 25) rfl) (by decide) rfl,
   decode_row (row_in4 (k := 26) rfl) (by decide) rfl,
   decode_row (row_in4 (k := 27) rfl) (by decide) rfl,
   decode_row (row_in4 (k := 28) rfl) (by decide) rfl,
   decode_row (row_in4 (k := 29) rfl) (by decide) rfl,
   decode_row (row_in6 (k := 6) rfl) (by decide) rfl⟩

/-- Example words of 40_int_arith.md (and 95_test_vectors.md). -/
theorem test_decode_int_arith_2 :
    decode 0x15000004#32 = some (.lu12iW 4 524288) ∧
    decode 0x17ffffe4#32 = some (.lu32iD 4 1048575) ∧
    decode 0x19ffffe4#32 = some (.pcaddi 4 1048575) ∧
    decode 0x1a000024#32 = some (.pcalau12i 4 1) ∧
    decode 0x1c000024#32 = some (.pcaddu12i 4 1) ∧
    decode 0x1e000024#32 = some (.pcaddu18i 4 1) :=
  ⟨decode_row (row_in6 (k := 7) rfl) (by decide) rfl,
   decode_row (row_in6 (k := 8) rfl) (by decide) rfl,
   decode_row (row_in6 (k := 9) rfl) (by decide) rfl,
   decode_row (row_in6 (k := 10) rfl) (by decide) rfl,
   decode_row (row_in6 (k := 11) rfl) (by decide) rfl,
   decode_row (row_in6 (k := 12) rfl) (by decide) rfl⟩

/-- Example words of 41_int_shift_bit.md (and 95_test_vectors.md). -/
theorem test_decode_shift_bit_1 :
    decode 0x000010a4#32 = some (.cloW 4 5) ∧
    decode 0x000014a4#32 = some (.clzW 4 5) ∧
    decode 0x000018a4#32 = some (.ctoW 4 5) ∧
    decode 0x00001ca4#32 = some (.ctzW 4 5) ∧
    decode 0x000020a4#32 = some (.cloD 4 5) ∧
    decode 0x000024a4#32 = some (.clzD 4 5) ∧
    decode 0x000028a4#32 = some (.ctoD 4 5) ∧
    decode 0x00002ca4#32 = some (.ctzD 4 5) ∧
    decode 0x000030a4#32 = some (.revb2H 4 5) ∧
    decode 0x000034a4#32 = some (.revb4H 4 5) ∧
    decode 0x000038a4#32 = some (.revb2W 4 5) ∧
    decode 0x00003ca4#32 = some (.revbD 4 5) ∧
    decode 0x000040a4#32 = some (.revh2W 4 5) ∧
    decode 0x000044a4#32 = some (.revhD 4 5) ∧
    decode 0x000048a4#32 = some (.bitrev4B 4 5) ∧
    decode 0x00004ca4#32 = some (.bitrev8B 4 5) ∧
    decode 0x000050a4#32 = some (.bitrevW 4 5) ∧
    decode 0x000054a4#32 = some (.bitrevD 4 5) ∧
    decode 0x000058a4#32 = some (.extWH 4 5) ∧
    decode 0x00005ca4#32 = some (.extWB 4 5) ∧
    decode 0x000898a4#32 = some (.bytepickW 4 5 6 1) ∧
    decode 0x000d98a4#32 = some (.bytepickD 4 5 6 3) ∧
    decode 0x001318a4#32 = some (.maskeqz 4 5 6) ∧
    decode 0x001398a4#32 = some (.masknez 4 5 6) ∧
    decode 0x001718a4#32 = some (.sllW 4 5 6) ∧
    decode 0x001798a4#32 = some (.srlW 4 5 6) ∧
    decode 0x001818a4#32 = some (.sraW 4 5 6) ∧
    decode 0x001898a4#32 = some (.sllD 4 5 6) ∧
    decode 0x001918a4#32 = some (.srlD 4 5 6) ∧
    decode 0x001998a4#32 = some (.sraD 4 5 6) ∧
    decode 0x001b18a4#32 = some (.rotrW 4 5 6) ∧
    decode 0x001b98a4#32 = some (.rotrD 4 5 6) ∧
    decode 0x0040fca4#32 = some (.slliW 4 5 31) ∧
    decode 0x004180a4#32 = some (.slliD 4 5 32) ∧
    decode 0x004490a4#32 = some (.srliW 4 5 4) ∧
    decode 0x004580a4#32 = some (.srliD 4 5 32) ∧
    decode 0x004890a4#32 = some (.sraiW 4 5 4) ∧
    decode 0x0049fca4#32 = some (.sraiD 4 5 63) ∧
    decode 0x004ca0a4#32 = some (.rotriW 4 5 8) ∧
    decode 0x004d40a4#32 = some (.rotriD 4 5 16) :=
  ⟨decode_row (row_in1 (k := 0) rfl) (by decide) rfl,
   decode_row (row_in1 (k := 1) rfl) (by decide) rfl,
   decode_row (row_in1 (k := 2) rfl) (by decide) rfl,
   decode_row (row_in1 (k := 3) rfl) (by decide) rfl,
   decode_row (row_in1 (k := 4) rfl) (by decide) rfl,
   decode_row (row_in1 (k := 5) rfl) (by decide) rfl,
   decode_row (row_in1 (k := 6) rfl) (by decide) rfl,
   decode_row (row_in1 (k := 7) rfl) (by decide) rfl,
   decode_row (row_in1 (k := 8) rfl) (by decide) rfl,
   decode_row (row_in1 (k := 9) rfl) (by decide) rfl,
   decode_row (row_in1 (k := 10) rfl) (by decide) rfl,
   decode_row (row_in1 (k := 11) rfl) (by decide) rfl,
   decode_row (row_in1 (k := 12) rfl) (by decide) rfl,
   decode_row (row_in1 (k := 13) rfl) (by decide) rfl,
   decode_row (row_in1 (k := 14) rfl) (by decide) rfl,
   decode_row (row_in1 (k := 15) rfl) (by decide) rfl,
   decode_row (row_in1 (k := 16) rfl) (by decide) rfl,
   decode_row (row_in1 (k := 17) rfl) (by decide) rfl,
   decode_row (row_in1 (k := 18) rfl) (by decide) rfl,
   decode_row (row_in1 (k := 19) rfl) (by decide) rfl,
   decode_row (row_in1 (k := 28) rfl) (by decide) rfl,
   decode_row (row_in1 (k := 29) rfl) (by decide) rfl,
   decode_row (row_in1 (k := 36) rfl) (by decide) rfl,
   decode_row (row_in1 (k := 37) rfl) (by decide) rfl,
   decode_row (row_in1 (k := 44) rfl) (by decide) rfl,
   decode_row (row_in1 (k := 45) rfl) (by decide) rfl,
   decode_row (row_in1 (k := 46) rfl) (by decide) rfl,
   decode_row (row_in1 (k := 47) rfl) (by decide) rfl,
   decode_row (row_in1 (k := 48) rfl) (by decide) rfl,
   decode_row (row_in1 (k := 49) rfl) (by decide) rfl,
   decode_row (row_in2 (k := 0) rfl) (by decide) rfl,
   decode_row (row_in2 (k := 1) rfl) (by decide) rfl,
   decode_row (row_in2 (k := 30) rfl) (by decide) rfl,
   decode_row (row_in2 (k := 31) rfl) (by decide) rfl,
   decode_row (row_in2 (k := 32) rfl) (by decide) rfl,
   decode_row (row_in2 (k := 33) rfl) (by decide) rfl,
   decode_row (row_in2 (k := 34) rfl) (by decide) rfl,
   decode_row (row_in2 (k := 35) rfl) (by decide) rfl,
   decode_row (row_in2 (k := 36) rfl) (by decide) rfl,
   decode_row (row_in2 (k := 37) rfl) (by decide) rfl⟩

/-- Example words of 41_int_shift_bit.md (and 95_test_vectors.md). -/
theorem test_decode_shift_bit_2 :
    decode 0x006f20a4#32 = some (.bstrinsW 4 5 15 8) ∧
    decode 0x007fe0a4#32 = some (.bstrpickW 4 5 31 24) ∧
    decode 0x00bf80a4#32 = some (.bstrinsD 4 5 63 32) ∧
    decode 0x00ef40a4#32 = some (.bstrpickD 4 5 47 16) :=
  ⟨decode_row (row_in2 (k := 38) rfl) (by decide) rfl,
   decode_row (row_in2 (k := 39) rfl) (by decide) rfl,
   decode_row (row_in2 (k := 40) rfl) (by decide) rfl,
   decode_row (row_in2 (k := 41) rfl) (by decide) rfl⟩

/-- Example words of 42_branch.md (and 95_test_vectors.md). -/
theorem test_decode_branch :
    decode 0x400000a1#32 = some (.beqz 5 65536) ∧
    decode 0x44000ca0#32 = some (.bnez 5 3) ∧
    decode 0x4c0008a1#32 = some (.jirl 1 5 2) ∧
    decode 0x53ffffff#32 = some (.b 67108863) ∧
    decode 0x54040000#32 = some (.bl 256) ∧
    decode 0x580010a6#32 = some (.beq 5 6 4) ∧
    decode 0x5ffffca6#32 = some (.bne 5 6 65535) ∧
    decode 0x600010a6#32 = some (.blt 5 6 4) ∧
    decode 0x640010a6#32 = some (.bge 5 6 4) ∧
    decode 0x680010a6#32 = some (.bltu 5 6 4) ∧
    decode 0x6c0010a6#32 = some (.bgeu 5 6 4) :=
  ⟨decode_row (row_in8 (k := 36) rfl) (by decide) rfl,
   decode_row (row_in8 (k := 37) rfl) (by decide) rfl,
   decode_row (row_in8 (k := 40) rfl) (by decide) rfl,
   decode_row (row_in8 (k := 41) rfl) (by decide) rfl,
   decode_row (row_in8 (k := 42) rfl) (by decide) rfl,
   decode_row (row_in8 (k := 43) rfl) (by decide) rfl,
   decode_row (row_in8 (k := 44) rfl) (by decide) rfl,
   decode_row (row_in8 (k := 45) rfl) (by decide) rfl,
   decode_row (row_in8 (k := 46) rfl) (by decide) rfl,
   decode_row (row_in8 (k := 47) rfl) (by decide) rfl,
   decode_row (row_in8 (k := 48) rfl) (by decide) rfl⟩

/-- Example words of 43_load_store.md (and 95_test_vectors.md). -/
theorem test_decode_load_store_1 :
    decode 0x240010a4#32 = some (.ldptrW 4 5 4) ∧
    decode 0x250010a4#32 = some (.stptrW 4 5 4) ∧
    decode 0x26fffca4#32 = some (.ldptrD 4 5 16383) ∧
    decode 0x270010a4#32 = some (.stptrD 4 5 4) ∧
    decode 0x280020a4#32 = some (.ldB 4 5 8) ∧
    decode 0x287fe0a4#32 = some (.ldH 4 5 4088) ∧
    decode 0x288020a4#32 = some (.ldW 4 5 8) ∧
    decode 0x28c020a4#32 = some (.ldD 4 5 8) ∧
    decode 0x290020a4#32 = some (.stB 4 5 8) ∧
    decode 0x294020a4#32 = some (.stH 4 5 8) ∧
    decode 0x29bfe0a4#32 = some (.stW 4 5 4088) ∧
    decode 0x29c020a4#32 = some (.stD 4 5 8) ∧
    decode 0x2a0020a4#32 = some (.ldBu 4 5 8) ∧
    decode 0x2a4020a4#32 = some (.ldHu 4 5 8) ∧
    decode 0x2a8020a4#32 = some (.ldWu 4 5 8) ∧
    decode 0x2ac100a0#32 = some (.preld 0 5 64) ∧
    decode 0x380018a4#32 = some (.ldxB 4 5 6) ∧
    decode 0x380418a4#32 = some (.ldxH 4 5 6) ∧
    decode 0x380818a4#32 = some (.ldxW 4 5 6) ∧
    decode 0x380c18a4#32 = some (.ldxD 4 5 6) ∧
    decode 0x381018a4#32 = some (.stxB 4 5 6) ∧
    decode 0x381418a4#32 = some (.stxH 4 5 6) ∧
    decode 0x381818a4#32 = some (.stxW 4 5 6) ∧
    decode 0x381c18a4#32 = some (.stxD 4 5 6) ∧
    decode 0x382018a4#32 = some (.ldxBu 4 5 6) ∧
    decode 0x382418a4#32 = some (.ldxHu 4 5 6) ∧
    decode 0x382818a4#32 = some (.ldxWu 4 5 6) ∧
    decode 0x382c18a0#32 = some (.preldx 0 5 6) ∧
    decode 0x387818a4#32 = some (.ldgtB 4 5 6) ∧
    decode 0x387898a4#32 = some (.ldgtH 4 5 6) ∧
    decode 0x387918a4#32 = some (.ldgtW 4 5 6) ∧
    decode 0x387998a4#32 = some (.ldgtD 4 5 6) ∧
    decode 0x387a18a4#32 = some (.ldleB 4 5 6) ∧
    decode 0x387a98a4#32 = some (.ldleH 4 5 6) ∧
    decode 0x387b18a4#32 = some (.ldleW 4 5 6) ∧
    decode 0x387b98a4#32 = some (.ldleD 4 5 6) ∧
    decode 0x387c18a4#32 = some (.stgtB 4 5 6) ∧
    decode 0x387c98a4#32 = some (.stgtH 4 5 6) ∧
    decode 0x387d18a4#32 = some (.stgtW 4 5 6) ∧
    decode 0x387d98a4#32 = some (.stgtD 4 5 6) :=
  ⟨decode_row (row_in6 (k := 17) rfl) (by decide) rfl,
   decode_row (row_in6 (k := 18) rfl) (by decide) rfl,
   decode_row (row_in6 (k := 19) rfl) (by decide) rfl,
   decode_row (row_in6 (k := 20) rfl) (by decide) rfl,
   decode_row (row_in6 (k := 21) rfl) (by decide) rfl,
   decode_row (row_in6 (k := 22) rfl) (by decide) rfl,
   decode_row (row_in6 (k := 23) rfl) (by decide) rfl,
   decode_row (row_in6 (k := 24) rfl) (by decide) rfl,
   decode_row (row_in6 (k := 25) rfl) (by decide) rfl,
   decode_row (row_in6 (k := 26) rfl) (by decide) rfl,
   decode_row (row_in6 (k := 27) rfl) (by decide) rfl,
   decode_row (row_in6 (k := 28) rfl) (by decide) rfl,
   decode_row (row_in6 (k := 29) rfl) (by decide) rfl,
   decode_row (row_in6 (k := 30) rfl) (by decide) rfl,
   decode_row (row_in6 (k := 31) rfl) (by decide) rfl,
   decode_row (row_in6 (k := 32) rfl) (by decide) rfl,
   decode_row (row_in6 (k := 37) rfl) (by decide) rfl,
   decode_row (row_in6 (k := 38) rfl) (by decide) rfl,
   decode_row (row_in6 (k := 39) rfl) (by decide) rfl,
   decode_row (row_in6 (k := 40) rfl) (by decide) rfl,
   decode_row (row_in6 (k := 41) rfl) (by decide) rfl,
   decode_row (row_in6 (k := 42) rfl) (by decide) rfl,
   decode_row (row_in6 (k := 43) rfl) (by decide) rfl,
   decode_row (row_in6 (k := 44) rfl) (by decide) rfl,
   decode_row (row_in6 (k := 45) rfl) (by decide) rfl,
   decode_row (row_in6 (k := 46) rfl) (by decide) rfl,
   decode_row (row_in6 (k := 47) rfl) (by decide) rfl,
   decode_row (row_in6 (k := 48) rfl) (by decide) rfl,
   decode_row (row_in8 (k := 20) rfl) (by decide) rfl,
   decode_row (row_in8 (k := 21) rfl) (by decide) rfl,
   decode_row (row_in8 (k := 22) rfl) (by decide) rfl,
   decode_row (row_in8 (k := 23) rfl) (by decide) rfl,
   decode_row (row_in8 (k := 24) rfl) (by decide) rfl,
   decode_row (row_in8 (k := 25) rfl) (by decide) rfl,
   decode_row (row_in8 (k := 26) rfl) (by decide) rfl,
   decode_row (row_in8 (k := 27) rfl) (by decide) rfl,
   decode_row (row_in8 (k := 28) rfl) (by decide) rfl,
   decode_row (row_in8 (k := 29) rfl) (by decide) rfl,
   decode_row (row_in8 (k := 30) rfl) (by decide) rfl,
   decode_row (row_in8 (k := 31) rfl) (by decide) rfl⟩

/-- Example words of 43_load_store.md (and 95_test_vectors.md). -/
theorem test_decode_load_store_2 :
    decode 0x387e18a4#32 = some (.stleB 4 5 6) ∧
    decode 0x387e98a4#32 = some (.stleH 4 5 6) ∧
    decode 0x387f18a4#32 = some (.stleW 4 5 6) ∧
    decode 0x387f98a4#32 = some (.stleD 4 5 6) :=
  ⟨decode_row (row_in8 (k := 32) rfl) (by decide) rfl,
   decode_row (row_in8 (k := 33) rfl) (by decide) rfl,
   decode_row (row_in8 (k := 34) rfl) (by decide) rfl,
   decode_row (row_in8 (k := 35) rfl) (by decide) rfl⟩

/-- Example words of 44_atomic_barrier.md (and 95_test_vectors.md). -/
theorem test_decode_atomic_1 :
    decode 0x200008a4#32 = some (.llW 4 5 2) ∧
    decode 0x210000a4#32 = some (.scW 4 5 0) ∧
    decode 0x220000a4#32 = some (.llD 4 5 0) ∧
    decode 0x230000a4#32 = some (.scD 4 5 0) ∧
    decode 0x385718a4#32 = some (.scQ 4 5 6) ∧
    decode 0x385780a4#32 = some (.llacqW 4 5) ∧
    decode 0x385784a4#32 = some (.screlW 4 5) ∧
    decode 0x385788a4#32 = some (.llacqD 4 5) ∧
    decode 0x38578ca4#32 = some (.screlD 4 5) ∧
    decode 0x385818a4#32 = some (.amcasB 4 5 6) ∧
    decode 0x385898a4#32 = some (.amcasH 4 5 6) ∧
    decode 0x385918a4#32 = some (.amcasW 4 5 6) ∧
    decode 0x385998a4#32 = some (.amcasD 4 5 6) ∧
    decode 0x385a18a4#32 = some (.amcasDbB 4 5 6) ∧
    decode 0x385a98a4#32 = some (.amcasDbH 4 5 6) ∧
    decode 0x385b18a4#32 = some (.amcasDbW 4 5 6) ∧
    decode 0x385b98a4#32 = some (.amcasDbD 4 5 6) ∧
    decode 0x385c18a4#32 = some (.amswapB 4 5 6) ∧
    decode 0x385c98a4#32 = some (.amswapH 4 5 6) ∧
    decode 0x385d18a4#32 = some (.amaddB 4 5 6) ∧
    decode 0x385d98a4#32 = some (.amaddH 4 5 6) ∧
    decode 0x385e18a4#32 = some (.amswapDbB 4 5 6) ∧
    decode 0x385e98a4#32 = some (.amswapDbH 4 5 6) ∧
    decode 0x385f18a4#32 = some (.amaddDbB 4 5 6) ∧
    decode 0x385f98a4#32 = some (.amaddDbH 4 5 6) ∧
    decode 0x386018a4#32 = some (.amswapW 4 5 6) ∧
    decode 0x386098a4#32 = some (.amswapD 4 5 6) ∧
    decode 0x386118a4#32 = some (.amaddW 4 5 6) ∧
    decode 0x386198a4#32 = some (.amaddD 4 5 6) ∧
    decode 0x386218a4#32 = some (.amandW 4 5 6) ∧
    decode 0x386298a4#32 = some (.amandD 4 5 6) ∧
    decode 0x386318a4#32 = some (.amorW 4 5 6) ∧
    decode 0x386398a4#32 = some (.amorD 4 5 6) ∧
    decode 0x386418a4#32 = some (.amxorW 4 5 6) ∧
    decode 0x386498a4#32 = some (.amxorD 4 5 6) ∧
    decode 0x386518a4#32 = some (.ammaxW 4 5 6) ∧
    decode 0x386598a4#32 = some (.ammaxD 4 5 6) ∧
    decode 0x386618a4#32 = some (.amminW 4 5 6) ∧
    decode 0x386698a4#32 = some (.amminD 4 5 6) ∧
    decode 0x386718a4#32 = some (.ammaxWu 4 5 6) :=
  ⟨decode_row (row_in6 (k := 13) rfl) (by decide) rfl,
   decode_row (row_in6 (k := 14) rfl) (by decide) rfl,
   decode_row (row_in6 (k := 15) rfl) (by decide) rfl,
   decode_row (row_in6 (k := 16) rfl) (by decide) rfl,
   decode_row (row_in7 (k := 3) rfl) (by decide) rfl,
   decode_row (row_in7 (k := 4) rfl) (by decide) rfl,
   decode_row (row_in7 (k := 5) rfl) (by decide) rfl,
   decode_row (row_in7 (k := 6) rfl) (by decide) rfl,
   decode_row (row_in7 (k := 7) rfl) (by decide) rfl,
   decode_row (row_in7 (k := 8) rfl) (by decide) rfl,
   decode_row (row_in7 (k := 9) rfl) (by decide) rfl,
   decode_row (row_in7 (k := 10) rfl) (by decide) rfl,
   decode_row (row_in7 (k := 11) rfl) (by decide) rfl,
   decode_row (row_in7 (k := 12) rfl) (by decide) rfl,
   decode_row (row_in7 (k := 13) rfl) (by decide) rfl,
   decode_row (row_in7 (k := 14) rfl) (by decide) rfl,
   decode_row (row_in7 (k := 15) rfl) (by decide) rfl,
   decode_row (row_in7 (k := 16) rfl) (by decide) rfl,
   decode_row (row_in7 (k := 17) rfl) (by decide) rfl,
   decode_row (row_in7 (k := 18) rfl) (by decide) rfl,
   decode_row (row_in7 (k := 19) rfl) (by decide) rfl,
   decode_row (row_in7 (k := 20) rfl) (by decide) rfl,
   decode_row (row_in7 (k := 21) rfl) (by decide) rfl,
   decode_row (row_in7 (k := 22) rfl) (by decide) rfl,
   decode_row (row_in7 (k := 23) rfl) (by decide) rfl,
   decode_row (row_in7 (k := 24) rfl) (by decide) rfl,
   decode_row (row_in7 (k := 25) rfl) (by decide) rfl,
   decode_row (row_in7 (k := 26) rfl) (by decide) rfl,
   decode_row (row_in7 (k := 27) rfl) (by decide) rfl,
   decode_row (row_in7 (k := 28) rfl) (by decide) rfl,
   decode_row (row_in7 (k := 29) rfl) (by decide) rfl,
   decode_row (row_in7 (k := 30) rfl) (by decide) rfl,
   decode_row (row_in7 (k := 31) rfl) (by decide) rfl,
   decode_row (row_in7 (k := 32) rfl) (by decide) rfl,
   decode_row (row_in7 (k := 33) rfl) (by decide) rfl,
   decode_row (row_in7 (k := 34) rfl) (by decide) rfl,
   decode_row (row_in7 (k := 35) rfl) (by decide) rfl,
   decode_row (row_in7 (k := 36) rfl) (by decide) rfl,
   decode_row (row_in7 (k := 37) rfl) (by decide) rfl,
   decode_row (row_in7 (k := 38) rfl) (by decide) rfl⟩

/-- Example words of 44_atomic_barrier.md (and 95_test_vectors.md). -/
theorem test_decode_atomic_2 :
    decode 0x386798a4#32 = some (.ammaxDu 4 5 6) ∧
    decode 0x386818a4#32 = some (.amminWu 4 5 6) ∧
    decode 0x386898a4#32 = some (.amminDu 4 5 6) ∧
    decode 0x386918a4#32 = some (.amswapDbW 4 5 6) ∧
    decode 0x386998a4#32 = some (.amswapDbD 4 5 6) ∧
    decode 0x386a18a4#32 = some (.amaddDbW 4 5 6) ∧
    decode 0x386a98a4#32 = some (.amaddDbD 4 5 6) ∧
    decode 0x386b18a4#32 = some (.amandDbW 4 5 6) ∧
    decode 0x386b98a4#32 = some (.amandDbD 4 5 6) ∧
    decode 0x386c18a4#32 = some (.amorDbW 4 5 6) ∧
    decode 0x386c98a4#32 = some (.amorDbD 4 5 6) ∧
    decode 0x386d18a4#32 = some (.amxorDbW 4 5 6) ∧
    decode 0x386d98a4#32 = some (.amxorDbD 4 5 6) ∧
    decode 0x386e18a4#32 = some (.ammaxDbW 4 5 6) ∧
    decode 0x386e98a4#32 = some (.ammaxDbD 4 5 6) ∧
    decode 0x386f18a4#32 = some (.amminDbW 4 5 6) ∧
    decode 0x386f98a4#32 = some (.amminDbD 4 5 6) ∧
    decode 0x387018a4#32 = some (.ammaxDbWu 4 5 6) ∧
    decode 0x387098a4#32 = some (.ammaxDbDu 4 5 6) ∧
    decode 0x387118a4#32 = some (.amminDbWu 4 5 6) ∧
    decode 0x387198a4#32 = some (.amminDbDu 4 5 6) ∧
    decode 0x38720014#32 = some (.dbar 20) ∧
    decode 0x38728000#32 = some (.ibar 0) :=
  ⟨decode_row (row_in7 (k := 39) rfl) (by decide) rfl,
   decode_row (row_in7 (k := 40) rfl) (by decide) rfl,
   decode_row (row_in7 (k := 41) rfl) (by decide) rfl,
   decode_row (row_in7 (k := 42) rfl) (by decide) rfl,
   decode_row (row_in7 (k := 43) rfl) (by decide) rfl,
   decode_row (row_in7 (k := 44) rfl) (by decide) rfl,
   decode_row (row_in7 (k := 45) rfl) (by decide) rfl,
   decode_row (row_in7 (k := 46) rfl) (by decide) rfl,
   decode_row (row_in7 (k := 47) rfl) (by decide) rfl,
   decode_row (row_in7 (k := 48) rfl) (by decide) rfl,
   decode_row (row_in7 (k := 49) rfl) (by decide) rfl,
   decode_row (row_in8 (k := 0) rfl) (by decide) rfl,
   decode_row (row_in8 (k := 1) rfl) (by decide) rfl,
   decode_row (row_in8 (k := 2) rfl) (by decide) rfl,
   decode_row (row_in8 (k := 3) rfl) (by decide) rfl,
   decode_row (row_in8 (k := 4) rfl) (by decide) rfl,
   decode_row (row_in8 (k := 5) rfl) (by decide) rfl,
   decode_row (row_in8 (k := 6) rfl) (by decide) rfl,
   decode_row (row_in8 (k := 7) rfl) (by decide) rfl,
   decode_row (row_in8 (k := 8) rfl) (by decide) rfl,
   decode_row (row_in8 (k := 9) rfl) (by decide) rfl,
   decode_row (row_in8 (k := 10) rfl) (by decide) rfl,
   decode_row (row_in8 (k := 11) rfl) (by decide) rfl⟩

/-- Example words of 45_crc_misc.md (and 95_test_vectors.md). -/
theorem test_decode_misc :
    decode 0x000060a4#32 = some (.rdtimelW 4 5) ∧
    decode 0x00006404#32 = some (.rdtimehW 4 0) ∧
    decode 0x000068a4#32 = some (.rdtimeD 4 5) ∧
    decode 0x00006ca4#32 = some (.cpucfg 4 5) ∧
    decode 0x000118a0#32 = some (.asrtleD 5 6) ∧
    decode 0x000198a0#32 = some (.asrtgtD 5 6) ∧
    decode 0x002418a4#32 = some (.crcWBW 4 5 6) ∧
    decode 0x002498a4#32 = some (.crcWHW 4 5 6) ∧
    decode 0x002518a4#32 = some (.crcWWW 4 5 6) ∧
    decode 0x002598a4#32 = some (.crcWDW 4 5 6) ∧
    decode 0x002618a4#32 = some (.crccWBW 4 5 6) ∧
    decode 0x002698a4#32 = some (.crccWHW 4 5 6) ∧
    decode 0x002718a4#32 = some (.crccWWW 4 5 6) ∧
    decode 0x002798a4#32 = some (.crccWDW 4 5 6) ∧
    decode 0x002a0005#32 = some (.brk 5) ∧
    decode 0x002b1234#32 = some (.syscall 4660) :=
  ⟨decode_row (row_in1 (k := 20) rfl) (by decide) rfl,
   decode_row (row_in1 (k := 21) rfl) (by decide) rfl,
   decode_row (row_in1 (k := 22) rfl) (by decide) rfl,
   decode_row (row_in1 (k := 23) rfl) (by decide) rfl,
   decode_row (row_in1 (k := 24) rfl) (by decide) rfl,
   decode_row (row_in1 (k := 25) rfl) (by decide) rfl,
   decode_row (row_in2 (k := 18) rfl) (by decide) rfl,
   decode_row (row_in2 (k := 19) rfl) (by decide) rfl,
   decode_row (row_in2 (k := 20) rfl) (by decide) rfl,
   decode_row (row_in2 (k := 21) rfl) (by decide) rfl,
   decode_row (row_in2 (k := 22) rfl) (by decide) rfl,
   decode_row (row_in2 (k := 23) rfl) (by decide) rfl,
   decode_row (row_in2 (k := 24) rfl) (by decide) rfl,
   decode_row (row_in2 (k := 25) rfl) (by decide) rfl,
   decode_row (row_in2 (k := 26) rfl) (by decide) rfl,
   decode_row (row_in2 (k := 28) rfl) (by decide) rfl⟩

/-- Example words of 46_fp_arith.md (and 95_test_vectors.md). -/
theorem test_decode_fp_arith_1 :
    decode 0x01008c41#32 = some (.faddS 1 2 3) ∧
    decode 0x01010c41#32 = some (.faddD 1 2 3) ∧
    decode 0x01028c41#32 = some (.fsubS 1 2 3) ∧
    decode 0x01030c41#32 = some (.fsubD 1 2 3) ∧
    decode 0x01048c41#32 = some (.fmulS 1 2 3) ∧
    decode 0x01050c41#32 = some (.fmulD 1 2 3) ∧
    decode 0x01068c41#32 = some (.fdivS 1 2 3) ∧
    decode 0x01070c41#32 = some (.fdivD 1 2 3) ∧
    decode 0x01088c41#32 = some (.fmaxS 1 2 3) ∧
    decode 0x01090c41#32 = some (.fmaxD 1 2 3) ∧
    decode 0x010a8c41#32 = some (.fminS 1 2 3) ∧
    decode 0x010b0c41#32 = some (.fminD 1 2 3) ∧
    decode 0x010c8c41#32 = some (.fmaxaS 1 2 3) ∧
    decode 0x010d0c41#32 = some (.fmaxaD 1 2 3) ∧
    decode 0x010e8c41#32 = some (.fminaS 1 2 3) ∧
    decode 0x010f0c41#32 = some (.fminaD 1 2 3) ∧
    decode 0x01108c41#32 = some (.fscalebS 1 2 3) ∧
    decode 0x01110c41#32 = some (.fscalebD 1 2 3) ∧
    decode 0x01128c41#32 = some (.fcopysignS 1 2 3) ∧
    decode 0x01130c41#32 = some (.fcopysignD 1 2 3) ∧
    decode 0x01140441#32 = some (.fabsS 1 2) ∧
    decode 0x01140841#32 = some (.fabsD 1 2) ∧
    decode 0x01141441#32 = some (.fnegS 1 2) ∧
    decode 0x01141841#32 = some (.fnegD 1 2) ∧
    decode 0x01142441#32 = some (.flogbS 1 2) ∧
    decode 0x01142841#32 = some (.flogbD 1 2) ∧
    decode 0x01143441#32 = some (.fclassS 1 2) ∧
    decode 0x01143841#32 = some (.fclassD 1 2) ∧
    decode 0x01144441#32 = some (.fsqrtS 1 2) ∧
    decode 0x01144841#32 = some (.fsqrtD 1 2) ∧
    decode 0x01145441#32 = some (.frecipS 1 2) ∧
    decode 0x01145841#32 = some (.frecipD 1 2) ∧
    decode 0x01146441#32 = some (.frsqrtS 1 2) ∧
    decode 0x01146841#32 = some (.frsqrtD 1 2) ∧
    decode 0x01147441#32 = some (.frecipeS 1 2) ∧
    decode 0x01147841#32 = some (.frecipeD 1 2) ∧
    decode 0x01148441#32 = some (.frsqrteS 1 2) ∧
    decode 0x01148841#32 = some (.frsqrteD 1 2) ∧
    decode 0x08120c41#32 = some (.fmaddS 1 2 3 4) ∧
    decode 0x08220c41#32 = some (.fmaddD 1 2 3 4) :=
  ⟨decode_row (row_in2 (k := 42) rfl) (by decide) rfl,
   decode_row (row_in2 (k := 43) rfl) (by decide) rfl,
   decode_row (row_in2 (k := 44) rfl) (by decide) rfl,
   decode_row (row_in2 (k := 45) rfl) (by decide) rfl,
   decode_row (row_in2 (k := 46) rfl) (by decide) rfl,
   decode_row (row_in2 (k := 47) rfl) (by decide) rfl,
   decode_row (row_in2 (k := 48) rfl) (by decide) rfl,
   decode_row (row_in2 (k := 49) rfl) (by decide) rfl,
   decode_row (row_in3 (k := 0) rfl) (by decide) rfl,
   decode_row (row_in3 (k := 1) rfl) (by decide) rfl,
   decode_row (row_in3 (k := 2) rfl) (by decide) rfl,
   decode_row (row_in3 (k := 3) rfl) (by decide) rfl,
   decode_row (row_in3 (k := 4) rfl) (by decide) rfl,
   decode_row (row_in3 (k := 5) rfl) (by decide) rfl,
   decode_row (row_in3 (k := 6) rfl) (by decide) rfl,
   decode_row (row_in3 (k := 7) rfl) (by decide) rfl,
   decode_row (row_in3 (k := 8) rfl) (by decide) rfl,
   decode_row (row_in3 (k := 9) rfl) (by decide) rfl,
   decode_row (row_in3 (k := 10) rfl) (by decide) rfl,
   decode_row (row_in3 (k := 11) rfl) (by decide) rfl,
   decode_row (row_in3 (k := 12) rfl) (by decide) rfl,
   decode_row (row_in3 (k := 13) rfl) (by decide) rfl,
   decode_row (row_in3 (k := 14) rfl) (by decide) rfl,
   decode_row (row_in3 (k := 15) rfl) (by decide) rfl,
   decode_row (row_in3 (k := 16) rfl) (by decide) rfl,
   decode_row (row_in3 (k := 17) rfl) (by decide) rfl,
   decode_row (row_in3 (k := 18) rfl) (by decide) rfl,
   decode_row (row_in3 (k := 19) rfl) (by decide) rfl,
   decode_row (row_in3 (k := 20) rfl) (by decide) rfl,
   decode_row (row_in3 (k := 21) rfl) (by decide) rfl,
   decode_row (row_in3 (k := 22) rfl) (by decide) rfl,
   decode_row (row_in3 (k := 23) rfl) (by decide) rfl,
   decode_row (row_in3 (k := 24) rfl) (by decide) rfl,
   decode_row (row_in3 (k := 25) rfl) (by decide) rfl,
   decode_row (row_in3 (k := 26) rfl) (by decide) rfl,
   decode_row (row_in3 (k := 27) rfl) (by decide) rfl,
   decode_row (row_in3 (k := 28) rfl) (by decide) rfl,
   decode_row (row_in3 (k := 29) rfl) (by decide) rfl,
   decode_row (row_in5 (k := 3) rfl) (by decide) rfl,
   decode_row (row_in5 (k := 4) rfl) (by decide) rfl⟩

/-- Example words of 46_fp_arith.md (and 95_test_vectors.md). -/
theorem test_decode_fp_arith_2 :
    decode 0x08520c41#32 = some (.fmsubS 1 2 3 4) ∧
    decode 0x08620c41#32 = some (.fmsubD 1 2 3 4) ∧
    decode 0x08920c41#32 = some (.fnmaddS 1 2 3 4) ∧
    decode 0x08a20c41#32 = some (.fnmaddD 1 2 3 4) ∧
    decode 0x08d20c41#32 = some (.fnmsubS 1 2 3 4) ∧
    decode 0x08e20c41#32 = some (.fnmsubD 1 2 3 4) :=
  ⟨decode_row (row_in5 (k := 5) rfl) (by decide) rfl,
   decode_row (row_in5 (k := 6) rfl) (by decide) rfl,
   decode_row (row_in5 (k := 7) rfl) (by decide) rfl,
   decode_row (row_in5 (k := 8) rfl) (by decide) rfl,
   decode_row (row_in5 (k := 9) rfl) (by decide) rfl,
   decode_row (row_in5 (k := 10) rfl) (by decide) rfl⟩

/-- Example words of 47_fp_cmp_cvt.md (and 95_test_vectors.md). -/
theorem test_decode_fp_compare_1 :
    decode 0x01191841#32 = some (.fcvtSD 1 2) ∧
    decode 0x01192441#32 = some (.fcvtDS 1 2) ∧
    decode 0x011a0441#32 = some (.ftintrmWS 1 2) ∧
    decode 0x011a0841#32 = some (.ftintrmWD 1 2) ∧
    decode 0x011a2441#32 = some (.ftintrmLS 1 2) ∧
    decode 0x011a2841#32 = some (.ftintrmLD 1 2) ∧
    decode 0x011a4441#32 = some (.ftintrpWS 1 2) ∧
    decode 0x011a4841#32 = some (.ftintrpWD 1 2) ∧
    decode 0x011a6441#32 = some (.ftintrpLS 1 2) ∧
    decode 0x011a6841#32 = some (.ftintrpLD 1 2) ∧
    decode 0x011a8441#32 = some (.ftintrzWS 1 2) ∧
    decode 0x011a8841#32 = some (.ftintrzWD 1 2) ∧
    decode 0x011aa441#32 = some (.ftintrzLS 1 2) ∧
    decode 0x011aa841#32 = some (.ftintrzLD 1 2) ∧
    decode 0x011ac441#32 = some (.ftintrneWS 1 2) ∧
    decode 0x011ac841#32 = some (.ftintrneWD 1 2) ∧
    decode 0x011ae441#32 = some (.ftintrneLS 1 2) ∧
    decode 0x011ae841#32 = some (.ftintrneLD 1 2) ∧
    decode 0x011b0441#32 = some (.ftintWS 1 2) ∧
    decode 0x011b0841#32 = some (.ftintWD 1 2) ∧
    decode 0x011b2441#32 = some (.ftintLS 1 2) ∧
    decode 0x011b2841#32 = some (.ftintLD 1 2) ∧
    decode 0x011d1041#32 = some (.ffintSW 1 2) ∧
    decode 0x011d1841#32 = some (.ffintSL 1 2) ∧
    decode 0x011d2041#32 = some (.ffintDW 1 2) ∧
    decode 0x011d2841#32 = some (.ffintDL 1 2) ∧
    decode 0x011e4441#32 = some (.frintS 1 2) ∧
    decode 0x011e4841#32 = some (.frintD 1 2) ∧
    decode 0x0c100c41#32 = some (.fcmpCafS 1 2 3) ∧
    decode 0x0c108c41#32 = some (.fcmpSafS 1 2 3) ∧
    decode 0x0c110c41#32 = some (.fcmpCltS 1 2 3) ∧
    decode 0x0c118c41#32 = some (.fcmpSltS 1 2 3) ∧
    decode 0x0c120c41#32 = some (.fcmpCeqS 1 2 3) ∧
    decode 0x0c128c41#32 = some (.fcmpSeqS 1 2 3) ∧
    decode 0x0c130c41#32 = some (.fcmpCleS 1 2 3) ∧
    decode 0x0c138c41#32 = some (.fcmpSleS 1 2 3) ∧
    decode 0x0c140c41#32 = some (.fcmpCunS 1 2 3) ∧
    decode 0x0c148c41#32 = some (.fcmpSunS 1 2 3) ∧
    decode 0x0c150c41#32 = some (.fcmpCultS 1 2 3) ∧
    decode 0x0c158c41#32 = some (.fcmpSultS 1 2 3) :=
  ⟨decode_row (row_in3 (k := 44) rfl) (by decide) rfl,
   decode_row (row_in3 (k := 45) rfl) (by decide) rfl,
   decode_row (row_in3 (k := 46) rfl) (by decide) rfl,
   decode_row (row_in3 (k := 47) rfl) (by decide) rfl,
   decode_row (row_in3 (k := 48) rfl) (by decide) rfl,
   decode_row (row_in3 (k := 49) rfl) (by decide) rfl,
   decode_row (row_in4 (k := 0) rfl) (by decide) rfl,
   decode_row (row_in4 (k := 1) rfl) (by decide) rfl,
   decode_row (row_in4 (k := 2) rfl) (by decide) rfl,
   decode_row (row_in4 (k := 3) rfl) (by decide) rfl,
   decode_row (row_in4 (k := 4) rfl) (by decide) rfl,
   decode_row (row_in4 (k := 5) rfl) (by decide) rfl,
   decode_row (row_in4 (k := 6) rfl) (by decide) rfl,
   decode_row (row_in4 (k := 7) rfl) (by decide) rfl,
   decode_row (row_in4 (k := 8) rfl) (by decide) rfl,
   decode_row (row_in4 (k := 9) rfl) (by decide) rfl,
   decode_row (row_in4 (k := 10) rfl) (by decide) rfl,
   decode_row (row_in4 (k := 11) rfl) (by decide) rfl,
   decode_row (row_in4 (k := 12) rfl) (by decide) rfl,
   decode_row (row_in4 (k := 13) rfl) (by decide) rfl,
   decode_row (row_in4 (k := 14) rfl) (by decide) rfl,
   decode_row (row_in4 (k := 15) rfl) (by decide) rfl,
   decode_row (row_in4 (k := 16) rfl) (by decide) rfl,
   decode_row (row_in4 (k := 17) rfl) (by decide) rfl,
   decode_row (row_in4 (k := 18) rfl) (by decide) rfl,
   decode_row (row_in4 (k := 19) rfl) (by decide) rfl,
   decode_row (row_in4 (k := 20) rfl) (by decide) rfl,
   decode_row (row_in4 (k := 21) rfl) (by decide) rfl,
   decode_row (row_in5 (k := 11) rfl) (by decide) rfl,
   decode_row (row_in5 (k := 12) rfl) (by decide) rfl,
   decode_row (row_in5 (k := 13) rfl) (by decide) rfl,
   decode_row (row_in5 (k := 14) rfl) (by decide) rfl,
   decode_row (row_in5 (k := 15) rfl) (by decide) rfl,
   decode_row (row_in5 (k := 16) rfl) (by decide) rfl,
   decode_row (row_in5 (k := 17) rfl) (by decide) rfl,
   decode_row (row_in5 (k := 18) rfl) (by decide) rfl,
   decode_row (row_in5 (k := 19) rfl) (by decide) rfl,
   decode_row (row_in5 (k := 20) rfl) (by decide) rfl,
   decode_row (row_in5 (k := 21) rfl) (by decide) rfl,
   decode_row (row_in5 (k := 22) rfl) (by decide) rfl⟩

/-- Example words of 47_fp_cmp_cvt.md (and 95_test_vectors.md). -/
theorem test_decode_fp_compare_2 :
    decode 0x0c160c41#32 = some (.fcmpCueqS 1 2 3) ∧
    decode 0x0c168c41#32 = some (.fcmpSueqS 1 2 3) ∧
    decode 0x0c170c41#32 = some (.fcmpCuleS 1 2 3) ∧
    decode 0x0c178c41#32 = some (.fcmpSuleS 1 2 3) ∧
    decode 0x0c180c41#32 = some (.fcmpCneS 1 2 3) ∧
    decode 0x0c188c41#32 = some (.fcmpSneS 1 2 3) ∧
    decode 0x0c1a0c41#32 = some (.fcmpCorS 1 2 3) ∧
    decode 0x0c1a8c41#32 = some (.fcmpSorS 1 2 3) ∧
    decode 0x0c1c0c41#32 = some (.fcmpCuneS 1 2 3) ∧
    decode 0x0c1c8c41#32 = some (.fcmpSuneS 1 2 3) ∧
    decode 0x0c200c41#32 = some (.fcmpCafD 1 2 3) ∧
    decode 0x0c208c41#32 = some (.fcmpSafD 1 2 3) ∧
    decode 0x0c210c41#32 = some (.fcmpCltD 1 2 3) ∧
    decode 0x0c218c41#32 = some (.fcmpSltD 1 2 3) ∧
    decode 0x0c220c41#32 = some (.fcmpCeqD 1 2 3) ∧
    decode 0x0c228c41#32 = some (.fcmpSeqD 1 2 3) ∧
    decode 0x0c230c41#32 = some (.fcmpCleD 1 2 3) ∧
    decode 0x0c238c41#32 = some (.fcmpSleD 1 2 3) ∧
    decode 0x0c240c41#32 = some (.fcmpCunD 1 2 3) ∧
    decode 0x0c248c41#32 = some (.fcmpSunD 1 2 3) ∧
    decode 0x0c250c41#32 = some (.fcmpCultD 1 2 3) ∧
    decode 0x0c258c41#32 = some (.fcmpSultD 1 2 3) ∧
    decode 0x0c260c41#32 = some (.fcmpCueqD 1 2 3) ∧
    decode 0x0c268c41#32 = some (.fcmpSueqD 1 2 3) ∧
    decode 0x0c270c41#32 = some (.fcmpCuleD 1 2 3) ∧
    decode 0x0c278c41#32 = some (.fcmpSuleD 1 2 3) ∧
    decode 0x0c280c41#32 = some (.fcmpCneD 1 2 3) ∧
    decode 0x0c288c41#32 = some (.fcmpSneD 1 2 3) ∧
    decode 0x0c2a0c41#32 = some (.fcmpCorD 1 2 3) ∧
    decode 0x0c2a8c41#32 = some (.fcmpSorD 1 2 3) ∧
    decode 0x0c2c0c41#32 = some (.fcmpCuneD 1 2 3) ∧
    decode 0x0c2c8c41#32 = some (.fcmpSuneD 1 2 3) :=
  ⟨decode_row (row_in5 (k := 23) rfl) (by decide) rfl,
   decode_row (row_in5 (k := 24) rfl) (by decide) rfl,
   decode_row (row_in5 (k := 25) rfl) (by decide) rfl,
   decode_row (row_in5 (k := 26) rfl) (by decide) rfl,
   decode_row (row_in5 (k := 27) rfl) (by decide) rfl,
   decode_row (row_in5 (k := 28) rfl) (by decide) rfl,
   decode_row (row_in5 (k := 29) rfl) (by decide) rfl,
   decode_row (row_in5 (k := 30) rfl) (by decide) rfl,
   decode_row (row_in5 (k := 31) rfl) (by decide) rfl,
   decode_row (row_in5 (k := 32) rfl) (by decide) rfl,
   decode_row (row_in5 (k := 33) rfl) (by decide) rfl,
   decode_row (row_in5 (k := 34) rfl) (by decide) rfl,
   decode_row (row_in5 (k := 35) rfl) (by decide) rfl,
   decode_row (row_in5 (k := 36) rfl) (by decide) rfl,
   decode_row (row_in5 (k := 37) rfl) (by decide) rfl,
   decode_row (row_in5 (k := 38) rfl) (by decide) rfl,
   decode_row (row_in5 (k := 39) rfl) (by decide) rfl,
   decode_row (row_in5 (k := 40) rfl) (by decide) rfl,
   decode_row (row_in5 (k := 41) rfl) (by decide) rfl,
   decode_row (row_in5 (k := 42) rfl) (by decide) rfl,
   decode_row (row_in5 (k := 43) rfl) (by decide) rfl,
   decode_row (row_in5 (k := 44) rfl) (by decide) rfl,
   decode_row (row_in5 (k := 45) rfl) (by decide) rfl,
   decode_row (row_in5 (k := 46) rfl) (by decide) rfl,
   decode_row (row_in5 (k := 47) rfl) (by decide) rfl,
   decode_row (row_in5 (k := 48) rfl) (by decide) rfl,
   decode_row (row_in5 (k := 49) rfl) (by decide) rfl,
   decode_row (row_in6 (k := 0) rfl) (by decide) rfl,
   decode_row (row_in6 (k := 1) rfl) (by decide) rfl,
   decode_row (row_in6 (k := 2) rfl) (by decide) rfl,
   decode_row (row_in6 (k := 3) rfl) (by decide) rfl,
   decode_row (row_in6 (k := 4) rfl) (by decide) rfl⟩

/-- Example words of 48_fp_move_branch_mem.md (and 95_test_vectors.md). -/
theorem test_decode_fp_move :
    decode 0x01149441#32 = some (.fmovS 1 2) ∧
    decode 0x01149841#32 = some (.fmovD 1 2) ∧
    decode 0x0114a4a1#32 = some (.movgr2frW 1 5) ∧
    decode 0x0114a8a1#32 = some (.movgr2frD 1 5) ∧
    decode 0x0114aca1#32 = some (.movgr2frhW 1 5) ∧
    decode 0x0114b444#32 = some (.movfr2grS 4 2) ∧
    decode 0x0114b844#32 = some (.movfr2grD 4 2) ∧
    decode 0x0114bc44#32 = some (.movfrh2grS 4 2) ∧
    decode 0x0114c0a3#32 = some (.movgr2fcsr 3 5) ∧
    decode 0x0114c844#32 = some (.movfcsr2gr 4 2) ∧
    decode 0x0114d041#32 = some (.movfr2cf 1 2) ∧
    decode 0x0114d441#32 = some (.movcf2fr 1 2) ∧
    decode 0x0114d8a1#32 = some (.movgr2cf 1 5) ∧
    decode 0x0114dc44#32 = some (.movcf2gr 4 2) ∧
    decode 0x0d020c41#32 = some (.fsel 1 2 3 4) ∧
    decode 0x2b0020a1#32 = some (.fldS 1 5 8) ∧
    decode 0x2b7fe0a1#32 = some (.fstS 1 5 4088) ∧
    decode 0x2b8020a1#32 = some (.fldD 1 5 8) ∧
    decode 0x2bc020a1#32 = some (.fstD 1 5 8) ∧
    decode 0x383018a1#32 = some (.fldxS 1 5 6) ∧
    decode 0x383418a1#32 = some (.fldxD 1 5 6) ∧
    decode 0x383818a1#32 = some (.fstxS 1 5 6) ∧
    decode 0x383c18a1#32 = some (.fstxD 1 5 6) ∧
    decode 0x387418a1#32 = some (.fldgtS 1 5 6) ∧
    decode 0x387498a1#32 = some (.fldgtD 1 5 6) ∧
    decode 0x387518a1#32 = some (.fldleS 1 5 6) ∧
    decode 0x387598a1#32 = some (.fldleD 1 5 6) ∧
    decode 0x387618a1#32 = some (.fstgtS 1 5 6) ∧
    decode 0x387698a1#32 = some (.fstgtD 1 5 6) ∧
    decode 0x387718a1#32 = some (.fstleS 1 5 6) ∧
    decode 0x387798a1#32 = some (.fstleD 1 5 6) ∧
    decode 0x48001020#32 = some (.bceqz 1 4) ∧
    decode 0x4bfff93f#32 = some (.bcnez 1 2097150) :=
  ⟨decode_row (row_in3 (k := 30) rfl) (by decide) rfl,
   decode_row (row_in3 (k := 31) rfl) (by decide) rfl,
   decode_row (row_in3 (k := 32) rfl) (by decide) rfl,
   decode_row (row_in3 (k := 33) rfl) (by decide) rfl,
   decode_row (row_in3 (k := 34) rfl) (by decide) rfl,
   decode_row (row_in3 (k := 35) rfl) (by decide) rfl,
   decode_row (row_in3 (k := 36) rfl) (by decide) rfl,
   decode_row (row_in3 (k := 37) rfl) (by decide) rfl,
   decode_row (row_in3 (k := 38) rfl) (by decide) rfl,
   decode_row (row_in3 (k := 39) rfl) (by decide) rfl,
   decode_row (row_in3 (k := 40) rfl) (by decide) rfl,
   decode_row (row_in3 (k := 41) rfl) (by decide) rfl,
   decode_row (row_in3 (k := 42) rfl) (by decide) rfl,
   decode_row (row_in3 (k := 43) rfl) (by decide) rfl,
   decode_row (row_in6 (k := 5) rfl) (by decide) rfl,
   decode_row (row_in6 (k := 33) rfl) (by decide) rfl,
   decode_row (row_in6 (k := 34) rfl) (by decide) rfl,
   decode_row (row_in6 (k := 35) rfl) (by decide) rfl,
   decode_row (row_in6 (k := 36) rfl) (by decide) rfl,
   decode_row (row_in6 (k := 49) rfl) (by decide) rfl,
   decode_row (row_in7 (k := 0) rfl) (by decide) rfl,
   decode_row (row_in7 (k := 1) rfl) (by decide) rfl,
   decode_row (row_in7 (k := 2) rfl) (by decide) rfl,
   decode_row (row_in8 (k := 12) rfl) (by decide) rfl,
   decode_row (row_in8 (k := 13) rfl) (by decide) rfl,
   decode_row (row_in8 (k := 14) rfl) (by decide) rfl,
   decode_row (row_in8 (k := 15) rfl) (by decide) rfl,
   decode_row (row_in8 (k := 16) rfl) (by decide) rfl,
   decode_row (row_in8 (k := 17) rfl) (by decide) rfl,
   decode_row (row_in8 (k := 18) rfl) (by decide) rfl,
   decode_row (row_in8 (k := 19) rfl) (by decide) rfl,
   decode_row (row_in8 (k := 38) rfl) (by decide) rfl,
   decode_row (row_in8 (k := 39) rfl) (by decide) rfl⟩

/-- Example words of 49_privileged.md (and 95_test_vectors.md). -/
theorem test_decode_privileged :
    decode 0x002affff#32 = some (.dbcl 32767) ∧
    decode 0x04008004#32 = some (.csrrd 4 32) ∧
    decode 0x04003024#32 = some (.csrwr 4 12) ∧
    decode 0x040010a4#32 = some (.csrxchg 4 5 4) ∧
    decode 0x060100b1#32 = some (.cacop 17 5 64) ∧
    decode 0x06400d8c#32 = some (.lddir 12 12 3) ∧
    decode 0x06440580#32 = some (.ldpte 12 1) ∧
    decode 0x064800a4#32 = some (.iocsrrdB 4 5) ∧
    decode 0x064804a4#32 = some (.iocsrrdH 4 5) ∧
    decode 0x064808a4#32 = some (.iocsrrdW 4 5) ∧
    decode 0x06480ca4#32 = some (.iocsrrdD 4 5) ∧
    decode 0x064810a4#32 = some (.iocsrwrB 4 5) ∧
    decode 0x064814a4#32 = some (.iocsrwrH 4 5) ∧
    decode 0x064818a4#32 = some (.iocsrwrW 4 5) ∧
    decode 0x06481ca4#32 = some (.iocsrwrD 4 5) ∧
    decode 0x06482000#32 = some .tlbclr ∧
    decode 0x06482400#32 = some .tlbflush ∧
    decode 0x06482800#32 = some .tlbsrch ∧
    decode 0x06482c00#32 = some .tlbrd ∧
    decode 0x06483000#32 = some .tlbwr ∧
    decode 0x06483400#32 = some .tlbfill ∧
    decode 0x06483800#32 = some .ertn ∧
    decode 0x06488000#32 = some (.idle 0) ∧
    decode 0x064998a5#32 = some (.invtlb 5 5 6) :=
  ⟨decode_row (row_in2 (k := 27) rfl) (by decide) rfl,
   decode_row (row_in4 (k := 30) rfl) (by decide) rfl,
   decode_row (row_in4 (k := 31) rfl) (by decide) rfl,
   rfl,
   decode_row (row_in4 (k := 33) rfl) (by decide) rfl,
   decode_row (row_in4 (k := 34) rfl) (by decide) rfl,
   decode_row (row_in4 (k := 35) rfl) (by decide) rfl,
   decode_row (row_in4 (k := 36) rfl) (by decide) rfl,
   decode_row (row_in4 (k := 37) rfl) (by decide) rfl,
   decode_row (row_in4 (k := 38) rfl) (by decide) rfl,
   decode_row (row_in4 (k := 39) rfl) (by decide) rfl,
   decode_row (row_in4 (k := 40) rfl) (by decide) rfl,
   decode_row (row_in4 (k := 41) rfl) (by decide) rfl,
   decode_row (row_in4 (k := 42) rfl) (by decide) rfl,
   decode_row (row_in4 (k := 43) rfl) (by decide) rfl,
   decode_row (row_in4 (k := 44) rfl) (by decide) rfl,
   decode_row (row_in4 (k := 45) rfl) (by decide) rfl,
   decode_row (row_in4 (k := 46) rfl) (by decide) rfl,
   decode_row (row_in4 (k := 47) rfl) (by decide) rfl,
   decode_row (row_in4 (k := 48) rfl) (by decide) rfl,
   decode_row (row_in4 (k := 49) rfl) (by decide) rfl,
   decode_row (row_in5 (k := 0) rfl) (by decide) rfl,
   decode_row (row_in5 (k := 1) rfl) (by decide) rfl,
   decode_row (row_in5 (k := 2) rfl) (by decide) rfl⟩

/-! ## Words written out field by field (30_encoding.md R302 to R313) -/

/-- 3R, 3RSA2, 3RSA3, 2RI12, 2RI16 and 1RI20: opcode, then the fields from the high end down (R302, R304, R306). -/
theorem test_bits_integer :
    decode (0b00000000000100000#17 ++ 6#5 ++ 5#5 ++ 4#5) = some (.addW 4 5 6) ∧
    decode (0b000000000000010#15 ++ 1#2 ++ 6#5 ++ 5#5 ++ 4#5) = some (.alslW 4 5 6 1) ∧
    decode (0b00000000000011#14 ++ 7#3 ++ 6#5 ++ 5#5 ++ 4#5) = some (.bytepickD 4 5 6 7) ∧
    decode (0b0000001010#10 ++ 0x800#12 ++ 5#5 ++ 4#5) = some (.addiW 4 5 0x800) ∧
    decode (0b000100#6 ++ 0x8001#16 ++ 5#5 ++ 4#5) = some (.addu16iD 4 5 0x8001) ∧
    decode (0b0001010#7 ++ 0x80001#20 ++ 4#5) = some (.lu12iW 4 0x80001) := by
  refine ⟨?_, ?_, ?_, ?_, ?_, ?_⟩ <;> rfl

/-- 2R, 2RUI5, 2RUI6, BSTRW and BSTRD (R304). -/
theorem test_bits_shift_bit :
    decode (0b0000000000000000000101#22 ++ 5#5 ++ 4#5) = some (.clzW 4 5) ∧
    decode (0b00000000010000001#17 ++ 31#5 ++ 5#5 ++ 4#5) = some (.slliW 4 5 31) ∧
    decode (0b0000000001000001#16 ++ 63#6 ++ 5#5 ++ 4#5) = some (.slliD 4 5 63) ∧
    decode (0b00000000011#11 ++ 15#5 ++ 0#1 ++ 8#5 ++ 5#5 ++ 4#5) = some (.bstrinsW 4 5 15 8) ∧
    decode (0b00000000011#11 ++ 15#5 ++ 1#1 ++ 8#5 ++ 5#5 ++ 4#5) = some (.bstrpickW 4 5 15 8) ∧
    decode (0b0000000010#10 ++ 63#6 ++ 32#6 ++ 5#5 ++ 4#5) = some (.bstrinsD 4 5 63 32) := by
  refine ⟨?_, ?_, ?_, ?_, ?_, ?_⟩ <;> rfl

/-- 2RI16, 1RI21 and I26: the low half of a 21 or 26 bit offset lies high; BCEQZ and BCNEZ (R302, R310). -/
theorem test_bits_branch :
    decode (0b010110#6 ++ 0x0004#16 ++ 5#5 ++ 6#5) = some (.beq 5 6 4) ∧
    decode (0b010000#6 ++ 0x0000#16 ++ 5#5 ++ 0b00001#5) = some (.beqz 5 0x10000) ∧
    decode (0b010100#6 ++ 0x0000#16 ++ 0b0000000001#10) = some (.b 0x10000) ∧
    decode (0b010010#6 ++ 0x0002#16 ++ 0b00#2 ++ 3#3 ++ 0b10000#5) = some (.bceqz 3 0x100002) ∧
    decode (0b010010#6 ++ 0x0002#16 ++ 0b01#2 ++ 3#3 ++ 0b10000#5) = some (.bcnez 3 0x100002) := by
  refine ⟨?_, ?_, ?_, ?_, ?_⟩ <;> rfl

/-- Loads, stores, atomics, LL/SC, barriers, calls and checksums (R302, R305, R308, R313). -/
theorem test_bits_memory :
    decode (0b0010100010#10 ++ 0xFFC#12 ++ 5#5 ++ 4#5) = some (.ldW 4 5 0xFFC) ∧
    decode (0b00100100#8 ++ 0x2001#14 ++ 5#5 ++ 4#5) = some (.ldptrW 4 5 0x2001) ∧
    decode (0b00111000011000000#17 ++ 6#5 ++ 5#5 ++ 4#5) = some (.amswapW 4 5 6) ∧
    decode (0b00100000#8 ++ 0x2001#14 ++ 5#5 ++ 4#5) = some (.llW 4 5 0x2001) ∧
    decode (0b00111000011100100#17 ++ 0x700#15) = some (.dbar 0x700) ∧
    decode (0b00000000001010110#17 ++ 0x7FFF#15) = some (.syscall 0x7FFF) ∧
    decode (0b00000000001001000#17 ++ 6#5 ++ 5#5 ++ 4#5) = some (.crcWBW 4 5 6) := by
  refine ⟨?_, ?_, ?_, ?_, ?_, ?_, ?_⟩ <;> rfl

/-- Floating-point rows: 3R, 4R, FCMP, FSEL, 2R with a flag register, 2RI12 (R302, R309). -/
theorem test_bits_float :
    decode (0b00000001000000001#17 ++ 3#5 ++ 2#5 ++ 1#5) = some (.faddS 1 2 3) ∧
    decode (0b000010000001#12 ++ 4#5 ++ 3#5 ++ 2#5 ++ 1#5) = some (.fmaddS 1 2 3 4) ∧
    decode (0b000011000001#12 ++ 0b00010#5 ++ 3#5 ++ 2#5 ++ 0b00#2 ++ 7#3) = some (.fcmpCltS 7 2 3) ∧
    decode (0b00001101000000#14 ++ 7#3 ++ 3#5 ++ 2#5 ++ 1#5) = some (.fsel 1 2 3 7) ∧
    decode (0b0000000100010100110100#22 ++ 2#5 ++ 0b00#2 ++ 7#3) = some (.movfr2cf 7 2) ∧
    decode (0b0010101100#10 ++ 0x800#12 ++ 5#5 ++ 1#5) = some (.fldS 1 5 0x800) := by
  refine ⟨?_, ?_, ?_, ?_, ?_, ?_⟩ <;> rfl

/-- CSR access by the rj field, IOCSR, CACOP, INVTLB, LDDIR, LDPTE, ERTN, IDLE (R311 to R313, R305). -/
theorem test_bits_privileged :
    decode (0b00000100#8 ++ 0x180#14 ++ 0#5 ++ 4#5) = some (.csrrd 4 0x180) ∧
    decode (0b00000100#8 ++ 0x180#14 ++ 1#5 ++ 4#5) = some (.csrwr 4 0x180) ∧
    decode (0b00000100#8 ++ 0x180#14 ++ 2#5 ++ 4#5) = some (.csrxchg 4 2 0x180) ∧
    decode (0b0000011001001000000000#22 ++ 5#5 ++ 4#5) = some (.iocsrrdB 4 5) ∧
    decode (0b0000011000#10 ++ 0x800#12 ++ 5#5 ++ 0x13#5) = some (.cacop 0x13 5 0x800) ∧
    decode (0b00000110010010011#17 ++ 6#5 ++ 5#5 ++ 4#5) = some (.invtlb 4 5 6) ∧
    decode (0b00000110010000#14 ++ 3#8 ++ 5#5 ++ 4#5) = some (.lddir 4 5 3) ∧
    decode (0b00000110010001#14 ++ 1#8 ++ 5#5 ++ 0#5) = some (.ldpte 5 1) ∧
    decode 0b00000110010010000011100000000000#32 = some .ertn ∧
    decode (0b00000110010010001#17 ++ 1#15) = some (.idle 1) := by
  refine ⟨?_, ?_, ?_, ?_, ?_, ?_, ?_, ?_, ?_, ?_⟩ <;> rfl

/-- Words outside every row are no instruction: the zero word, and rows with a fixed bit changed (R307, R309, R320). -/
theorem test_undefined_words :
    decode 0#32 = none ∧ decode (0b00000000000000010#17 ++ 6#5 ++ 5#5 ++ 1#5) = none ∧
    decode (0b000011000001#12 ++ 0b00010#5 ++ 3#5 ++ 2#5 ++ 0b01#2 ++ 7#3) = none ∧
    decode (0b010010#6 ++ 0x0002#16 ++ 0b10#2 ++ 3#3 ++ 0b10000#5) = none := by
  refine ⟨?_, ?_, ?_, ?_⟩ <;> rfl

/-! ## Well-formedness (30_encoding.md R311) -/

/-- CSRXCHG with mask register r0 has no word: the check refuses it, and its fields decode as CSRRD. -/
theorem test_wf_csrxchg_r0 : (Instr.csrxchg 4 0 0x180).wf = false ∧ decode 0x04060004#32 = some (.csrrd 4 0x180) :=
  ⟨rfl, rfl⟩

/-- CSRXCHG with mask register r1 has no word: the check refuses it, and its fields decode as CSRWR. -/
theorem test_wf_csrxchg_r1 : (Instr.csrxchg 4 1 0x180).wf = false ∧ decode 0x04060024#32 = some (.csrwr 4 0x180) :=
  ⟨rfl, rfl⟩

/-- CSRXCHG with another mask register is well formed, and so is every other instruction. -/
theorem test_wf_accepts : (Instr.csrxchg 4 5 0x180).wf = true ∧ (Instr.addW 4 5 6).wf = true := ⟨rfl, rfl⟩

namespace Machine

/-! ## Single steps -/

/-- The reset state with registers r4, r5 and r6. -/
def regs (a b c : Word) : State := ((State.reset.setX 4 a).setX 5 b).setX 6 c

/-- The reset state with the floating-point unit enabled, fcsr0, f2, f3 and f4. -/
def fregs (fcsr : BitVec 32) (a b c : Word) : State :=
  ((((State.reset.setBasic { Csrs.reset.basic with euen := 1 }).setF 2 a).setF 3 b).setF 4 c).setFcsr0 fcsr

/-- What `f` reads in the next state, if there is one. -/
def got {α : Type} (o : Out) (f : State → α) : Option α :=
  match o with
  | .next t => some (f t)
  | _ => none

/-- `f[1]` and fcsr0 after an instruction. -/
def double1 (i : Instr) (s : State) : Option (Word × BitVec 32) := got (exec i s) fun t => (t.f 1, t.fcsr0)

/-- D1: the configuration words of the reference configuration, made from its parameters. -/
theorem test_config_words :
    [0, 1, 2, 3, 4, 5, 6, 0x10, 0x14].map Config.cpucfg = [0, 0x03F2F2FE, 0x7E60C00F, 0xFC00, 0, 0, 0x3F33, 0, 0] ∧
    (Config.prcfg1, Config.prcfg2, Config.prcfg3) = (0x72F8, 0x7FFFF000, 0x8073F2) := by decide

/-- R341. -/
theorem test_addw_wraps : got (exec (.addW 4 5 6) (regs 0 0x7FFFFFFF 1)) (·.x 4) = some 0xFFFFFFFF80000000 := by decide

/-- 95, chapter 40. -/
theorem test_subw : got (exec (.subW 4 5 6) (regs 0 0x80000000 1)) (·.x 4) = some 0x7FFFFFFF := by decide

/-- R349. -/
theorem test_alslwu_zero_extends : got (exec (.alslWu 4 5 6 3) (regs 0 0x0FFFFFFF 0)) (·.x 4) = some 0xFFFFFFF0 := by decide

/-- R374. -/
theorem test_mulhwu_sign_extends : got (exec (.mulhWu 4 5 6) (regs 0 0xFFFFFFFF 0xFFFFFFFF)) (·.x 4) = some 0xFFFFFFFFFFFFFFFE := by decide

/-- 95, chapter 40. -/
theorem test_mulwdw_signed : got (exec (.mulwDW 4 5 6) (regs 0 0xFFFFFFFF 2)) (·.x 4) = some 0xFFFFFFFFFFFFFFFE := by decide

/-- R352: the sign-extended immediate above, the low word of rd kept. -/
theorem test_lu32id_keeps_low : got (exec (.lu32iD 4 0x80000) (regs 0x12345678 0 0)) (·.x 4) = some 0xFFF8000012345678 := by decide

/-- 95, chapter 40. -/
theorem test_andn_inverts_rk : got (exec (.andn 4 5 6) (regs 0 0xFF 0x0F)) (·.x 4) = some 0xF0 := by decide

/-- R402. -/
theorem test_sllw_amount : got (exec (.sllW 4 5 6) (regs 0 1 0x3F)) (·.x 4) = some 0xFFFFFFFF80000000 := by decide

/-- R409. -/
theorem test_rotriw : got (exec (.rotriW 4 5 8) (regs 0 0x12345678 0)) (·.x 4) = some 0x78123456 := by decide

/-- R430. -/
theorem test_revb2h : got (exec (.revb2H 4 5) (regs 0 0x0123456789ABCDEF 0)) (·.x 4) = some 0xFFFFFFFFAB89EFCD := by decide

set_option maxRecDepth 4000 in
/-- R438. -/
theorem test_bitrevw : got (exec (.bitrevW 4 5) (regs 0 0x0123456789ABCDEF 0)) (·.x 4) = some 0xFFFFFFFFF7B3D591 := by decide

/-- R442. -/
theorem test_bstrinsd : got (exec (.bstrinsD 4 5 63 32) (regs 0xDEADBEEF 0x12345678 0)) (·.x 4) = some 0x12345678DEADBEEF := by decide

/-- R444. -/
theorem test_bstrpickd : got (exec (.bstrpickD 4 5 47 16) (regs 0 0x0123456789ABCDEF 0)) (·.x 4) = some 0x456789AB := by decide

/-- 95, chapter 49. -/
theorem test_csrrd_crmd : got (exec (.csrrd 4 0x0) (regs 0 0 0)) (·.x 4) = some 8 := by decide

/-- 95, chapter 49: the old value is returned. -/
theorem test_csrxchg_ecfg : got (exec (.csrxchg 4 5 0x4) (regs 0xFFFFFFFF 0xFFFFFFFF 0)) (·.x 4) = some 0 := by decide

/-- 95, chapter 49: LIE and VS alone are written. -/
theorem test_csrxchg_ecfg_written :
    got (exec (.csrxchg 4 5 0x4) (regs 0xFFFFFFFF 0xFFFFFFFF 0)) (·.csr.basic.ecfg) = some 0x00071FFF := by decide

/-- 95, chapter 49: reserved bits of CRMD take nothing. -/
theorem test_csrwr_crmd :
    got (exec (.csrwr 4 0x0) (regs 0xFFFFFFFFFFFFFEAF 0 0)) (·.csr.basic.crmd) = some 0x2AF := by decide

/-- R463 and R472: a taken branch backward; a call links r1. -/
theorem test_branches :
    got (exec (.bne 5 6 0xFFFF) (regs 0 1 0)) (·.pc) = some 0x1BFFFFFC ∧
    got (exec (.bl 0x100) (regs 0 0 0)) (fun t => (t.x 1, t.pc)) = some (0x1C000004, 0x1C000400) := by decide

/-- 20_memory.md R204: a word stored at an unaligned address, its bytes lowest first. -/
theorem test_store_bytes :
    got (exec (.stW 4 5 1) (regs 0xAABBCCDD 0x100 0)) (·.mem) =
      some [(0x101, 0xDD), (0x102, 0xCC), (0x103, 0xBB), (0x104, 0xAA)] := by decide

/-- R484 and R488: the same halfword sign-extended and zero-extended. -/
theorem test_load_halves :
    got (exec (.ldH 4 5 0) ((regs 0 0x100 0).storeByte 0x101 0x80)) (·.x 4) = some 0xFFFFFFFFFFFF8000 ∧
    got (exec (.ldHu 4 5 0) ((regs 0 0x100 0).storeByte 0x101 0x80)) (·.x 4) = some 0x8000 := by decide

/-- R549: the old word to rd, the sum to memory. -/
theorem test_amaddw :
    got (exec (.amaddW 4 5 6) ((regs 0 0x100 3).storeByte 0x100 0xFF)) (fun t => (t.x 4, t.mem)) =
      some (0xFF, [(0x100, 0x02), (0x101, 0x01)]) := by decide

/-- R573 on coherent cached memory (DATM = 1): a store-conditional without LLbit stores nothing. -/
theorem test_scw_without_llbit :
    got (exec (.scW 4 5 0) ((regs 7 0x100 0).setCrmd 0x88)) (fun t => (t.x 4, t.mem)) = some (0, []) := by decide

/-- 95, chapters 46 to 48: ties to even, the rounding modes, the exceptions recorded. -/
theorem test_fadds :
    got (exec (.faddS 1 2 3) (fregs 0 0x3F800000 0x33800000 0)) (·.fcsr0) = some 0x01010000 ∧
    got (exec (.faddS 1 2 3) (fregs 0x200 0x3F800000 0x33800000 0)) (·.fcsr0) = some 0x01010200 ∧
    single.add 0 false 0x3F800000 0x33800000 = ⟨0x3F800000, excI⟩ ∧
    single.add 2 false 0x3F800000 0x33800000 = ⟨0x3F800001, excI⟩ := by
  exact ⟨rfl, rfl, rfl, rfl⟩

/-- 95, chapters 46 to 48: an enabled exception traps; Flags and the destination keep their values. -/
theorem test_fadds_traps :
    got (exec (.faddS 1 2 3) (fregs 1 0x3F800000 0x33800000 0)) (fun t => (bits t.csr.basic.estat 16 6, t.fcsr0, t.f 1)) =
      some (0x12, 0x01000001, 0) := by rfl

/-- 95, chapters 46 to 48: overflow; division by zero; one rounding of a fused operation. -/
theorem test_fp_corners :
    double1 (.fmulD 1 2 3) (fregs 0 0x7FEFFFFFFFFFFFFF 0x7FEFFFFFFFFFFFFF 0) = some (0x7FF0000000000000, 0x05050000) ∧
    single.div 0 false 0xBF800000 0 = ⟨0xFF800000, excZ⟩ ∧
    double1 (.fmaddD 1 2 3 4) (fregs 0 0x3FF0000000000001 0x3FEFFFFFFFFFFFFE 0xBFF0000000000000) =
      some (0xB970000000000000, 0) := by
  exact ⟨rfl, rfl, rfl⟩

/-- R681 and R683: a guaranteed point and operands with a default result, whatever the estimate is. -/
theorem test_estimates :
    single.recipe 0 false 0x40800000 7 = ⟨0x3E800000, 0⟩ ∧ single.recipe 0 false 0 7 = ⟨0x7F800000, excZ⟩ ∧
    single.rsqrte 0 false 0xBF800000 7 = ⟨0x7FC00000, excV⟩ := by
  exact ⟨rfl, rfl, rfl⟩

/-- 95, chapters 46 to 48: a quiet and a signaling comparison of a QNaN. -/
theorem test_fcmp :
    got (exec (.fcmpCltS 0 2 3) (fregs 0 0x7FC00000 0x3F800000 0)) (fun t => (t.cc 0, t.fcsr0)) = some (false, 0) ∧
    got (exec (.fcmpSltS 0 2 3) (fregs 0 0x7FC00000 0x3F800000 0)) (fun t => (t.cc 0, t.fcsr0)) =
      some (false, 0x10100000) := by
  exact ⟨rfl, rfl⟩

/-- 95, chapter 60: SYSCALL at PLV3 with ECFG.VS = 2. -/
def userCall : State :=
  (State.reset.setBasic
    { Csrs.reset.basic with crmd := 0xB7, ecfg := 0x20000, eentry := 0x9000000000200000 }).setPc 0x120000010

/-- 95, chapter 60: the registers that the entry saves and the address it goes to. -/
theorem test_syscall :
    got (exec (.syscall 0) userCall) (fun t => (t.pc, t.csr.basic.prmd, t.csr.basic.crmd, t.csr.basic.era)) =
      some (0x90000000002000B0, 0x7, 0xB0, 0x120000010) ∧
    got (exec (.syscall 0) userCall) (fun t => bits t.csr.basic.estat 16 6) = some 0xB := by decide

/-- R845: the example of ERTN. -/
theorem test_ertn :
    got (exec .ertn ((State.reset.setBasic { Csrs.reset.basic with crmd := 0xB0, prmd := 0x7, era := 0x120000000 }).setLL
      true)) (fun t => (t.csr.basic.crmd, t.pc, t.llbit)) = some (0xB7, 0x120000000, false) := by decide

/-- 95, chapter 60: a TLB refill on a load at PLV3. -/
theorem test_refill :
    (({ (State.reset.setBasic { Csrs.reset.basic with crmd := 0xB7 }) with pc := 0x120000030 } : State).raise
      (.tlbr 0x404123)).csr.refill.era = 0x120000031 := by decide

/-- 95, chapter 13: a periodic timer of 16 ticks sets TI and is loaded again. -/
theorem test_timer :
    let t := (State.reset.csrWrite .tcfg 0x13).tick 16
    (t.csr.timer.tval, t.is) = (16, 0x800) := by decide

/-- 95, chapter 60: with HWI0 and TI pending the timer wins. -/
theorem test_interrupt_priority :
    (({ State.reset with hwi := 1 } : State).setBasic
      { Csrs.reset.basic with crmd := 0xC, ecfg := 0x1FFF, estat := 0x800 }).interrupt = some 75 := by decide

/-- The first step after reset runs the word placed at the reset vector: add.w r4, r5, r6. -/
theorem test_first_step :
    step (State.reset.withFetchWord 32 0x001018A4) =
      exec (.addW 4 5 6) { State.reset.withFetchWord 32 0x001018A4 with ir := 0x001018A4 } := by rfl

/-- 95, chapter 60: an empty word at the reset vector raises INE. -/
theorem test_empty_memory : step State.reset = .next (State.reset.raise .ine) := by rfl

/-! ## States and operands that meet the hypotheses of the statements -/

/-- IntMultiply and Shifts: the most negative word, and an amount of 63. -/
theorem test_meets_IntMultiply :
    0x80000000#32 = ((regs 0 0x80000000 63).x 5).setWidth 32 ∧ 63#32 = ((regs 0 0x80000000 63).x 6).setWidth 32 := by
  decide

/-- Shifts: amounts at the end of their ranges. -/
theorem test_meets_Shifts :
    0x80000000#32 = ((regs 0 0x80000000 63).x 5).setWidth 32 ∧ 31 = ((regs 0 0x80000000 63).x 6).toNat % 32 ∧
    63 = ((regs 0 0x80000000 63).x 6).toNat % 64 := by decide

/-- IntDivide: a divisor of 1 and of 0, as words and as doublewords; the most negative number and -1. -/
theorem test_meets_IntDivide :
    ((regs 0 7 1).x 6).setWidth 32 ≠ 0#32 ∧ (regs 0 7 0x100000000).x 6 ≠ 0 ∧
    ((regs 0 7 0x100000000).x 6).setWidth 32 = 0#32 ∧ (regs 0 7 0).x 6 = 0 ∧
    ((regs 0 0x80000000 0xFFFFFFFF).x 6).setWidth 32 ≠ 0#32 ∧ (((regs 0 0x80000000 0xFFFFFFFF).x 5).setWidth 32).toInt = -2 ^ 31 ∧
    (((regs 0 0x80000000 0xFFFFFFFF).x 6).setWidth 32).toInt = -1 ∧ (regs 0 (1 <<< 63) (-1)).x 6 ≠ 0 ∧
    ((regs 0 (1 <<< 63) (-1)).x 5).toInt = -2 ^ 63 ∧ ((regs 0 (1 <<< 63) (-1)).x 6).toInt = -1 := by decide

/-- R380, D29: the most negative number divided by -1 gives itself. -/
theorem test_divide_overflow :
    got (exec (.divW 4 5 6) (regs 0 0x80000000 0xFFFFFFFF)) (·.x 4) = some 0xFFFFFFFF80000000 ∧
    got (exec (.modD 4 5 6) (regs 0 (1 <<< 63) (-1))) (·.x 4) = some 0 := by decide

/-- BitCounts: the counts 0 and 32 of a word. -/
theorem test_meets_BitCounts_word :
    LeadsWith true 32 ((regs 0 0 0).x 5) 0 ∧ LeadsWith true 32 ((regs 0 0xFFFFFFFF 0).x 5) 32 ∧
    LeadsWith false 32 ((regs 0 0x80000000 0).x 5) 0 ∧ LeadsWith false 32 ((regs 0 0 0).x 5) 32 ∧
    TrailsWith true 32 ((regs 0 0 0).x 5) 0 ∧ TrailsWith true 32 ((regs 0 0xFFFFFFFF 0).x 5) 32 ∧
    TrailsWith false 32 ((regs 0 1 0).x 5) 0 ∧ TrailsWith false 32 ((regs 0 0 0).x 5) 32 := by
  unfold LeadsWith TrailsWith; decide

/-- BitCounts: the counts 0 and 64 of a doubleword. -/
theorem test_meets_BitCounts_double :
    LeadsWith true 64 ((regs 0 0 0).x 5) 0 ∧ LeadsWith true 64 ((regs 0 (-1) 0).x 5) 64 ∧
    LeadsWith false 64 ((regs 0 (-1) 0).x 5) 0 ∧ LeadsWith false 64 ((regs 0 0 0).x 5) 64 ∧
    TrailsWith true 64 ((regs 0 0 0).x 5) 0 ∧ TrailsWith true 64 ((regs 0 (-1) 0).x 5) 64 ∧
    TrailsWith false 64 ((regs 0 1 0).x 5) 0 ∧ TrailsWith false 64 ((regs 0 0 0).x 5) 64 := by
  unfold LeadsWith TrailsWith; decide

/-- PickAndInsert: the fields one apart, equal, and at the ends. -/
theorem test_meets_PickAndInsert :
    (7#5).toNat < (8#5).toNat ∧ ¬(8#5).toNat < (8#5).toNat ∧ ¬(31#5).toNat < (0#5).toNat ∧
    (62#6).toNat < (63#6).toNat ∧ ¬(63#6).toNat < (63#6).toNat := by decide

/-- BranchesAndJumps: the targets of the largest backward and forward offset. -/
theorem test_meets_BranchesAndJumps :
    0x1BFE0000#64 = State.reset.pc + (0x8000#16 ++ 0#2).signExtend 64 ∧
    0x1C3FFFFC#64 = State.reset.pc + (0xFFFFF#21 ++ 0#2).signExtend 64 ∧
    0x14000000#64 = State.reset.pc + (0x2000000#26 ++ 0#2).signExtend 64 ∧ 0x1C000004#64 = State.reset.pc + 4 := by decide

/-- CrcAndCpucfg: the polynomials, the largest message of each width, any number of a configuration word and the
undefined ones at the ends of their ranges; a checksum as 64 bits. -/
theorem test_meets_CrcAndCpucfg :
    (∀ n, (regs n 0 0).x 4 = n) ∧ 6 < (7#64).toNat ∧ (15#64).toNat < 16 ∧ 20 < (21#64).toNat ∧
    0x5A#64 = (0xFFFFFFFF0000003A#64 &&& 0xFFFFFFFF) ^^^ 0x60 ∧
    (0xEDB88320#64).toNat < 2 ^ 32 ∧ (0x82F63B78#64).toNat < 2 ^ 32 ∧ (0xFFFF#64).toNat < 2 ^ 16 ∧
    (0xFFFFFFFF#64).toNat < 2 ^ 32 ∧ (0xFFFFFFFFFFFFFFFF#64).toNat < 2 ^ 64 :=
  ⟨fun _ => rfl, by decide⟩

/-- CallsAndAssertions: equal operands and operands one apart. -/
theorem test_meets_CallsAndAssertions :
    ((regs 0 3 3).x 5).toInt ≤ ((regs 0 3 3).x 6).toInt ∧ ¬((regs 0 4 3).x 5).toInt ≤ ((regs 0 4 3).x 6).toInt ∧
    ((regs 0 4 3).x 6).toInt < ((regs 0 4 3).x 5).toInt ∧ ¬((regs 0 3 3).x 6).toInt < ((regs 0 3 3).x 5).toInt := by
  decide

/-! ### Accesses -/

/-- The physical bytes of an access of `n` bytes at `a`, of the memory access type `mat`. -/
def bytesAt (a n : Nat) (mat : BitVec 2) : List Phys := (List.range n).map fun i => ⟨a + i, mat⟩

/-- `regs` with CRMD.DATM = 1: loads and stores are of coherent cached memory. -/
def cached (a b c : Word) : State := (regs a b c).setCrmd 0x88

/-- The memory of the test states is in form. -/
theorem test_meets_MemOk : MemOk (regs 0 0x101 0x100) ∧ MemOk (cached 7 0x100 7) ∧ MemOk (fregs 0 0 0 0) :=
  ⟨⟨rfl, fun _ h => nomatch h⟩, ⟨rfl, fun _ h => nomatch h⟩, ⟨rfl, fun _ h => nomatch h⟩⟩

/-- Loads: an access of each width at an odd address, alignment not being checked. -/
theorem test_meets_Loads :
    0x101 = (regs 0 0x101 0).x 5 + (0#12).signExtend 64 ∧ 0x101 = (regs 0 0x101 0).x 5 + (regs 0 0x101 0).x 6 ∧
    0x101 = (regs 0 0x101 0).x 5 + (0#14 ++ 0#2).signExtend 64 ∧
    ∀ n ∈ [1, 2, 4, 8], Accesses (regs 0 0x101 0) ((regs 0 0x101 0).ordLoad 0x101 n) (bytesAt 0x101 n 0) := by
  refine ⟨by decide, by decide, by decide, ?_⟩; unfold Accesses Unwatched; decide

/-- Stores: an access of each width at an odd address. -/
theorem test_meets_Stores :
    0x101 = (regs 0 0x101 0).x 5 + (0#12).signExtend 64 ∧
    ∀ n ∈ [1, 2, 4, 8], Accesses (regs 0 0x101 0) ((regs 0 0x101 0).ordStore 0x101 n) (bytesAt 0x101 n 0) := by
  refine ⟨by decide, ?_⟩; unfold Accesses Unwatched; decide

/-- BoundAccesses: the bound one below the address, and at it. -/
theorem test_meets_BoundAccesses :
    true = decide (((regs 0 0x108 0x107).x 6).toNat < ((regs 0 0x108 0x107).x 5).toNat) ∧
    true = decide (((regs 0 0x108 0x108).x 5).toNat ≤ ((regs 0 0x108 0x108).x 6).toNat) ∧
    ∀ n ∈ [1, 2, 4, 8],
      Accesses (regs 0 0x108 0x107) ((regs 0 0x108 0x107).boundLoad 0x108 n true) (bytesAt 0x108 n 0) ∧
      Accesses (regs 0 0x108 0x108) ((regs 0 0x108 0x108).boundLoad 0x108 n true) (bytesAt 0x108 n 0) ∧
      Accesses (regs 0 0x108 0x107) ((regs 0 0x108 0x107).boundStore 0x108 n true) (bytesAt 0x108 n 0) ∧
      Accesses (regs 0 0x108 0x108) ((regs 0 0x108 0x108).boundStore 0x108 n true) (bytesAt 0x108 n 0) := by
  refine ⟨by decide, by decide, ?_⟩; unfold Accesses Unwatched; decide

/-- DirectModeAccess: an aligned atomic access at the end of the physical space. -/
theorem test_meets_DirectModeAccess :
    State.reset.da = true ∧ State.reset.pg = false ∧ State.reset.rbits ≤ 8 ∧ State.reset.directMat .store ≠ 3 ∧
    (State.reset.alignChecked (State.reset.atomicAccess 0xFFFFFFFFFFF8 8).align = true →
      (State.reset.atomicAccess 0xFFFFFFFFFFF8 8).va.toNat % 8 = 0) ∧
    (State.reset.atomicAccess 0xFFFFFFFFFFF8 8).boundOk = true ∧
    Unwatched State.reset (State.reset.atomicAccess 0xFFFFFFFFFFF8 8) := by unfold Unwatched; decide

/-- A mode of mapped translation, at PLV0, with a direct mapping window at 0x9 and the given TLB. -/
def mapped (l : List (Nat × TlbEntry)) (hi : Word) (idx : BitVec 32) : State :=
  ((State.reset.setBasic { Csrs.reset.basic with crmd := 0xB0 }).setMmu
    { Csrs.reset.mmu with
      tlbehi := hi, tlbidx := idx, dmw := #v[0x9000000000000011, 0, 0, 0x8000000000000011] }).setTlb l

/-- A valid page. -/
def validPage (ppn : BitVec 36) : TlbPage := ⟨true, true, 0, 1, ppn, false, false, false⟩

/-- An entry of two 4 KiB pages for the page number 0x202. -/
def smallEntry : TlbEntry := ⟨0, false, 12, 0x202, validPage 0x500, validPage 0x501⟩

/-- AccessChecksInOrder: an unaligned atomic access, an address that is no sign extension, and a failed bound. -/
theorem test_meets_AccessChecksInOrder :
    (mapped [] 0 0).da ≠ (mapped [] 0 0).pg ∧ (mapped [] 0 0).rbits ≤ 8 ∧
    (mapped [] 0 0).alignChecked .always = true ∧ ((mapped [] 0 0).atomicAccess 0x1 4).va.toNat % 4 ≠ 0 ∧
    (∃ n, n < 4 ∧ (mapped [] 0 0).legal .store
      ((mapped [] 0 0).effVa (((mapped [] 0 0).atomicAccess 0x800000000000 4).va + BitVec.ofNat 64 n)) = false) ∧
    (∀ n, n < 4 → (mapped [] 0 0).legal .store
      ((mapped [] 0 0).effVa (((mapped [] 0 0).boundStore 0x7FFFFFFFFFFC 4 false).va + BitVec.ofNat 64 n)) = true) ∧
    ((mapped [] 0 0).boundStore 0x7FFFFFFFFFFC 4 false).boundOk = false := by
  refine ⟨by decide, by decide, by decide, by decide, ⟨0, by decide, by decide⟩, by decide, by decide⟩

/-- R251, R252: with RVACFG.RBits = 8 the last address below bit 39 is legal and the next is not; a window makes any legal,
the last one for a load alone. -/
theorem test_legality :
    let s := (mapped [] 0 0).setBasic { (mapped [] 0 0).csr.basic with rvacfg := 8 }
    s.legal .load 0x7FFFFFFFFF = true ∧ s.legal .load 0x8000000000 = false ∧
    s.legal .load 0xFFFFFF8000000000 = true ∧ s.legal .load 0xFFFFFF7FFFFFFFFF = false ∧
    s.legal .fetch 0x9123456789ABCDEF = true ∧ s.legal .load 0x8123456789ABCDEF = true ∧
    s.legal .fetch 0x8123456789ABCDEF = false := by decide

/-- A pair of pages at 0x404000 of which the second is `p`. -/
def crossing (p : TlbPage) : State := mapped [(2048, { smallEntry with page1 := p })] 0 0

/-- AccessChecksInOrder: the last four of eight bytes in a page that is not valid; two entries that match; pages of two
memory access types; pages of one. -/
theorem test_meets_AccessChecksInOrder_bytes :
    FirstRaises (crossing { validPage 0x501 with v := false }) .load 0x404FFC 8 (.pil 0x404FFC) ∧
    FirstStops (mapped [(2048, smallEntry), (2111, smallEntry)] 0 0) .load 0x404000 8 (.fault .multipleTlbHits) ∧
    BytesTranslate (crossing { validPage 0x501 with mat := 0 }) .load 0x404FFC 8
      (fun n => ⟨0x500FFC + n, if n < 4 then 1 else 0⟩) ∧
    BytesTranslate (crossing (validPage 0x501)) .load 0x404FFC 8 (fun n => ⟨0x500FFC + n, 1⟩) ∧
    (crossing (validPage 0x501)).alignChecked .configured = false := by
  refine ⟨⟨4, by decide, rfl, fun m hm => ?_⟩, ⟨0, by decide, rfl, fun m hm => by omega⟩, fun n hn => ?_, fun n hn => ?_,
    rfl⟩
  · interval_cases m <;> exact ⟨_, rfl⟩
  · interval_cases n <;> rfl
  · interval_cases n <;> rfl

/-- LoadAfterStore: no address, and sixteen distinct ones. -/
theorem test_meets_LoadAfterStore : ([] : List Nat).Nodup ∧ (List.range 16).Nodup ∧ 17 ∉ List.range 16 := by decide

/-- AtomicWordDouble, AtomicByteHalf and CompareAndSwap: an aligned access of each width; rd other than rk, r0, rd = rk,
and rd = rj. -/
theorem test_meets_Atomics :
    (∀ n ∈ [1, 2, 4, 8], Accesses (regs 0 0x108 3) ((regs 0 0x108 3).atomicAccess 0x108 n) (bytesAt 0x108 n 0)) ∧
    3#32 = ((regs 0 0x108 3).x 6).setWidth 32 ∧ 0 = (regs 0 0x108 3).valueAt (physAddrs (bytesAt 0x108 8 0)) ∧
    (4 : Reg) ≠ 5 ∧ (4 : Reg) ≠ 6 ∧ (0 : Reg) = 0 ∧ (6 : Reg) = 6 ∧ (6 : Reg) ≠ 0 := by
  unfold Accesses Unwatched; decide

/-- CompareAndSwap: the bytes equal the low bytes of rd, and do not. -/
theorem test_meets_CompareAndSwap :
    (regs 0x100 0x108 3).valueAt (physAddrs (bytesAt 0x108 1 0)) = ((regs 0x100 0x108 3).x 4).toNat % 2 ^ (8 * 1) ∧
    (regs 0x100 0x108 3).valueAt (physAddrs (bytesAt 0x108 2 0)) ≠ ((regs 0x100 0x108 3).x 4).toNat % 2 ^ (8 * 2) := by
  decide

/-- LoadLinked: both memory types, both widths. -/
theorem test_meets_LoadLinked :
    (∀ n ∈ [4, 8], Accesses (cached 0 0x100 0) ((cached 0 0x100 0).linkedLoad 0x100 n) (bytesAt 0x100 n 1) ∧
      Accesses (regs 0 0x100 0) ((regs 0 0x100 0).linkedLoad 0x100 n) (bytesAt 0x100 n 0) ∧
      ∀ q ∈ bytesAt 0x100 n 1, q.mat = 1) ∧
    0 = (cached 0 0x100 0).valueAt (physAddrs (bytesAt 0x100 8 1)) ∧ ¬∀ q ∈ bytesAt 0x100 8 0, q.mat = 1 := by
  unfold Accesses Unwatched; decide

/-- StoreConditional: both memory types, the three widths, LLbit 0 and 1. -/
theorem test_meets_StoreConditional :
    (∀ n ∈ [4, 8, 16],
      Accesses ((cached 0 0x100 0).setLL true) (((cached 0 0x100 0).setLL true).condStore 0x100 n) (bytesAt 0x100 n 1) ∧
      Accesses (cached 0 0x100 0) ((cached 0 0x100 0).condStore 0x100 n) (bytesAt 0x100 n 1) ∧
      Accesses (regs 0 0x100 0) ((regs 0 0x100 0).condStore 0x100 n) (bytesAt 0x100 n 0)) ∧
    (∀ q ∈ bytesAt 0x100 16 1, q.mat = 1) ∧ (¬∀ q ∈ bytesAt 0x100 16 0, q.mat = 1) ∧
    ((cached 0 0x100 0).setLL true).llbit = true ∧ (cached 0 0x100 0).llbit = false := by
  unfold Accesses Unwatched; decide

/-! ### Floating-point -/

/-- RoundingOfUnits: nothing cut off, and one bit cut off. -/
theorem test_meets_RoundingOfUnits :
    roundUnits 0 ⟨false, 3, 0⟩ 0 = (3, false) ∧ (0 : Int) ≤ 0 ∧ roundUnits 0 ⟨false, 3, 0⟩ 1 = (2, true) ∧ (0 : Int) < 1 ∧
    1 = ((1 : Int) - 0).toNat ∧ roundUnits 1 ⟨false, 3, 0⟩ 1 = (1, true) ∧ roundUnits 2 ⟨false, 3, 0⟩ 1 = (2, true) := by
  decide

/-- RoundingIsExact: the largest finite numbers, negative. -/
theorem test_meets_RoundingIsExact :
    (0xFF7FFFFF#64).toNat < 2 ^ (single.signBit + 1) ∧ single.isFinite 0xFF7FFFFF = true ∧
    (0xFFEFFFFFFFFFFFFF#64).toNat < 2 ^ (double.signBit + 1) ∧ double.isFinite 0xFFEFFFFFFFFFFFFF = true := by decide

/-- FpArithmetic and the statements after it: the unit enabled; an operation that traps and one that does not. -/
theorem test_meets_FpArithmetic :
    FpOn (fregs 0 0x3F800000 0x33800000 0) ∧ 0 = (fregs 0 0x3F800000 0x33800000 0).fpRm ∧
    false = (fregs 0 0x3F800000 0x33800000 0).fpEnables.getLsbD 1 ∧
    0x3F800000 = ((fregs 0 0x3F800000 0x33800000 0).fs 2).setWidth 64 ∧
    NoTrap (fregs 0 0x3F800000 0x33800000 0) (single.add 0 false 0x3F800000 0x33800000).exc ∧
    ¬NoTrap (fregs 1 0x3F800000 0x33800000 0) (single.add 0 false 0x3F800000 0x33800000).exc := by
  unfold FpOn NoTrap; decide

/-- FpArithmetic, FpNegatedFused, FpRootsAndScales, FpConversions, FpToInteger: the largest finite numbers, zeros, infinities
and NaNs of both kinds, of each format; a product without a value, and one with a value. -/
theorem test_meets_FpNumbers :
    ∀ p ∈ [(single, 0x7F7FFFFF#64, 0xFF800000#64, 0x7FC00000#64, 0xFFBFFFFF#64),
        (double, 0x7FEFFFFFFFFFFFFF, 0xFFF0000000000000, 0x7FF8000000000000, 0xFFF7FFFFFFFFFFFF)],
      p.1.isFinite p.2.1 = true ∧ p.1.isZero p.2.1 = false ∧ p.1.sign p.2.1 = false ∧ p.1.isFinite 0 = true ∧
      p.1.isZero 0 = true ∧ p.1.isInf p.2.2.1 = true ∧ p.1.sign p.2.2.1 = true ∧ p.1.isNan p.2.2.1 = false ∧
      [p.2.1, p.2.2.2.1, p.2.2.2.2].find? p.1.isSnan = some p.2.2.2.2 ∧
      [p.2.1, p.2.2.2.1].find? p.1.isSnan = none ∧ [p.2.1, p.2.2.2.1].find? p.1.isNan = some p.2.2.2.1 ∧
      true = (p.1.sign p.2.1 != p.1.sign p.2.2.1) ∧ (p.1.isZero 0 = true ∧ p.1.isInf p.2.2.1 = true) ∧
      ¬(p.1.isZero p.2.1 = true ∧ p.1.isInf p.2.2.1 = true ∨ p.1.isInf p.2.1 = true ∧ p.1.isZero p.2.2.1 = true) := by
  decide

/-- FpToInteger and FpRootsAndScales: 2.5, a tie, rounded in each mode, -2.5 toward zero, and the exponent of 2.5. -/
theorem test_meets_RoundedInt :
    single.num 0x40200000 = 5 / 2 ∧ double.num 0xC004000000000000 = -5 / 2 ∧ RoundedInt 0 (5 / 2) 2 ∧
    RoundedInt 1 (5 / 2) 2 ∧ RoundedInt 1 (-5 / 2) (-2) ∧ RoundedInt 2 (5 / 2) 3 ∧ RoundedInt 3 (5 / 2) 2 ∧
    (2 : ℚ) ^ (1 : Int) ≤ |5 / 2| ∧ |(5 / 2 : ℚ)| < 2 ^ ((1 : Int) + 1) := by
  have hs : single.value 0x40200000 = ⟨false, 10485760, -22⟩ := by decide
  have hd : double.value 0xC004000000000000 = ⟨true, 5629499534213120, -51⟩ := by decide
  have hc : ⌈(5 / 2 : ℚ)⌉ = 3 ∧ ⌊(5 / 2 : ℚ)⌋ = 2 ∧ ⌈(-5 / 2 : ℚ)⌉ = -2 := by
    simp only [Int.ceil_eq_iff, Int.floor_eq_iff]; norm_num
  unfold Fmt.num RoundedInt
  rw [hs, hd, hc.1, hc.2.1, hc.2.2]
  norm_num [Exact.rat, abs_of_pos, zpow_neg]
  decide

/-- FpRootsAndScales: a number that may have an estimate, -2^N among them, and the guaranteed points. -/
theorem test_meets_FpRootsAndScales :
    FpEstimated single 0x40400000 ∧ single.isPow2 0x40400000 = false ∧ single.recipBound 0x40400000 0x3EAAAAAB = true ∧
    FpEstimated single 0xC0000000 ∧ single.isPow2 0xC0000000 = false ∧ single.isPow2 0x40000000 = true ∧
    single.isPow4 0x40000000 = false ∧ single.rsqrtBound 0x40000000 0x3F3504F3 = true ∧
    double.isPow4 0x4010000000000000 = true := by
  unfold FpEstimated; decide

/-- FpComparisons: a QNaN and a number. -/
theorem test_meets_FpComparisons :
    FpOn (fregs 0 0x7FC00000 0x3F800000 0) ∧
    true = (single.isNan (((fregs 0 0x7FC00000 0x3F800000 0).fs 2).setWidth 64) ||
      single.isNan (((fregs 0 0x7FC00000 0x3F800000 0).fs 3).setWidth 64)) ∧
    NoTrap (fregs 0 0x7FC00000 0x3F800000 0) excV ∧ ¬NoTrap (fregs 0x10 0x7FC00000 0x3F800000 0) excV := by
  unfold FpOn NoTrap; decide

/-- FcsrAndFlagMoves: the last number with a register, and the first without. -/
theorem test_meets_FcsrAndFlagMoves :
    FpOn (fregs 0 0 0 0) ∧ (3#5).toNat < 4 ∧ ¬(4#5).toNat < 4 ∧
    0x300#32 = (if (3#5) = 0 then 0x1F1F031F else if (3#5) = 1 then 0x1F else if (3#5) = 2 then 0x1F1F0000 else 0x300) := by
  unfold FpOn; decide

/-- FpLoadsAndStores: both widths, plain and with a bound. -/
theorem test_meets_FpLoadsAndStores :
    FpOn (fregs 0 0 0 0) ∧
    ∀ n ∈ [4, 8], Accesses (fregs 0 0 0 0) ((fregs 0 0 0 0).ordLoad 0x101 n) (bytesAt 0x101 n 0) ∧
      Accesses (fregs 0 0 0 0) ((fregs 0 0 0 0).ordStore 0x101 n) (bytesAt 0x101 n 0) ∧
      Accesses (fregs 0 0 0 0) ((fregs 0 0 0 0).boundLoad 0x108 n true) (bytesAt 0x108 n 0) ∧
      Accesses (fregs 0 0 0 0) ((fregs 0 0 0 0).boundStore 0x108 n true) (bytesAt 0x108 n 0) := by
  unfold FpOn Accesses Unwatched; decide

/-! ### Registers, IOCSR, caches, debug mode -/

/-- The reset state at PLV3. -/
def user (misc : BitVec 32) : State := State.reset.setBasic { Csrs.reset.basic with crmd := 0xB, misc := misc }

/-- CsrAccess: a register and a number without one at PLV0; a performance counter at PLV3, opened and not. -/
theorem test_meets_CsrAccess :
    State.reset.plv = 0 ∧ csrId 0x37 = some (.save 7) ∧ csrId 0x38 = none ∧ (user 0x800).plv ≠ 0 ∧
    csrId 0x207 = some (.pmcnt 3) ∧ (user 0x800).csr.basic.misc.getLsbD (8 + (user 0x800).plv.toNat) = true ∧
    (user 0).csr.basic.misc.getLsbD (8 + (user 0).plv.toNat) = false := by decide

/-- CsrFields: a watchpoint for debug mode alone, outside debug mode; inside it; a watchpoint for both. -/
theorem test_meets_CsrFields :
    (State.reset.setWatch { Csrs.reset.watch with mwp := Vector.replicate 4 ⟨0, 0, 1, 0⟩ }).inDebug = false ∧
    ((State.reset.setWatch { Csrs.reset.watch with mwp := Vector.replicate 4 ⟨0, 0, 1, 0⟩ }).csrRead
      (.mwpcfg3 3)).getLsbD 0 = true ∧
    (State.reset.setDebug { Csrs.reset.dbgRegs with dbg := 1 }).inDebug = true ∧
    (State.reset.csrRead (.fwpcfg3 0)).getLsbD 0 = false ∧ CsrId.affects .crmd .prmd = false := by decide

/-- Iocsr: an aligned access at the end of the space, and an unaligned one with and without the check. -/
theorem test_meets_Iocsr :
    (regs 0 0xFFFFFFF8 0).plv = 0 ∧ false = decide (((regs 0 0xFFFFFFF8 0).x 5).toNat % 8 ≠ 0) ∧
    true = decide (((regs 0 7 0).x 5).toNat % 8 ≠ 0) ∧ (regs 0 7 0).csr.basic.misc.getLsbD 12 = false ∧
    ((regs 0 7 0).setBasic { Csrs.reset.basic with misc := 0x1000 }).csr.basic.misc.getLsbD 12 = true := by decide

/-- CacheOpsAndDebugCall: no cache is named here; an index and a hit operation, the query translated and not. -/
theorem test_meets_CacheOps :
    Config.cacheNamed 0 = false ∧ Config.cacheNamed 7 = false ∧ bits (0x0#5) 3 2 ≠ 2 ∧ bits (0x18#5) 3 2 ≠ 2 ∧
    bits (0x10#5) 3 2 = 2 ∧ State.reset.plv = 0 ∧ State.reset.inDebug = false ∧
    State.reset.checkAccess (State.reset.cacopQuery 0x101) = .ok (bytesAt 0x101 1 0) ∧
    (mapped [] 0 0).plv = 0 ∧ (mapped [] 0 0).checkAccess ((mapped [] 0 0).cacopQuery 0x101) = .exc (.tlbr 0x101) := by
  decide

/-! ### The TLB and the page walk -/

/-- STLBPS.PS is 0, which is no page size. -/
def unsized (s : State) : State := s.setMmu { s.csr.mmu with stlbps := 0 }

/-- An STLB entry while STLBPS.PS is 0. -/
def missized : State := unsized (mapped [(5, { smallEntry with ps := 0 })] 0x404000 5)

/-- TlbSearchRead: no match, one, two; the last index, with an entry and without, and the first beyond; an entry of an
unsupported page size. -/
theorem test_meets_TlbSearchRead :
    (mapped [] 0x404000 2111).plv = 0 ∧ (mapped [] 0x404000 2111).hitsOf 0x404000 = [] ∧
    (mapped [(2111, smallEntry)] 0x404000 2111).hitsOf 0x404000 = [(2111, smallEntry)] ∧
    SizesOk (mapped [(2111, smallEntry)] 0x404000 2111) ∧
    pageSizeOk ((mapped [(2111, smallEntry)] 0x404000 2111).entryPs (2111, smallEntry)) = true ∧
    2 ≤ ((mapped [(2048, smallEntry), (2111, smallEntry)] 0x404000 2112).hitsOf 0x404000).length ∧
    SizesOk (mapped [(2048, smallEntry), (2111, smallEntry)] 0x404000 2112) ∧
    2112 ≤ (bits (mapped [] 0 2112).csr.mmu.tlbidx 0 12).toNat ∧
    (bits (mapped [] 0 2111).csr.mmu.tlbidx 0 12).toNat < 2112 ∧ tlbAt [(2111, smallEntry)] 2111 = some smallEntry ∧
    tlbAt [] 2111 = none ∧ ¬SizesOk missized ∧ missized.plv = 0 ∧
    pageSizeOk (missized.entryPs (5, { smallEntry with ps := 0 })) = false := by unfold SizesOk; decide

/-- TlbWriteFill: an index beyond the TLB; an STLB index of another page size, in another set, the neighbouring one of
the pair's among them, and in either set of the pair; an MTLB index; a page size that is not supported, of the entry and of STLBPS. -/
theorem test_meets_TlbWriteFill :
    TlbOk (mapped [(2111, smallEntry)] 0 0) ∧ 2112 ≤ (bits (mapped [] 0 2112).csr.mmu.tlbidx 0 12).toNat ∧
    (mapped [] 0 0x0E000002).newPs ≠ (mapped [] 0 0x0E000002).stlbPs ∧
    (mapped [] 0 0x0E000002).stlbPsBad = false ∧ (unsized (mapped [] 0 0)).stlbPsBad = true ∧
    2 % 256 ≠ (bits (mapped [] 0x6000 2).ehi 13 35).toNat * 2 ^ 13 / 2 ^ 12 % 256 ∧
    8 % 256 ≠ (bits (mapped [] 0x6000 8).ehi 13 35).toNat * 2 ^ 13 / 2 ^ 12 % 256 + 1 ∧
    7 % 256 = (bits (mapped [] 0x6000 7).ehi 13 35).toNat * 2 ^ 13 / 2 ^ 12 % 256 + 1 ∧ (mapped [] 0 0).stlbPs = 12 ∧
    6 % 256 = (bits (mapped [] 0x6000 6).ehi 13 35).toNat * 2 ^ 13 / 2 ^ 12 % 256 ∧
    (mapped [] 0 0).newPsBad = true ∧ (mapped [] 0 0x0E00083F).newPsBad = false ∧
    (bits (mapped [] 0 0x0E00083F).csr.mmu.tlbidx 0 12).toNat = 2111 ∧
    (mapped [] 0 0x0E00083F).newPs ≠ (mapped [] 0 0x0E00083F).stlbPs := by unfold TlbOk; decide

/-- STLBPS.PS and TLBIDX.PS are 12, for the page number at 0x6000. -/
def writer (i : BitVec 32) : State :=
  (mapped [] 0 0).setMmu { Csrs.reset.mmu with tlbehi := 0x6000, tlbidx := 0x0C000000 ||| i }

/-- R120: under an unsupported STLBPS.PS there is no lookup, STLB or not, and TLBFILL chooses no place. -/
theorem test_stlbps :
    exec .tlbsrch (unsized (mapped [] 0 0)) = .refused .pageSizeUnsupported ∧
    exec .tlbfill (unsized (writer 7)) = .refused .pageSizeUnsupported := ⟨rfl, rfl⟩

/-- R834: an index in the next pair of sets has no behaviour, one in either set of the page number's pair of 4 KiB pages is
written (log 39). -/
theorem test_tlbwr_set :
    exec .tlbwr (writer 8) = .fault .stlbConflict ∧ got (exec .tlbwr (writer 7)) (fun t => t.tlb.map (·.1)) = some [7] ∧
    got (exec .tlbwr (writer 6)) (fun t => t.tlb.map (·.1)) = some [6] := ⟨rfl, by decide, by decide⟩

/-- TlbInvalidate: each op that is defined, and the first that is not. -/
theorem test_meets_TlbInvalidate :
    (mapped [] 0 2047).plv = 0 ∧ 2047 = (bits (mapped [] 0 2047).csr.mmu.tlbidx 0 12).toNat ∧
    (∀ n ∈ [0, 1, 2, 3, 4, 5, 6], ∃ op : BitVec 5, op.toNat = n) ∧ 6 < (7#5).toNat ∧ SizesOk (mapped [] 0 2047) ∧
    ¬SizesOk missized :=
  ⟨by decide, by decide, fun n _ => ⟨BitVec.ofNat 5 n, by
    simp only [List.mem_cons, List.not_mem_nil, or_false] at *; rcases ‹_› with h | h | h | h | h | h | h <;> subst h <;> rfl⟩,
    by decide, by unfold SizesOk; decide, by unfold SizesOk; decide⟩

/-- A page walk by words of 8 bytes with a last level at bit 12 of 9 bits, directories 1 and 2 above it and no others. -/
def walker (base : Word) : State :=
  (regs 0 base 0).setMmu { Csrs.reset.mmu with pwcl := 0x13E4D52C }

/-- PageWalk: the fields of the levels, present and absent; a huge page entry, with Dir1_base = 0 and not, and another; the
entry of the last level. -/
theorem test_meets_PageWalk :
    (walker 0x1000).plv = 0 ∧ bits (walker 0x1000).csr.mmu.pwcl 15 5 ≠ 0 ∧ bits (walker 0x1000).csr.mmu.pwcl 25 5 ≠ 0 ∧
    bits (walker 0x1000).csr.mmu.pwch 6 6 = 0 ∧ ((walker 0x1000).x 5).getLsbD 6 = false ∧
    ((walker 0x1040).x 5).getLsbD 6 = true ∧ bits (walker 0x1040).csr.mmu.pwcl 10 5 ≠ 0 ∧
    bits (regs 0 0x1040 0).csr.mmu.pwcl 10 5 = 0 ∧ ((regs 0 0x1040 0).x 5).getLsbD 6 = true ∧ (4#8).toNat = 4 ∧ 4 < (5#8).toNat ∧ (0#8).toNat = 0 ∧
    Accesses (walker 0x1000) ((walker 0x1000).walkLoad 0x1000) (bytesAt 0x1000 8 0) ∧
    (walker 0x1000).tableEntry 0x1000 ((walker 0x1000).walkAddr / 2 ^ 12 % 2 ^ 9 / 2 * 2) = 0x1000 ∧
    bits (12#64) 0 6 = (bits (walker 0x1000).csr.mmu.pwcl 0 5).setWidth 6 ∧
    ((walker 0x1000).setCrmd 0xB0).checkAccess (((walker 0x1000).setCrmd 0xB0).walkLoad 0x1000) = .exc (.tlbr 0x1000) ∧
    ((walker 0x1000).setCrmd 0xB0).plv = 0 := by
  unfold Accesses Unwatched; decide

/-- Translation: the first window of a fetch, the last of a load, and no window; then no entry, one, two,
and an entry of an unsupported page size. -/
theorem test_meets_Translation :
    (mapped [] 0 0).da = false ∧ (mapped [] 0 0).pg = true ∧ (mapped [] 0 0).rbits ≤ 8 ∧
    ((mapped [] 0 0).windows .fetch)[0]? = some 0x9000000000000011 ∧
    ((mapped [] 0 0).windows .load)[3]? = some 0x8000000000000011 ∧
    bits (0x8000000000000011#64) 60 4 = bits (0x8000000000001234#64) 60 4 ∧
    (0x8000000000000011#64).getLsbD (mapped [] 0 0).plv.toNat = true ∧
    (mapped [] 0 0).windows .load = [0x9000000000000011, 0, 0, 0x8000000000000011] ∧ (mapped [] 0 0).plv = 0 ∧
    (∀ w ∈ [0x9000000000000011#64, 0, 0, 0x8000000000000011], bits w 60 4 = bits (0x404123#64) 60 4 →
      w.getLsbD 0 = false) ∧
    (mapped [] 0 0).hitsOf 0x404123 = [] ∧
    (mapped [(2048, smallEntry)] 0 0).hitsOf 0x404123 = [(2048, smallEntry)] ∧ SizesOk (mapped [(2048, smallEntry)] 0 0) ∧
    2 ≤ ((mapped [(2048, smallEntry), (2111, smallEntry)] 0 0).hitsOf 0x404123).length ∧
    SizesOk (mapped [] 0 0) ∧ SizesOk (mapped [(2048, smallEntry), (2111, smallEntry)] 0 0) ∧ ¬SizesOk missized :=
  ⟨rfl, rfl, by decide, rfl, rfl, rfl, rfl, rfl, rfl, by
    intro w h; simp only [List.mem_cons, List.not_mem_nil, or_false] at h
    rcases h with rfl | rfl | rfl | rfl <;> decide, rfl, rfl,
    by unfold SizesOk; decide, Nat.le_refl 2, by unfold SizesOk; decide, by unfold SizesOk; decide, by unfold SizesOk; decide⟩

/-! ### Exceptions, time and the step -/

/-- ExceptionReturn: the four contexts. -/
theorem test_meets_ExceptionReturn :
    State.reset.plv = 0 ∧ State.reset.inDebug = false ∧ State.reset.isMerr = false ∧ State.reset.isTlbr = false ∧
    (State.reset.setRefill { Csrs.reset.refill with era := 1 }).isTlbr = true ∧
    (State.reset.setMerr { Csrs.reset.merr with ctl := 1 }).isMerr = true ∧
    (State.reset.setDebug { Csrs.reset.dbgRegs with dbg := 1 }).inDebug = true := by decide

/-- GeneralEntry and RefillAndErrorEntry: the ends of ECFG.VS. -/
theorem test_meets_GeneralEntry :
    State.reset.inDebug = false ∧ 0 = (bits State.reset.csr.basic.ecfg 16 3).toNat ∧
    7 = (bits (State.reset.setBasic { Csrs.reset.basic with ecfg := 0x70000 }).csr.basic.ecfg 16 3).toNat := by decide

/-- CRMD.IE is 1, and the lines of `h` and of the IPI are up and enabled. -/
def pending (h : BitVec 8) (ipi waiting : Bool) : State :=
  { State.reset.setBasic { Csrs.reset.basic with crmd := 0xC, ecfg := 0x1FFF } with hwi := h, ipi := ipi, waiting := waiting }

/-- An input: 16 ticks, HWI0 and the IPI line, a bus write, an IOCSR register, the line of LL, a machine error. -/
def someInput : EnvInput := ⟨16, 1, true, true, some ⟨1, true, 2, 3⟩, [], [(5, 7), (5, 8)], [(0x1000, 9)]⟩

/-- A state with one input to come, its timer at 16, LLbit set. -/
def coming : State := { (State.reset.csrWrite .tcfg 0x11).setLL true with inputs := [someInput] }

/-- D6, D20, D35: an input takes effect before the instruction: the later of two bus writes stays, TI is set. -/
theorem test_input :
    (coming.takeInput.byteAt 5, coming.takeInput.llbit, coming.takeInput.is, coming.takeInput.stable,
      cellFind coming.takeInput.iocsr 0x1000) = (8, false, 0x1804, 16, some 9) := by decide

/-- InterruptsAndIdle: an input to come and none; the highest interrupt and the lowest hardware line; nothing pending. -/
theorem test_meets_InterruptsAndIdle :
    coming.inputs = someInput :: [] ∧ MemOk coming ∧ State.reset.inputs = [] ∧
    pending 1 true false = (pending 1 true false).takeInput ∧ (pending 1 true false).modeStop = none ∧
    (pending 1 true false).ie = true ∧
    ((pending 1 true false).is &&& bits (pending 1 true false).csr.basic.ecfg 0 13).getLsbD 12 = true ∧
    ((pending 1 false false).is &&& bits (pending 1 false false).csr.basic.ecfg 0 13) = 4 ∧
    (pending 0 false true).waiting = true ∧ ((pending 0 false true).is &&& bits (pending 0 false true).csr.basic.ecfg 0 13) = 0 ∧
    State.reset.ie = false ∧ (pending 1 false true).is &&& bits (pending 1 false true).csr.basic.ecfg 0 13 ≠ 0 ∧
    State.reset.plv = 0 :=
  ⟨rfl, ⟨rfl, fun _ h => nomatch h⟩, rfl, rfl, by decide, by decide, by decide, by decide, by decide, by decide, by decide,
    by decide, by decide⟩

/-- PrivilegeAndEnableTraps and UserModeKeepsPrivilege: PLV3; the floating-point unit disabled; an instruction that
completes there. -/
theorem test_meets_UserMode :
    (user 0).plv ≠ 0 ∧ Instr.ertn ∈ [Instr.tlbsrch, .ertn] ∧ (user 0).csr.basic.euen.getLsbD 0 = false ∧
    Feature.fp ∈ features (.faddS 1 2 3) ∧ exec (.addW 4 5 6) (user 0) = .next ((user 0).retire 4 0) :=
  ⟨by decide, by decide, by decide, by decide, rfl⟩

/-- A load/store watchpoint on any address, for loads and stores at PLV0. -/
def watched : State :=
  (State.reset.setBasic { Csrs.reset.basic with crmd := 0x208 }).setWatch
    { Csrs.reset.watch with mwp := Vector.replicate 4 ⟨0, -1, 0x302, 0⟩ }

/-- Watchpoints on any address at PLV3, and that level, with MWPS. -/
def watchedUser (mwps : BitVec 32) : State :=
  (State.reset.setBasic { Csrs.reset.basic with crmd := 0x20B }).setWatch
    { Csrs.reset.watch with mwps := mwps, mwp := Vector.replicate 4 ⟨0, -1, 0x310, 0⟩ }

/-- UserModeKeepsPrivilege: at PLV3 a load that the watchpoints stop, and one that Skip lets pass. -/
theorem test_meets_WatchedUser :
    (watchedUser 0).plv ≠ 0 ∧ got (exec (.ldB 4 5 0) (watchedUser 0)) (·.csr.watch.mwps) = some 0xF ∧
    got (exec (.ldB 4 5 0) (watchedUser 0)) (·.csr.basic.era) = some 0x1C000000 ∧
    (watchedUser 0x10000).plv ≠ 0 ∧
    got (exec (.ldB 4 5 0) (watchedUser 0x10000)) (·.csr.watch.mwps) = some 0 := by decide

/-- AccessExceptions: an exception, a stop, and a watchpoint that matches, Skip clear and set; the page walk. -/
theorem test_meets_AccessExceptions :
    (regs 0 1 0).accessOf (.amaddW 4 5 6) = some ((regs 0 1 0).atomicAccess 1 4) ∧
    (regs 0 1 0).checkAccess ((regs 0 1 0).atomicAccess 1 4) = .exc (.ale 1) ∧
    (State.reset.setCrmd 0).checkAccess ((State.reset.setCrmd 0).ordLoad 0 1) = .stop (.refuse .translationModeUndefined) ∧
    watched.checkAccess (watched.ordLoad 0 1) = .ok (bytesAt 0 1 0) ∧
    hitMask (watched.mwpHits (watched.ordLoad 0 1)) watched.csr.watch.mwp ≠ 0 ∧
    watched.csr.watch.mwps.getLsbD 16 = false ∧ (watched.setMwps 0x10000).csr.watch.mwps.getLsbD 16 = true ∧
    hitMask ((watched.setMwps 0x10000).mwpHits (watched.ordLoad 0 1)) watched.csr.watch.mwp ≠ 0 ∧
    (walker 0x1000).accessOf (.lddir 4 5 1) = some ((walker 0x1000).walkLoad 0x1000) ∧
    (walker 0x1000).accessOf (.ldpte 5 1) = some ((walker 0x1000).walkLoad 0x1008) := by
  refine ⟨rfl, rfl, rfl, rfl, by decide, by decide, by decide, by decide, rfl, rfl⟩

/-- R181: with Skip set a load that matches completes once, and Skip is clear after it. -/
theorem test_watch_skip :
    got (exec (.ldB 4 5 0) (watched.setMwps 0x10000)) (fun t => (t.pc, t.csr.watch.mwps)) = some (0x1C000004, 0) ∧
    got (exec (.ldB 4 5 0) watched) (fun t => (bits t.csr.basic.estat 16 6, t.csr.watch.mwps)) = some (0x13, 0xF) := by
  decide

/-- TimeAndTimer: MISC.DRDTL of PLV3 set and clear; a timer one tick before its end, at it, expired, and stopped. -/
theorem test_meets_TimeAndTimer :
    ((user 0x80).plv ≠ 0 ∧ (user 0x80).csr.basic.misc.getLsbD (4 + (user 0x80).plv.toNat) = true) ∧
    ¬((user 0).plv ≠ 0 ∧ (user 0).csr.basic.misc.getLsbD (4 + (user 0).plv.toNat) = true) ∧
    (State.reset.csrWrite .tcfg 0x13).csr.timer.tval = 16 ∧
    (State.reset.csrWrite .tcfg 0x13).csr.timer.tcfg.getLsbD 0 = true ∧
    (State.reset.csrWrite .tcfg 0x13).csr.timer.tcfg.getLsbD 1 = true ∧
    (State.reset.csrWrite .tcfg 0x11).csr.timer.tcfg.getLsbD 1 = false ∧ State.reset.csr.timer.tcfg.getLsbD 0 = false := by
  decide

/-- A fetch watchpoint on any address at PLV0, and the status `st`. -/
def fetchWatch (st : BitVec 32) : State :=
  (State.reset.setBasic { Csrs.reset.basic with crmd := 0x208 }).setWatch
    { Csrs.reset.watch with fwp := Vector.replicate 4 ⟨0, -1, 0x2, 0⟩, fwps := st }

/-- StepRunsDecoded: nothing before the fetch; a fetch watchpoint with Skip clear and set; a misaligned pc and an illegal
one; a refill and a stop; a machine error that waits. -/
theorem test_meets_StepRunsDecoded_exceptions :
    Fetches State.reset.takeInput ∧ Fetches (fetchWatch 0).takeInput ∧
    hitMask (fetchWatch 0).fwpHits (fetchWatch 0).csr.watch.fwp ≠ 0 ∧ (fetchWatch 0).csr.watch.fwps.getLsbD 16 = false ∧
    FetchPasses (fetchWatch 0x10000) (fetchWatch 0) ∧ FetchPasses State.reset State.reset ∧
    (0x1C000002#64).toNat % 4 ≠ 0 ∧ Fetches ((mapped [] 0 0).setPc 0x800000000000) ∧
    ((mapped [] 0 0).setPc 0x800000000000).legal .fetch 0x800000000000 = false ∧
    FirstRaises (mapped [] 0 0) .fetch 0x404000 4 (.tlbr 0x404000) ∧
    FirstStops (mapped [(2048, smallEntry), (2111, smallEntry)] 0 0) .fetch 0x404000 4 (.fault .multipleTlbHits) ∧
    ({ State.reset with merrPending := some ⟨1, true, 2, 3⟩ } : State).merrPending = some ⟨1, true, 2, 3⟩ :=
  ⟨by unfold Fetches; decide, by unfold Fetches; decide, by decide, by decide, .inr ⟨by decide, by decide, rfl⟩,
    .inl ⟨by decide, rfl⟩, by decide, by unfold Fetches; decide, by decide, ⟨0, by decide, rfl, fun m hm => by omega⟩,
    ⟨0, by decide, rfl, fun m hm => by omega⟩, rfl⟩

/-- StepRunsDecoded: the first word after reset, an instruction and the empty word; a byte stored since the last IBAR. -/
theorem test_meets_StepRunsDecoded :
    Fetches (State.reset.withFetchWord 32 0x001018A4) ∧
    BytesTranslate (State.reset.withFetchWord 32 0x001018A4) .fetch 0x1C000000 4 (fun n => ⟨0x1C000000 + n, 0⟩) ∧
    (State.reset.withFetchWord 32 0x001018A4).fetchOpen (physAddrs (bytesAt 0x1C000000 4 0)) = false ∧
    0x001018A4#32 = BitVec.ofNat 32
      ((State.reset.withFetchWord 32 0x001018A4).valueAt (physAddrs (bytesAt 0x1C000000 4 0))) ∧
    decode 0x001018A4 = some (.addW 4 5 6) ∧
    0#32 = BitVec.ofNat 32 (State.reset.valueAt (physAddrs (bytesAt 0x1C000000 4 0))) ∧ decode 0 = none ∧
    (State.reset.storeByte 0x1C000001 1).fetchOpen (physAddrs (bytesAt 0x1C000000 4 0)) = true := by
  refine ⟨by unfold Fetches; decide, fun n hn => by interval_cases n <;> rfl, by decide, by decide, rfl, by decide, rfl,
    by decide⟩

/-- DecodeEncode and StepKeepsInvariant: a well-formed instruction; a state in form that makes a step. -/
theorem test_meets_StepKeepsInvariant :
    (Instr.csrxchg 4 2 0x180).wf = true ∧ MemOk State.reset ∧ TlbOk State.reset ∧ ReservedOk State.reset ∧
    step State.reset = .next (State.reset.raise .ine) :=
  ⟨rfl, ⟨rfl, fun _ h => nomatch h⟩, rfl,
    by unfold ReservedOk BasicReservedOk MmuReservedOk RefillReservedOk WatchReservedOk; decide, rfl⟩

end Machine

end Sys2Proof
end

section
/-! SUPPORT. Bits within a mask: what the operations on a register's bits keep of the form in which its reserved bits
read 0 (10_state.md R41). -/

namespace Sys2Proof.Machine

/-! ## Values whose set bits all lie in a mask -/

/-- No bit of `x` outside `m` is set. -/
abbrev Within {n : Nat} (m x : BitVec n) : Prop := x &&& ~~~m = 0

section
variable {n : Nat} {M m x y : BitVec n}

theorem within_iff : Within M x ↔ ∀ i, x.getLsbD i = true → M.getLsbD i = true := by
  constructor
  · intro h i hx
    have hi : i < n := BitVec.lt_of_getLsbD hx
    have := congrArg (·.getLsbD i) h
    simpa [hx, hi] using this
  · intro h
    refine BitVec.eq_of_getLsbD_eq fun i hi => ?_
    cases hx : x.getLsbD i with
    | false => simp [hx]
    | true => simp [hx, h i hx, hi]

theorem Within.or (hx : Within M x) (hy : Within M y) : Within M (x ||| y) := by
  rw [within_iff] at *
  intro i h
  rw [BitVec.getLsbD_or, Bool.or_eq_true] at h
  exact h.elim (hx i) (hy i)

theorem Within.and_right (hy : Within M y) : Within M (x &&& y) := by
  rw [within_iff] at *
  intro i h
  rw [BitVec.getLsbD_and, Bool.and_eq_true] at h
  exact hy i h.2

theorem Within.and_left (hx : Within M x) : Within M (x &&& y) := BitVec.and_comm y x ▸ hx.and_right

theorem within_allOnes (x : BitVec n) : Within (BitVec.allOnes n) x := by
  rw [Within, BitVec.not_allOnes]; exact BitVec.and_zero

theorem Within.append {k : Nat} {N z : BitVec k} (hx : Within M x) (hz : Within N z) : Within (M ++ N) (x ++ z) := by
  rw [within_iff] at *
  intro i h
  rw [BitVec.getLsbD_append] at h ⊢
  by_cases hi : i < k
  · rw [if_pos hi] at h ⊢; exact hz i h
  · rw [if_neg hi] at h ⊢; exact hx _ h

/-- Bit `i` of `x` is clear where the mask lacks it. -/
theorem Within.getLsbD_eq_false (hx : Within M x) {i : Nat} (hm : M.getLsbD i = false) : x.getLsbD i = false := by
  cases h : x.getLsbD i with
  | false => rfl
  | true => rw [within_iff.1 hx i h] at hm; cases hm

/-- Replacing a field that lies in the mask. -/
theorem Within.withBits {k : Nat} (hx : Within M x) (lo : Nat) (v : BitVec k)
    (hm : Within M ((BitVec.allOnes k).setWidth n <<< lo)) : Within M (withBits x lo v) := by
  refine hx.and_left.or (within_iff.2 fun i hi => within_iff.1 hm i ?_)
  simp only [BitVec.getLsbD_shiftLeft, BitVec.getLsbD_setWidth, BitVec.getLsbD_allOnes, Bool.and_eq_true] at hi ⊢
  exact ⟨hi.1, hi.2.1, decide_eq_true (BitVec.lt_of_getLsbD hi.2.2)⟩

/-- Replacing a bit that lies in the mask. -/
theorem Within.withBit (hx : Within M x) (i : Nat) (b : Bool)
    (hm : Within M ((BitVec.allOnes 1).setWidth n <<< i)) : Within M (withBit x i b) := hx.withBits i _ hm

end

/-- A 32-bit register whose RW bits lie in the mask takes a value. -/
theorem Within.take32 {M m x : BitVec 32} (hx : Within M x) (v : Word) (hm : Within M m) :
    Within M (take32 x m v) := hx.and_left.or hm.and_right

/-- A 64-bit register whose RW bits lie in the mask takes a value. -/
theorem Within.take64 {M m x : Word} (hx : Within M x) (v : Word) (hm : Within M m) :
    Within M (take64 x m v) := hx.and_left.or hm.and_right

/-- The bits of a value with a field replaced. -/
theorem getLsbD_withBits {n k : Nat} (x : BitVec n) (lo : Nat) (v : BitVec k) (i : Nat) :
    (withBits x lo v).getLsbD i = if i < n ∧ lo ≤ i ∧ i < lo + k then v.getLsbD (i - lo) else x.getLsbD i := by
  simp only [withBits, BitVec.getLsbD_or, BitVec.getLsbD_and, BitVec.getLsbD_not, BitVec.getLsbD_shiftLeft,
    BitVec.getLsbD_setWidth, BitVec.getLsbD_allOnes]
  by_cases hn : i < n
  · by_cases hl : i < lo
    · simp [hn, hl, Nat.not_le.2 hl]
    · have hin : i - lo < n := by omega
      by_cases hk : i - lo < k
      · simp [hn, hl, hk, hin, (by omega : i < lo + k), Nat.not_lt.1 hl]
      · have hv : v.getLsbD (i - lo) = false := BitVec.getLsbD_of_ge _ _ (by omega)
        simp [hn, hl, hk, hin, hv, (by omega : lo + k ≤ i)]
  · simp [hn, BitVec.getLsbD_of_ge x i (by omega)]

/-- A value within the low 48 bits is below 2^48. -/
theorem within_low48 {x : Word} : Within 0xFFFFFFFFFFFF#64 x ↔ x.toNat < 2 ^ 48 := by
  have hm : ∀ i, (0xFFFFFFFFFFFF#64).getLsbD i = decide (i < 48) := fun i => Nat.testBit_two_pow_sub_one 48 i
  constructor
  · intro h
    exact Nat.lt_pow_two_of_testBit _ fun i hi => h.getLsbD_eq_false (by simp [hm, hi])
  · intro h
    refine within_iff.2 fun i hi => ?_
    rw [hm, decide_eq_true_eq]
    exact (Nat.pow_lt_pow_iff_right Nat.one_lt_two).1 ((Nat.ge_two_pow_of_testBit hi).trans_lt h)

/-- All bits but bit 1. -/
theorem within_not_bit1 {x : Word} : Within 0xFFFFFFFFFFFFFFFD#64 x ↔ x.getLsbD 1 = false := by
  have h : x &&& ~~~0xFFFFFFFFFFFFFFFD#64 = if x.getLsbD 1 then BitVec.twoPow 64 1 else 0 := BitVec.and_twoPow x 1
  rw [Within, h]
  cases x.getLsbD 1 <;> decide

/-! ## The page number registers: a sign-extended page number, and in TLBREHI a page size -/

/-- TLBEHI as it reads: VPPN, sign-extended (12_csr_mmu.md R111). -/
def pageImage (p : BitVec 35) : Word := (p ++ 0#13).signExtend 64

/-- TLBREHI as it reads: VPPN, sign-extended, and PS (12_csr_mmu.md R126). -/
def pageSizeImage (p : BitVec 35) (ps : BitVec 6) : Word := (p ++ 0#7 ++ ps).signExtend 64

theorem getLsbD_pageImage (p : BitVec 35) (i : Nat) :
    (pageImage p).getLsbD i = (decide (i < 64) && if i < 48 then decide (13 ≤ i) && p.getLsbD (i - 13) else p.msb) := by
  rw [pageImage, BitVec.getLsbD_signExtend, BitVec.getLsbD_append, BitVec.msb_append]
  by_cases h : i < 13
  · simp [h, Nat.not_le.2 h]
  · simp [h, Nat.not_lt.1 h]

theorem getLsbD_pageSizeImage (p : BitVec 35) (ps : BitVec 6) (i : Nat) :
    (pageSizeImage p ps).getLsbD i = if i < 6 then ps.getLsbD i else (pageImage p).getLsbD i := by
  rw [getLsbD_pageImage, pageSizeImage, BitVec.getLsbD_signExtend, BitVec.getLsbD_append, BitVec.getLsbD_append,
    BitVec.msb_append, BitVec.msb_append]
  by_cases h : i < 6
  · simp [h, (by omega : i < 48), (by omega : i < 64)]
  · by_cases h13 : i < 13
    · simp [h, (by omega : i - 6 < 7), Nat.not_le.2 h13]
    · have h7 : ¬ i - 6 < 7 := by omega
      simp [h, h7, Nat.not_lt.1 h13, Nat.sub_sub]

theorem bits_pageImage (p : BitVec 35) : bits (pageImage p) 13 35 = p := by
  refine BitVec.eq_of_getLsbD_eq fun i hi => ?_
  rw [bits, BitVec.getLsbD_extractLsb', getLsbD_pageImage]
  simp [hi, (by omega : 13 + i < 48), (by omega : 13 + i < 64)]

theorem bits_pageSizeImage (p : BitVec 35) (ps : BitVec 6) : bits (pageSizeImage p ps) 13 35 = p := by
  refine BitVec.eq_of_getLsbD_eq fun i hi => ?_
  rw [bits, BitVec.getLsbD_extractLsb', getLsbD_pageSizeImage, if_neg (by omega), ← BitVec.getLsbD_extractLsb']
  exact congrArg (·.getLsbD i) (bits_pageImage p)

theorem bits_pageSizeImage_ps (p : BitVec 35) (ps : BitVec 6) : bits (pageSizeImage p ps) 0 6 = ps := by
  refine BitVec.eq_of_getLsbD_eq fun i hi => ?_
  rw [bits, BitVec.getLsbD_extractLsb', getLsbD_pageSizeImage, if_pos (by omega)]
  simp [hi]

theorem withBits_pageImage (p : BitVec 35) (ps : BitVec 6) : withBits (pageImage p) 0 ps = pageSizeImage p ps := by
  refine BitVec.eq_of_getLsbD_eq fun i hi => ?_
  rw [getLsbD_withBits, getLsbD_pageSizeImage]
  by_cases h : i < 6 <;> simp [h, hi]

/-- Writing PS into TLBREHI leaves its VPPN (R126). -/
theorem withBits_pageSizeImage (p : BitVec 35) (q ps : BitVec 6) :
    withBits (pageSizeImage p q) 0 ps = pageSizeImage p ps := by
  refine BitVec.eq_of_getLsbD_eq fun i hi => ?_
  rw [getLsbD_withBits, getLsbD_pageSizeImage, getLsbD_pageSizeImage]
  by_cases h : i < 6 <;> simp [h, hi]

end Sys2Proof.Machine
end

section
/-! SUPPORT. What every step keeps, field by field: the predicates of Safety.lean as structures with named parts, and
one lemma for each group of registers that an operation replaces. -/

namespace Sys2Proof.Machine

/-! ## The groups of registers -/

/-- `BasicReservedOk`, field by field. -/
structure BasicForm (b : BasicCsrs) : Prop where
  crmd : Within 0x3FF#32 b.crmd
  prmd : Within 0xF#32 b.prmd
  euen : Within 0x1#32 b.euen
  misc : Within 0x0007FEEE#32 b.misc
  ecfg : Within 0x00071FFF#32 b.ecfg
  estat : Within 0x7FFF0803#32 b.estat
  eentry : Within 0xFFFFFFFFFFFFF000#64 b.eentry
  rvacfg : Within 0xF#32 b.rvacfg
  llbctl : Within 0x4#32 b.llbctl

theorem basicForm_iff {b : BasicCsrs} : BasicForm b ↔ BasicReservedOk b :=
  ⟨fun ⟨h0, h1, h2, h3, h4, h5, h6, h7, h8⟩ => ⟨h0, h1, h2, h3, h4, h5, h6, h7, h8⟩,
    fun ⟨h0, h1, h2, h3, h4, h5, h6, h7, h8⟩ => ⟨h0, h1, h2, h3, h4, h5, h6, h7, h8⟩⟩

/-- `MmuReservedOk`, field by field. -/
structure MmuForm (m : MmuCsrs) : Prop where
  tlbidx : Within 0xBF000FFF#32 m.tlbidx
  tlbehi : m.tlbehi = pageImage (bits m.tlbehi 13 35)
  tlbelo0 : Within 0xE000FFFFFFFFF07F#64 m.tlbelo0
  tlbelo1 : Within 0xE000FFFFFFFFF07F#64 m.tlbelo1
  asid : Within 0x3FF#32 m.asid
  pgdl : Within 0xFFFFFFFFFFFFF000#64 m.pgdl
  pgdh : Within 0xFFFFFFFFFFFFF000#64 m.pgdh
  pwch : Within 0xFFFFFF#32 m.pwch
  stlbps : Within 0x3F#32 m.stlbps
  dmw : ∀ n : Fin 4, Within 0xF00000000000003F#64 m.dmw[n]

theorem mmuForm_iff {m : MmuCsrs} : MmuForm m ↔ MmuReservedOk m :=
  ⟨fun ⟨h0, h1, h2, h3, h4, h5, h6, h7, h8, h9⟩ => ⟨h0, h1, h2, h3, h4, h5, h6, h7, h8, h9⟩,
    fun ⟨h0, h1, h2, h3, h4, h5, h6, h7, h8, h9⟩ => ⟨h0, h1, h2, h3, h4, h5, h6, h7, h8, h9⟩⟩

/-- `RefillReservedOk`, field by field. -/
structure RefillForm (r : RefillCsrs) : Prop where
  entry : Within 0xFFFFFFFFF000#64 r.entry
  era : Within 0xFFFFFFFFFFFFFFFD#64 r.era
  elo0 : Within 0xE000FFFFFFFFF07F#64 r.elo0
  elo1 : Within 0xE000FFFFFFFFF07F#64 r.elo1
  ehi : r.ehi = pageSizeImage (bits r.ehi 13 35) (bits r.ehi 0 6)
  prmd : Within 0x17#32 r.prmd

theorem refillForm_iff {r : RefillCsrs} : RefillForm r ↔ RefillReservedOk r :=
  ⟨fun ⟨h0, h1, h2, h3, h4, h5⟩ => ⟨h0, within_not_bit1.1 h1, h2, h3, h4, h5⟩,
    fun ⟨h0, h1, h2, h3, h4, h5⟩ => ⟨h0, within_not_bit1.2 h1, h2, h3, h4, h5⟩⟩

/-- The reserved bits of a load/store watchpoint read 0 (13 R183, R184). -/
structure MwpForm (w : Watchpoint) : Prop where
  cfg3 : Within 0xF9F#32 w.cfg3
  cfg4 : Within 0x3FF#32 w.cfg4

/-- The reserved bits of a fetch watchpoint read 0 (13 R189, R190). -/
structure FwpForm (w : Watchpoint) : Prop where
  cfg3 : Within 0x9F#32 w.cfg3
  cfg4 : Within 0x3FF#32 w.cfg4

/-- `WatchReservedOk`, field by field. -/
structure WatchForm (w : WatchCsrs) : Prop where
  mwps : Within 0x1000F#32 w.mwps
  fwps : Within 0x1000F#32 w.fwps
  mwp : ∀ n : Fin 4, MwpForm w.mwp[n]
  fwp : ∀ n : Fin 4, FwpForm w.fwp[n]

theorem watchForm_iff {w : WatchCsrs} : WatchForm w ↔ WatchReservedOk w :=
  ⟨fun ⟨h0, h1, hm, hf⟩ => ⟨h0, h1, fun n => ⟨(hm n).cfg3, (hm n).cfg4, (hf n).cfg3, (hf n).cfg4⟩⟩,
    fun ⟨h0, h1, hw⟩ => ⟨h0, h1,
      fun n => have ⟨h3, h4, _, _⟩ := hw n; ⟨h3, h4⟩, fun n => have ⟨_, _, h3, h4⟩ := hw n; ⟨h3, h4⟩⟩⟩

/-- The timer holds its 48 bits alone (13 R151, R152). -/
structure TimerForm (c : TimerCsrs) : Prop where
  tcfg : c.tcfg.toNat < 2 ^ 48
  tval : c.tval.toNat < 2 ^ 48

/-- The reserved bits of the machine error registers read 0 (13 R160, R162). -/
structure MerrForm (e : MerrCsrs) : Prop where
  ctl : Within 0x00FF1FDF#32 e.ctl
  entry : Within 0xFFFFFFFFF000#64 e.entry

/-! ## The state -/

/-- What every step keeps: `MemOk`, `TlbOk` and the parts of `ReservedOk`. -/
structure InForm (s : State) : Prop where
  mem : MemOk s
  tlb : TlbOk s
  basic : BasicForm s.csr.basic
  mmu : MmuForm s.csr.mmu
  refill : RefillForm s.csr.refill
  watch : WatchForm s.csr.watch
  timer : TimerForm s.csr.timer
  merr : MerrForm s.csr.merr
  perf : ∀ n : Fin 4, Within 0x1F03FF#32 s.csr.perf.cfg[n]
  dbg : Within 0x003F0F01#32 s.csr.dbgRegs.dbg
  fcsr0 : Within fcsrDefined s.fcsr0

theorem inForm_iff {s : State} : InForm s ↔ MemOk s ∧ TlbOk s ∧ ReservedOk s :=
  ⟨fun h => ⟨h.mem, h.tlb, basicForm_iff.1 h.basic, mmuForm_iff.1 h.mmu, refillForm_iff.1 h.refill,
      watchForm_iff.1 h.watch, h.timer.tcfg, h.timer.tval, h.merr.ctl, h.merr.entry, h.perf, h.dbg, h.fcsr0⟩,
    fun ⟨hm, ht, hb, hu, hr, hw, hc, hv, hl, he, hp, hd, hf⟩ =>
      ⟨hm, ht, basicForm_iff.2 hb, mmuForm_iff.2 hu, refillForm_iff.2 hr, watchForm_iff.2 hw, ⟨hc, hv⟩, ⟨hl, he⟩, hp,
        hd, hf⟩⟩

section
variable {s : State} (h : InForm s)
include h

/-! ### Operations on registers that are in form whatever they hold -/

theorem InForm.setX (r : Reg) (v : Word) : InForm (s.setX r v) := by
  unfold State.setX
  split
  · exact h
  · exact { h with }

theorem InForm.setF (r : FReg) (v : Word) : InForm (s.setF r v) := { h with }
theorem InForm.setCc (c : CReg) (b : Bool) : InForm (s.setCc c b) := { h with }
theorem InForm.setPc (a : Word) : InForm (s.setPc a) := { h with }
theorem InForm.setLL (b : Bool) : InForm (s.setLL b) := { h with }
theorem InForm.advance : InForm s.advance := { h with }
theorem InForm.drawn : InForm s.drawn := { h with }
theorem InForm.retire (r : Reg) (v : Word) : InForm (s.retire r v) := (h.setX r v).advance
theorem InForm.retireAny (r : Reg) : InForm (s.retireAny r) := ((h.setX r _).drawn).advance
theorem InForm.setFS (r : FReg) (v : BitVec 32) : InForm (s.setFS r v) := (h.setF r _).drawn
theorem InForm.setMsg (c : MsgCsrs) : InForm (s.setMsg c) := { h with }

/-! ### Groups replaced by groups in form -/

theorem InForm.setFcsr0 {v : BitVec 32} (hv : Within fcsrDefined v) : InForm (s.setFcsr0 v) := { h with fcsr0 := hv }
theorem InForm.setTlb {t : List (Nat × TlbEntry)} (ht : tlbWf t = true) : InForm (s.setTlb t) := { h with tlb := ht }
theorem InForm.setBasic {b : BasicCsrs} (hb : BasicForm b) : InForm (s.setBasic b) := { h with basic := hb }
theorem InForm.setCrmd {v : BitVec 32} (hv : Within 0x3FF#32 v) : InForm (s.setCrmd v) :=
  h.setBasic { h.basic with crmd := hv }
theorem InForm.setMmu {m : MmuCsrs} (hm : MmuForm m) : InForm (s.setMmu m) := { h with mmu := hm }
theorem InForm.setRefill {r : RefillCsrs} (hr : RefillForm r) : InForm (s.setRefill r) := { h with refill := hr }
theorem InForm.setTimer {c : TimerCsrs} (hc : TimerForm c) : InForm (s.setTimer c) := { h with timer := hc }
theorem InForm.setMerr {e : MerrCsrs} (he : MerrForm e) : InForm (s.setMerr e) := { h with merr := he }
theorem InForm.setPerf {p : PerfCsrs} (hp : ∀ n : Fin 4, Within 0x1F03FF#32 p.cfg[n]) : InForm (s.setPerf p) :=
  { h with perf := hp }
theorem InForm.setWatch {w : WatchCsrs} (hw : WatchForm w) : InForm (s.setWatch w) := { h with watch := hw }
theorem InForm.setDebug {d : DebugCsrs} (hd : Within 0x003F0F01#32 d.dbg) : InForm (s.setDebug d) :=
  { h with dbg := hd }

/-! ### Memory -/

/-- Bytes stored within the physical space (20_memory.md R200, R250). -/
theorem InForm.storeBytes {as : List Nat} (ha : ∀ a ∈ as, a < 2 ^ Config.palen) (v : Word) :
    InForm (s.storeBytes as v) := by
  have hm := State.storeBytes_ok (v := v) h.mem ha
  obtain ⟨m, l, he⟩ := State.storeBytes_eq as s v
  rw [he] at hm ⊢
  exact { h with mem := hm }

theorem InForm.storeByte {a : Nat} (ha : a < 2 ^ Config.palen) (b : Byte) : InForm (s.storeByte a b) :=
  { h with mem := State.storeByte_ok h.mem ha b }

end

/-- An element of a vector after one is written: what holds of the old ones and of the new one holds of it. -/
theorem vector_set_forall {α : Type} {n : Nat} {P : α → Prop} {v : Vector α n} (h : ∀ k : Fin n, P v[k]) (i : Fin n)
    {x : α} (hx : P x) : ∀ k : Fin n, P (v.set i x)[k] := by
  intro k
  rw [Fin.getElem_fin, Vector.getElem_set]
  split
  · exact hx
  · exact h k

end Sys2Proof.Machine
end

section
/-! SUPPORT. Exceptions, machine errors and the return from them keep the state in form (60_exceptions.md section 3). -/

namespace Sys2Proof.Machine

/-! ## The modes saved and restored (11_csr_basic.md R71) -/

theorem crmdEntered_within {c : BitVec 32} (h : Within 0x3FF#32 c) : Within 0x3FF#32 (crmdEntered c) :=
  ((h.withBits 0 _ (by decide)).withBit 2 _ (by decide)).withBit 9 _ (by decide)

/-- The saved mode is made of bits 0 to 2 and the bit of PWE. -/
theorem savedMode_within {M : BitVec 32} (c : BitVec 32) (we : Nat)
    (h2 : Within M ((BitVec.allOnes 2).setWidth 32 <<< 0))
    (h1 : Within M ((BitVec.allOnes 1).setWidth 32 <<< 2))
    (hw : Within M ((BitVec.allOnes 1).setWidth 32 <<< we)) : Within M (savedMode c we) :=
  ((Within.withBits (BitVec.zero_and) 0 _ h2).withBit 2 _ h1).withBit we _ hw

theorem restoredMode_within {c : BitVec 32} (h : Within 0x3FF#32 c) (saved : BitVec 32) (we : Nat) :
    Within 0x3FF#32 (restoredMode c saved we) :=
  ((h.withBits 0 _ (by decide)).withBit 2 _ (by decide)).withBit 9 _ (by decide)

theorem restoredFromMerr_within {c : BitVec 32} (h : Within 0x3FF#32 c) (ctl : BitVec 32) :
    Within 0x3FF#32 (restoredFromMerr c ctl) :=
  (((h.withBits 0 _ (by decide)).withBits 2 _ (by decide)).withBits 9 _ (by decide)).withBits 3 _ (by decide)

/-- TLBEHI holding the page number of an address (12_csr_mmu.md R111). -/
theorem vppnImage_eq (va : Word) : vppnImage va = pageImage (bits va 13 35) := rfl

theorem MmuForm.setPage {m : MmuCsrs} (h : MmuForm m) (p : BitVec 35) : MmuForm { m with tlbehi := pageImage p } :=
  { h with tlbehi := by rw [bits_pageImage] }

theorem RefillForm.setPage {r : RefillCsrs} (h : RefillForm r) (p : BitVec 35) (ps : BitVec 6) :
    RefillForm { r with ehi := pageSizeImage p ps } :=
  { h with ehi := by rw [bits_pageSizeImage, bits_pageSizeImage_ps] }

/-! ## Entry -/

section
variable {s : State} (h : InForm s)
include h

theorem InForm.enterGeneral (e : Exc) : InForm (s.enterGeneral e) := by
  have hb := h.basic
  have h1 := h.setBasic (b := { s.csr.basic with
      prmd := savedMode s.csr.basic.crmd 3
      crmd := crmdEntered s.csr.basic.crmd
      era := s.effVa s.pc
      estat := withBits (withBits s.csr.basic.estat 16 e.ecode) 22 e.esubcode
      badv := e.badv.getD s.csr.basic.badv
      badi := if e.recordsBadi then s.ir else s.csr.basic.badi })
    { hb with
      prmd := savedMode_within _ 3 (by decide) (by decide) (by decide)
      crmd := crmdEntered_within hb.crmd
      estat := (hb.estat.withBits 16 _ (by decide)).withBits 22 _ (by decide) }
  unfold State.enterGeneral
  refine InForm.setPc ?_ _
  cases e.pageVa with
  | none => exact h1
  | some a => exact h1.setMmu (h1.mmu.setPage _)

theorem InForm.enterRefill (va : Word) : InForm (s.enterRefill va) := by
  have hb := h.basic
  have hr := h.refill
  refine InForm.setPc (InForm.setRefill (h.setBasic ?_) ?_) _
  · exact { hb with crmd := ((crmdEntered_within hb.crmd).withBit 3 _ (by decide)).withBit 4 _ (by decide) }
  · rw [vppnImage_eq, withBits_pageImage]
    have hera : Within 0xFFFFFFFFFFFFFFFD#64 (bits s.pc 2 62 ++ 1#2) :=
      (within_allOnes (bits s.pc 2 62)).append (show Within 1#2 1#2 by decide)
    refine ⟨hr.entry, hera, hr.elo0, hr.elo1, ?_, savedMode_within _ 4 (by decide) (by decide) (by decide)⟩
    rw [bits_pageSizeImage, bits_pageSizeImage_ps]

theorem InForm.enterDebug : InForm s.enterDebug :=
  (h.setDebug (((h.dbg.withBits 8 _ (by decide)).withBit 9 _ (by decide)).withBit 0 _ (by decide))).setPc _

theorem InForm.enterInDebug (e : Exc) : InForm (s.enterInDebug e) := by
  unfold State.enterInDebug
  refine InForm.setPc (h.setDebug ?_) _
  split
  · exact (h.dbg.withBits 8 _ (by decide)).withBit 10 _ (by decide)
  · exact (h.dbg.withBits 8 _ (by decide)).withBit 11 _ (by decide)
  · exact h.dbg.withBits 16 _ (by decide)

/-- Taking an exception keeps the state in form (60_exceptions.md R863 to R870). -/
theorem InForm.raise (e : Exc) : InForm (s.raise e) := by
  unfold State.raise
  split
  · exact h.enterInDebug e
  · cases e with
    | tlbr va => exact h.enterRefill va
    | dbcl => exact h.enterDebug
    | _ => exact h.enterGeneral _

theorem InForm.enterMachineError (r : MerrReport) : InForm (s.enterMachineError r) := by
  have hz : ∀ k, Within 0#k 0#k := fun _ => BitVec.zero_and
  have hctl := (((((((((((((hz 8).append (within_allOnes r.cause)).append (hz 3)).append
    (within_allOnes (bits s.csr.basic.crmd 7 2))).append (within_allOnes (bits s.csr.basic.crmd 5 2))).append
    (within_allOnes (bits s.csr.basic.crmd 4 1))).append (within_allOnes (bits s.csr.basic.crmd 3 1))).append
    (within_allOnes (bits s.csr.basic.crmd 9 1))).append (hz 1)).append
    (within_allOnes (bits s.csr.basic.crmd 2 1))).append (within_allOnes (bits s.csr.basic.crmd 0 2))).append
    (within_allOnes (BitVec.ofBool r.repairable))).append (within_allOnes 1#1))
  refine InForm.setPc (InForm.setMerr (h.setCrmd ?_) ?_) _
  · decide
  · exact ⟨hctl, h.merr.entry⟩

/-- Taking a machine error keeps the state in form (R868; 13 R193). -/
theorem InForm.raiseMachineError (r : MerrReport) : InForm (s.raiseMachineError r) := by
  unfold State.raiseMachineError
  split
  · exact (h.setDebug (h.dbg.withBits 16 _ (by decide))).setPc _
  · exact h.enterMachineError r

/-! ## Return -/

theorem InForm.returnContext : InForm s.returnContext := by
  have hc := h.basic.crmd
  unfold State.returnContext
  repeat' split
  · exact (h.setDebug (h.dbg.withBit 0 _ (by decide))).setPc _
  · refine InForm.setPc (InForm.setMerr (h.setCrmd (restoredFromMerr_within hc _)) ?_) _
    exact ⟨h.merr.ctl.withBit 0 _ (by decide), h.merr.entry⟩
  · have hr := h.refill
    refine InForm.setPc (InForm.setRefill (h.setCrmd ?_) ?_) _
    · exact ((restoredMode_within hc _ 4).withBit 3 _ (by decide)).withBit 4 _ (by decide)
    · exact ⟨hr.entry, hr.era.withBit 0 _ (by decide), hr.elo0, hr.elo1, hr.ehi, hr.prmd⟩
  · exact (h.setCrmd (restoredMode_within hc _ 3)).setPc _

/-- ERTN keeps the state in form (49_privileged.md R845). -/
theorem InForm.returnFrom : InForm s.returnFrom := by
  have ht := h.returnContext
  unfold State.returnFrom
  dsimp only
  split
  · exact ht.setBasic { ht.basic with llbctl := ht.basic.llbctl.withBit 2 _ (by decide) }
  · exact ht.setLL false

end

end Sys2Proof.Machine
end

section
/-! SUPPORT. Reading and writing the control and status registers keeps the state in form (10_state.md R41). -/

namespace Sys2Proof.Machine

/-! ## Watchpoints -/

/-- The watchpoints that hit are numbered within their list (13 R181, R187). -/
theorem hitBits_getLsbD (hit : Watchpoint → Bool) : ∀ (ws : List Watchpoint) (i : Nat),
    (hitBits hit ws).getLsbD i = true → i < ws.length
  | [], _, h => by simp [hitBits] at h
  | w :: ws, 0, _ => Nat.succ_pos _
  | w :: ws, i + 1, h => by
    have hs : (hitBits hit ws).getLsbD i = true := by
      simp only [hitBits, BitVec.getLsbD_or, BitVec.getLsbD_shiftLeft, BitVec.getLsbD_setWidth,
        BitVec.getLsbD_ofBool] at h
      simp at h
      exact h.2
    exact Nat.succ_lt_succ (hitBits_getLsbD hit ws i hs)

/-- A status word has bits for the four watchpoints alone. -/
theorem hitMask_within (hit : Watchpoint → Bool) (ws : Vector Watchpoint 4) : Within 0x1000F#32 (hitMask hit ws) := by
  refine within_iff.2 fun i hi => ?_
  have hl := hitBits_getLsbD hit ws.toList i hi
  rw [Vector.length_toList] at hl
  interval_cases i <;> rfl

theorem takeWatchStatus_within (old : BitVec 32) (v : Word) : Within 0x1000F#32 (takeWatchStatus 4 old v) :=
  (Within.and_right (by decide)).and_left.or (Within.and_right (by decide))

/-- The bits of CFG3 that can be written are bits that it has (13 R183, R189). -/
theorem cfg3Mask_within {M m : BitVec 32} (s : State) (hm : Within M m) (h1 : Within M 1#32) :
    Within M (s.cfg3Mask m) := by
  unfold State.cfg3Mask
  split
  · exact hm.or h1
  · exact hm

theorem TimerForm.writeTcfg {c : TimerCsrs} (h : TimerForm c) (v : Word) : TimerForm (c.writeTcfg v) := by
  refine ⟨within_low48.1 ((within_low48.2 h.tcfg).take64 v (by decide)), ?_⟩
  rw [TimerCsrs.writeTcfg]
  split
  · exact within_low48.1 (Within.and_right (by decide))
  · exact h.tval

section
variable {s : State} (h : InForm s)
include h

theorem InForm.setMwps {v : BitVec 32} (hv : Within 0x1000F#32 v) : InForm (s.setMwps v) :=
  h.setWatch { h.watch with mwps := hv }

theorem InForm.setFwps {v : BitVec 32} (hv : Within 0x1000F#32 v) : InForm (s.setFwps v) :=
  h.setWatch { h.watch with fwps := hv }

/-- A load/store watchpoint rewritten in form, where it may be. -/
theorem InForm.setMwp (i : Fin 4) {f : Watchpoint → Watchpoint} (hf : ∀ w, MwpForm w → MwpForm (f w)) :
    InForm (s.setMwp i f) := by
  unfold State.setMwp
  split
  · exact h.setWatch { h.watch with mwp := vector_set_forall h.watch.mwp i (hf _ (h.watch.mwp i)) }
  · exact h

/-- A fetch watchpoint rewritten in form, where it may be. -/
theorem InForm.setFwp (i : Fin 4) {f : Watchpoint → Watchpoint} (hf : ∀ w, FwpForm w → FwpForm (f w)) :
    InForm (s.setFwp i f) := by
  unfold State.setFwp
  split
  · exact h.setWatch { h.watch with fwp := vector_set_forall h.watch.fwp i (hf _ (h.watch.fwp i)) }
  · exact h

/-! ## Registers with an effect of their own -/

theorem InForm.writeLlbctl (v : Word) : InForm (s.writeLlbctl v) := by
  have ht := h.setBasic (b := { s.csr.basic with llbctl := take32 s.csr.basic.llbctl 0x4#32 v })
    { h.basic with llbctl := h.basic.llbctl.take32 v (by decide) }
  unfold State.writeLlbctl
  dsimp only
  split
  · exact ht.setLL false
  · exact ht

theorem InForm.writeTiclr (v : Word) : InForm (s.writeTiclr v) := by
  unfold State.writeTiclr
  split
  · exact h.setBasic { h.basic with estat := h.basic.estat.withBit 11 _ (by decide) }
  · exact h

/-- Offering a value to a register keeps the state in form: its RW bits are bits that it has (R41, R812). -/
theorem InForm.csrWrite (c : CsrId) (v : Word) : InForm (s.csrWrite c v) := by
  have hb := h.basic
  have hm := h.mmu
  have hr := h.refill
  cases c with
  | crmd => exact h.setBasic { hb with crmd := hb.crmd.take32 v (by decide) }
  | prmd => exact h.setBasic { hb with prmd := hb.prmd.take32 v (by decide) }
  | euen => exact h.setBasic { hb with euen := hb.euen.take32 v (by decide) }
  | misc => exact h.setBasic { hb with misc := hb.misc.take32 v (by decide) }
  | ecfg => exact h.setBasic { hb with ecfg := hb.ecfg.take32 v (by decide) }
  | estat => exact h.setBasic { hb with estat := hb.estat.take32 v (by decide) }
  | eentry => exact h.setBasic { hb with eentry := hb.eentry.take64 v (by decide) }
  | rvacfg => exact h.setBasic { hb with rvacfg := hb.rvacfg.take32 v (by decide) }
  | era | badv | save i | ctag => exact h.setBasic { hb with }
  | tlbidx => exact h.setMmu { hm with tlbidx := hm.tlbidx.take32 v (by decide) }
  | tlbehi => exact h.setMmu (hm.setPage _)
  | tlbelo0 => exact h.setMmu { hm with tlbelo0 := hm.tlbelo0.take64 v (by decide) }
  | tlbelo1 => exact h.setMmu { hm with tlbelo1 := hm.tlbelo1.take64 v (by decide) }
  | asid => exact h.setMmu { hm with asid := hm.asid.take32 v (by decide) }
  | pgdl => exact h.setMmu { hm with pgdl := hm.pgdl.take64 v (by decide) }
  | pgdh => exact h.setMmu { hm with pgdh := hm.pgdh.take64 v (by decide) }
  | pwcl => exact h.setMmu { hm with }
  | pwch => exact h.setMmu { hm with pwch := hm.pwch.take32 v (by decide) }
  | stlbps => exact h.setMmu { hm with stlbps := hm.stlbps.take32 v (by decide) }
  | dmw i => exact h.setMmu { hm with dmw := vector_set_forall hm.dmw i ((hm.dmw i).take64 v (by decide)) }
  | tlbrentry => exact h.setRefill { hr with entry := hr.entry.take64 v (by decide) }
  | tlbrbadv | tlbrsave => exact h.setRefill { hr with }
  | tlbrera => exact h.setRefill { hr with era := hr.era.take64 v (by decide) }
  | tlbrelo0 => exact h.setRefill { hr with elo0 := hr.elo0.take64 v (by decide) }
  | tlbrelo1 => exact h.setRefill { hr with elo1 := hr.elo1.take64 v (by decide) }
  | tlbrehi =>
    have he : withBits (vppnImage v) 0 (bits v 0 6) = pageSizeImage (bits v 13 35) (bits v 0 6) :=
      withBits_pageImage _ _
    have hf := h.setRefill (hr.setPage (bits v 13 35) (bits v 0 6))
    rw [← he] at hf
    exact hf
  | tlbrprmd => exact h.setRefill { hr with prmd := hr.prmd.take32 v (by decide) }
  | tid | cntc => exact h.setTimer { h.timer with }
  | tcfg => exact h.setTimer (h.timer.writeTcfg v)
  | ticlr => exact h.writeTiclr v
  | llbctl => exact h.writeLlbctl v
  | merrctl => exact h.setMerr { h.merr with ctl := h.merr.ctl.take32 v (by decide) }
  | merrentry => exact h.setMerr { h.merr with entry := h.merr.entry.take64 v (by decide) }
  | merrera | merrsave => exact h.setMerr { h.merr with }
  | pmcfg i => exact h.setPerf (vector_set_forall h.perf i ((h.perf i).take32 v (by decide)))
  | pmcnt i => exact h.setPerf h.perf
  | mwps => exact h.setMwps (takeWatchStatus_within _ v)
  | fwps => exact h.setFwps (takeWatchStatus_within _ v)
  | mwpcfg1 i => exact h.setMwp i (f := fun w => { w with cfg1 := v }) fun _ hw => ⟨hw.cfg3, hw.cfg4⟩
  | mwpcfg2 i => exact h.setMwp i (f := fun w => { w with cfg2 := v }) fun _ hw => ⟨hw.cfg3, hw.cfg4⟩
  | mwpcfg3 i =>
    exact h.setMwp i (f := fun w => { w with cfg3 := take32 w.cfg3 (s.cfg3Mask 0xF9E#32) v }) fun _ hw =>
      ⟨hw.cfg3.take32 v (cfg3Mask_within s (by decide) (by decide)), hw.cfg4⟩
  | mwpcfg4 i =>
    exact h.setMwp i (f := fun w => { w with cfg4 := take32 w.cfg4 (maskOf 0 Config.asidBits) v }) fun _ hw =>
      ⟨hw.cfg3, hw.cfg4.take32 v (by decide)⟩
  | fwpcfg1 i => exact h.setFwp i (f := fun w => { w with cfg1 := v }) fun _ hw => ⟨hw.cfg3, hw.cfg4⟩
  | fwpcfg2 i => exact h.setFwp i (f := fun w => { w with cfg2 := v }) fun _ hw => ⟨hw.cfg3, hw.cfg4⟩
  | fwpcfg3 i =>
    exact h.setFwp i (f := fun w => { w with cfg3 := take32 w.cfg3 (s.cfg3Mask 0x9E#32) v }) fun _ hw =>
      ⟨hw.cfg3.take32 v (cfg3Mask_within s (by decide) (by decide)), hw.cfg4⟩
  | fwpcfg4 i =>
    exact h.setFwp i (f := fun w => { w with cfg4 := take32 w.cfg4 (maskOf 0 Config.asidBits) v }) fun _ hw =>
      ⟨hw.cfg3, hw.cfg4.take32 v (by decide)⟩
  | dera | dsave => exact h.setDebug h.dbg
  | msgis i | msgie => exact h.setMsg _
  | badi | pgd | cpuid | prcfg1 | prcfg2 | prcfg3 | tval | merrinfo1 | merrinfo2 | mwpc | fwpc | dbg | msgir => exact h

theorem InForm.afterCsrRead (num : BitVec 14) : InForm (s.afterCsrRead num) := by
  unfold State.afterCsrRead
  split
  · unfold State.csrReadEffect
    split
    · exact h.setMsg _
    · exact h
  · exact h.drawn

theorem InForm.csrOffer (num : BitVec 14) (v : Word) : InForm (s.csrOffer num v) := by
  unfold State.csrOffer
  split
  · exact h.csrWrite _ v
  · exact h

end

end Sys2Proof.Machine
end

section
/-! SUPPORT. The shared operations of the instructions keep the state in form: accesses, floating-point results, the
TLB, the page walk. -/

namespace Sys2Proof.Machine

/-- Whatever next state the outcome is, it is in form. -/
def KeepsForm (o : Out) : Prop := ∀ t, o = .next t → InForm t

theorem keepsForm_next {t : State} (h : InForm t) : KeepsForm (.next t) := fun _ he => Host.Outcome.next.inj he ▸ h

theorem keepsForm_fault (f : Fault) : KeepsForm (.fault f) := fun _ he => nomatch he

theorem keepsForm_refused (r : Refusal) : KeepsForm (.refused r) := fun _ he => nomatch he

theorem keepsForm_ite {c : Prop} [Decidable c] {o p : Out} (ho : KeepsForm o) (hp : KeepsForm p) :
    KeepsForm (if c then o else p) := by
  split
  · exact ho
  · exact hp

/-- Each view of fcsr0 shows bits that the table defines (10_state.md R29, R30). -/
theorem fcsrView_within (n : BitVec 5) : Within fcsrDefined (fcsrView n) := by
  unfold fcsrView
  repeat' split
  all_goals decide

section
variable {s : State} (h : InForm s)
include h

theorem keepsForm_raise (e : Exc) : KeepsForm (.next (s.raise e)) := keepsForm_next (h.raise e)

theorem keepsForm_advance : KeepsForm (.next s.advance) := keepsForm_next h.advance

theorem keepsForm_retire (rd : Reg) (v : Word) : KeepsForm (.next (s.retire rd v)) := keepsForm_next (h.retire rd v)

theorem keepsForm_privileged {k : Out} (hk : KeepsForm k) : KeepsForm (privileged s k) := fun t ht => by
  rcases privileged_next ht with ⟨-, ht⟩ | ⟨-, rfl⟩
  · exact hk t ht
  · exact h.raise _

theorem keepsForm_floating {k : Out} (hk : KeepsForm k) : KeepsForm (floating s k) := fun t ht => by
  rcases floating_next ht with ⟨-, ht⟩ | ⟨-, rfl⟩
  · exact hk t ht
  · exact h.raise _

theorem keepsForm_run {α : Type} {r : Res α} {k : α → Out} (hk : ∀ a, r = .ok a → KeepsForm (k a)) :
    KeepsForm (r.run s k) := fun t ht => by
  rcases Res.run_next ht with ⟨a, ha, ht⟩ | ⟨e, -, rfl⟩
  · exact hk a ha t ht
  · exact h.raise e

/-! ## Integer results and branches -/

theorem keepsForm_opDiv (z : Word → Bool) (f : Word → Word → Word) (rd rj rk : Reg) :
    KeepsForm (opDiv z f rd rj rk s) := by
  refine keepsForm_next ?_
  split
  · exact h.retireAny rd
  · exact h.retire rd _

theorem keepsForm_opDivW (z : Word → Bool) (f : Word → Word → Word) (rd rj rk : Reg) :
    KeepsForm (opDivW z f rd rj rk s) := opDivW_eq ▸ keepsForm_opDiv h z f rd rj rk

theorem keepsForm_branchIf {n : Nat} (c : Bool) (o : BitVec n) : KeepsForm (branchIf c o s) := by
  refine keepsForm_next ?_
  split
  · exact h.setPc _
  · exact h.advance

theorem keepsForm_branchUnless (c : Bool) (a : Word) :
    KeepsForm (.next (if c then s.advance else s.setPc a)) := by
  refine keepsForm_next ?_
  split
  · exact h.advance
  · exact h.setPc a

theorem keepsForm_link (rd : Reg) (v a : Word) : KeepsForm (.next ((s.setX rd v).setPc a)) :=
  keepsForm_next ((h.setX rd v).setPc a)

theorem keepsForm_rdtime (part : Word → Word) (rd rj : Reg) : KeepsForm (rdtime part rd rj s) :=
  keepsForm_ite (keepsForm_raise h _)
    (keepsForm_ite (keepsForm_retire h.drawn _ _) (keepsForm_retire (h.setX _ _) _ _))

theorem keepsForm_assertTrue (c : Bool) : KeepsForm (assertTrue c s) := by
  refine keepsForm_next ?_
  split
  · exact h.advance
  · exact h.drawn.raise _

/-! ## Accesses (20_memory.md R215) -/

/-- A watchpoint that is met sets or clears status bits that MWPS has (13 R181). -/
theorem keepsForm_watched {a : Access} {k : State → Out} (hk : ∀ u, InForm u → KeepsForm (k u)) :
    KeepsForm (s.watched a k) := by
  unfold State.watched
  refine keepsForm_ite (hk s h) (keepsForm_ite (hk _ ?_) (keepsForm_raise ?_ _))
  · exact h.setMwps (h.watch.mwps.withBit 16 _ (by decide))
  · exact h.setMwps (h.watch.mwps.or (hitMask_within _ _))

/-- What an instruction does at the physical addresses of its access: these lie in the physical space (R250). -/
theorem keepsForm_access {a : Access} {k : List Phys → State → Out}
    (hk : ∀ ps u, (∀ n ∈ physAddrs ps, n < 2 ^ Config.palen) → InForm u → KeepsForm (k ps u)) :
    KeepsForm (access s a k) :=
  keepsForm_run h fun ps hp => keepsForm_watched h fun u => hk ps u (State.checkAccess_lt hp)

theorem keepsForm_loadX (a : Access) (rd : Reg) (ext : Word → Word) : KeepsForm (loadX s a rd ext) :=
  keepsForm_access h fun _ _ _ hu => keepsForm_retire hu _ _

theorem keepsForm_storeX (a : Access) (v : Word) : KeepsForm (storeX s a v) :=
  keepsForm_access h fun _ _ hp hu => keepsForm_advance (hu.storeBytes hp v)

theorem keepsForm_loadFS (a : Access) (fd : FReg) : KeepsForm (loadFS s a fd) :=
  keepsForm_access h fun _ _ _ hu => keepsForm_advance (hu.setFS _ _)

theorem keepsForm_loadFD (a : Access) (fd : FReg) : KeepsForm (loadFD s a fd) :=
  keepsForm_access h fun _ _ _ hu => keepsForm_advance (hu.setF _ _)

theorem keepsForm_amo (size : Nat) (ext : Word → Word) (f : Word → Word → Word) (rd rj rk : Reg) :
    KeepsForm (amo size ext f rd rj rk s) :=
  keepsForm_access h fun _ _ hp hu => by
    refine keepsForm_next ?_
    split
    · exact (hu.storeBytes hp _).drawn.retireAny rd
    · exact (hu.storeBytes hp _).retire rd _

theorem keepsForm_amoChecked (size : Nat) (ext : Word → Word) (f : Word → Word → Word) (rd rj rk : Reg) :
    KeepsForm (amoChecked size ext f rd rj rk s) :=
  keepsForm_ite (keepsForm_raise h _) (keepsForm_amo h _ _ _ _ _ _)

theorem keepsForm_amcas (size : Nat) (ext trunc : Word → Word) (rd rj rk : Reg) :
    KeepsForm (amcas size ext trunc rd rj rk s) :=
  keepsForm_access h fun _ _ hp hu => by
    refine keepsForm_retire ?_ _ _
    split
    · exact hu.storeBytes hp _
    · exact hu

theorem keepsForm_loadLinked (va : Word) (size : Nat) (ext : Word → Word) (rd : Reg) :
    KeepsForm (loadLinked va size ext rd s) :=
  keepsForm_access h fun ps u _ hu => by
    have hl : InForm { u with llbit := true, llAddr := s.effVa va } := { hu with }
    refine keepsForm_next ?_
    split
    · exact hl.retire rd _
    · exact hl.drawn.retire rd _

/-- A store-conditional whose data go to the bytes of its access (44_atomic_barrier.md R573, R575). -/
theorem keepsForm_storeCond (a : Access) {put : List Nat → State → State} (rd : Reg)
    (hput : ∀ as u, (∀ n ∈ as, n < 2 ^ Config.palen) → InForm u → InForm (put as u)) :
    KeepsForm (storeCond a put rd s) :=
  keepsForm_access h fun ps u hp hu => by
    have hite : ∀ b : Bool, InForm (if b then put (physAddrs ps) u else u) := fun b => by
      cases b
      · exact hu
      · exact hput _ _ hp hu
    refine keepsForm_next ?_
    split
    · exact ((hite _).setLL _).retire rd _
    · exact ((hite _).setLL _).drawn.retire rd _

theorem keepsForm_storeCond_bytes (a : Access) (v : Word) (rd : Reg) :
    KeepsForm (storeCond a (fun as t => t.storeBytes as v) rd s) :=
  keepsForm_storeCond h a rd fun _ _ ha hu => hu.storeBytes ha v

/-- SC.Q: the low half at the first eight bytes, the high half at the others (R575). -/
theorem keepsForm_storeCond_quad (a : Access) (v w : Word) (rd : Reg) :
    KeepsForm (storeCond a (fun as t => (t.storeBytes (as.take 8) v).storeBytes (as.drop 8) w) rd s) :=
  keepsForm_storeCond h a rd fun _ _ ha hu =>
    (hu.storeBytes (fun n hn => ha n (List.mem_of_mem_take hn)) v).storeBytes
      (fun n hn => ha n (List.mem_of_mem_drop hn)) w

theorem keepsForm_cacheOp (named : Bool) (op : BitVec 5) (a : Access) : KeepsForm (cacheOp named op a s) :=
  keepsForm_ite (keepsForm_access h fun _ _ _ hu => keepsForm_advance hu) (keepsForm_advance h)

/-! ## Floating-point results (46_fp_arith.md R633) -/

theorem InForm.setCause (e : FpExc) : InForm (s.setCause e) := h.setFcsr0 (h.fcsr0.withBits 24 e (by decide))

theorem InForm.joinFlags (e : FpExc) : InForm (s.joinFlags e) := h.setFcsr0 (h.fcsr0.withBits 16 _ (by decide))

theorem keepsForm_fpFinish (e : FpExc) {w : State → State} (hw : ∀ u, InForm u → InForm (w u)) :
    KeepsForm (fpFinish s e w) :=
  keepsForm_ite (keepsForm_raise (h.setCause e) _) (keepsForm_advance (hw _ ((h.setCause e).joinFlags e)))

theorem keepsForm_fpS (fd : FReg) (o : FpOut) : KeepsForm (fpS s fd o) :=
  keepsForm_fpFinish h _ fun _ hu => hu.setFS fd _

theorem keepsForm_fpD (fd : FReg) (o : FpOut) : KeepsForm (fpD s fd o) :=
  keepsForm_fpFinish h _ fun _ hu => hu.setF fd _

theorem keepsForm_fpCompare (cd : CReg) (F : Fmt) (cond : BitVec 5) (x y : Word) :
    KeepsForm (fpCompare s cd F cond x y) :=
  keepsForm_fpFinish h _ fun _ hu => hu.setCc cd _

theorem keepsForm_fpQuietS (fd : FReg) (v : Word) : KeepsForm (fpQuietS s fd v) := keepsForm_advance (h.setFS fd _)

theorem keepsForm_fpQuietD (fd : FReg) (v : Word) : KeepsForm (fpQuietD s fd v) := keepsForm_advance (h.setF fd v)

theorem InForm.retireOrAny (c : Prop) [Decidable c] (rd : Reg) (v : Word) :
    InForm (if c then s.retire rd v else s.retireAny rd) := by
  split
  · exact h.retire rd v
  · exact h.retireAny rd

theorem InForm.writeFcsr (n : BitVec 5) (v : BitVec 32) : InForm (s.writeFcsr n v) := by
  unfold State.writeFcsr
  split
  · exact h.setFcsr0 (h.fcsr0.and_left.or (fcsrView_within n).and_right)
  · exact (h.setFcsr0 (h.fcsr0.and_left.or (Within.and_right (by decide)))).drawn

/-! ## IOCSR (49_privileged.md R816) -/

theorem keepsForm_iocsrAccess (size : Nat) (rj : Reg) {k : Bool → Out} (hk : ∀ b, KeepsForm (k b)) :
    KeepsForm (iocsrAccess size rj s k) :=
  keepsForm_privileged h (keepsForm_ite (keepsForm_raise h _) (hk _))

theorem keepsForm_iocsrRead (size : Nat) (ext : Word → Word) (rd rj : Reg) :
    KeepsForm (iocsrRead size ext rd rj s) :=
  keepsForm_iocsrAccess h size rj fun _ => keepsForm_retire h.drawn _ _

theorem keepsForm_iocsrWrite (size : Nat) (rd rj : Reg) : KeepsForm (iocsrWrite size rd rj s) :=
  keepsForm_iocsrAccess h size rj fun _ => keepsForm_advance { h with }

end

end Sys2Proof.Machine
end

section
/-! SUPPORT. The TLB instructions and the page walk keep the state in form (49_privileged.md R830 to R842). -/

namespace Sys2Proof.Machine

theorem eloOfPage_within (p : TlbPage) (g : Bool) : Within 0xE000FFFFFFFFF07F#64 (eloOfPage p g) := by
  have hz : ∀ k, Within 0#k 0#k := fun _ => BitVec.zero_and
  have hp := ((((((((((within_allOnes (BitVec.ofBool p.rplv)).append (within_allOnes (BitVec.ofBool p.nx))).append
    (within_allOnes (BitVec.ofBool p.nr))).append (hz 13)).append (within_allOnes p.ppn)).append (hz 5)).append
    (within_allOnes (BitVec.ofBool g))).append (within_allOnes p.mat)).append (within_allOnes p.plv)).append
    (within_allOnes (BitVec.ofBool p.d))).append (within_allOnes (BitVec.ofBool p.v))
  exact hp

theorem MmuForm.afterRead {m : MmuCsrs} (h : MmuForm m) (e : TlbEntry) (ps : BitVec 6) : MmuForm (m.afterRead e ps) :=
  ⟨(h.tlbidx.withBits 24 _ (by decide)).withBit 31 _ (by decide), congrArg pageImage (bits_pageImage e.vppn).symm,
    eloOfPage_within _ _, eloOfPage_within _ _, h.asid.withBits 0 _ (by decide), h.pgdl, h.pgdh, h.pwch, h.stlbps,
    h.dmw⟩

theorem MmuForm.afterReadNone {m : MmuCsrs} (h : MmuForm m) (asid : BitVec 10) : MmuForm (m.afterReadNone asid) :=
  have h0 : (0 : Word) = pageImage (bits (0 : Word) 13 35) := by decide
  ⟨(h.tlbidx.withBits 24 _ (by decide)).withBit 31 _ (by decide), h0, BitVec.zero_and, BitVec.zero_and,
    h.asid.withBits 0 _ (by decide), h.pgdl, h.pgdh, h.pwch, h.stlbps, h.dmw⟩

theorem searchIdx_within {idx : BitVec 32} (h : Within 0xBF000FFF#32 idx) (hit : Option Nat) :
    Within 0xBF000FFF#32 (searchIdx idx hit) := by
  cases hit with
  | some i => exact (h.withBits 0 _ (by decide)).withBit 31 _ (by decide)
  | none => exact h.withBit 31 _ (by decide)

theorem hugeToElo_within (x base : Word) : Within 0xE000FFFFFFFFF07F#64 (hugeToElo x base) := by
  have hx : Within 0xE000FFFFFFFFF07F#64 (x &&& 0xE00000000000003F#64) := Within.and_right (by decide)
  have hb : Within 0xE000FFFFFFFFF07F#64 (base &&& entryMask) := Within.and_right (by decide)
  exact (hx.or hb).withBit 6 _ (by decide)

section
variable {s : State} (h : InForm s)
include h

theorem InForm.invalidate (c : Nat × TlbEntry → Bool) : InForm (s.invalidate c) := h.setTlb (tlbWf_filter _ h.tlb)

/-- LDPTE's result: an image in form, and a page size (R841, R842). -/
theorem InForm.putPte (odd : Bool) {image : Word} (hi : Within 0xE000FFFFFFFFF07F#64 image) (ps : BitVec 6) :
    InForm (s.putPte odd image ps) := by
  have hr := h.refill
  have he : withBits s.csr.refill.ehi 0 ps = pageSizeImage (bits s.csr.refill.ehi 13 35) ps := by
    conv_lhs => rw [hr.ehi]
    exact withBits_pageSizeImage _ _ _
  refine h.setRefill ⟨hr.entry, hr.era, ?_, ?_, ?_, hr.prmd⟩
  · cases odd
    · exact hi
    · exact hr.elo0
  · cases odd
    · exact hr.elo1
    · exact hi
  · rw [he, bits_pageSizeImage, bits_pageSizeImage_ps]

theorem keepsForm_tlbsrch : KeepsForm (execTlbsrch s) :=
  keepsForm_privileged h (keepsForm_run h fun hit _ => keepsForm_advance
    (h.setMmu { h.mmu with tlbidx := searchIdx_within h.mmu.tlbidx (hit.map (·.1)) }))

theorem keepsForm_tlbrd : KeepsForm (execTlbrd s) := by
  refine keepsForm_privileged h (keepsForm_ite (keepsForm_fault _) ?_)
  cases tlbAt s.tlb s.tlbIndex with
  | some e =>
    exact keepsForm_ite (keepsForm_advance (h.setMmu (h.mmu.afterRead e _))) (keepsForm_refused _)
  | none => exact keepsForm_advance (h.setMmu (h.mmu.afterReadNone _)).drawn

theorem keepsForm_tlbwr : KeepsForm (execTlbwr s) := by
  refine keepsForm_privileged h ?_
  split
  · exact keepsForm_fault _
  · have hi : s.tlbIndex < Config.tlbEntries := Nat.lt_of_not_le ‹_›
    exact keepsForm_ite (keepsForm_refused _) (keepsForm_ite (keepsForm_fault _) (keepsForm_ite (keepsForm_refused _)
      (keepsForm_advance (h.setTlb (tlbWf_put h.tlb fun _ => newTlb_slotOk hi)))))

theorem keepsForm_tlbfill : KeepsForm (execTlbfill s) :=
  keepsForm_privileged h (keepsForm_ite (keepsForm_refused _) (keepsForm_advance
    (h.setTlb (tlbWf_put h.tlb fun _ => newTlb_slotOk (fillIndex_lt s s.free.toNat))).drawn))

theorem keepsForm_invtlb (op : BitVec 5) (rj rk : Reg) : KeepsForm (execInvtlb op rj rk s) := by
  refine keepsForm_privileged h ?_
  split
  · exact keepsForm_ite (keepsForm_refused _) (keepsForm_advance (h.invalidate _))
  · exact keepsForm_raise h _

theorem keepsForm_lddir (rd rj : Reg) (level : BitVec 8) : KeepsForm (execLddir rd rj level s) := by
  refine keepsForm_privileged h (keepsForm_ite (keepsForm_retire h _ _) ?_)
  cases s.dirFields level with
  | none => exact keepsForm_next (h.retireAny rd)
  | some p => exact keepsForm_loadX h _ _ _

theorem keepsForm_ldpte (rj : Reg) (seq : BitVec 8) : KeepsForm (execLdpte rj seq s) := by
  refine keepsForm_privileged h (keepsForm_ite (keepsForm_ite ?_ ?_) (keepsForm_access h fun _ _ _ hu => ?_))
  · exact keepsForm_advance (h.drawn.putPte _ (hugeToElo_within _ _) _)
  · exact keepsForm_advance (h.putPte _ (hugeToElo_within _ _) _)
  · exact keepsForm_advance (hu.putPte _ (Within.and_right (by decide)) _)

/-! ## The other privileged instructions -/

theorem keepsForm_csrrd (rd : Reg) (csr : BitVec 14) : KeepsForm (execCsrrd rd csr s) :=
  keepsForm_ite (keepsForm_retire (h.afterCsrRead csr) _ _) (keepsForm_raise h _)

/-- CSRWR and CSRXCHG: the register read, a value offered, the old value returned (R814, R815). -/
theorem keepsForm_csrOffer (rd : Reg) (csr : BitVec 14) (v w : Word) :
    KeepsForm (privileged s (.next (((s.afterCsrRead csr).csrOffer csr v).retire rd w))) :=
  keepsForm_privileged h (keepsForm_retire ((h.afterCsrRead csr).csrOffer csr v) _ _)

end

end Sys2Proof.Machine
end

section
/-! SUPPORT. Every instruction, and every step, keeps the state in form; and the statement of it. -/

namespace Sys2Proof.Machine

/-! ## Instructions -/

section
variable {s : State} (h : InForm s)
include h

/-- An instruction keeps the state in form, family by family of their shared operations. -/
theorem keepsForm_exec (i : Instr) : KeepsForm (exec i s) := by
  cases i with
  | alslW | alslWu | bytepickW | bytepickD | addW | addD | subW | subD | slt | sltu | maskeqz | masknez | nor | and
  | or | xor | orn | andn | sllW | srlW | sraW | sllD | srlD | sraD | rotrW | rotrD | mulW | mulhW | mulhWu | mulD
  | mulhD | mulhDu | mulwDW | mulwDWu | crcWBW | crcWHW | crcWWW | crcWDW | crccWBW | crccWHW | crccWWW | crccWDW
  | alslD | cloW | clzW | ctoW | ctzW | cloD | clzD | ctoD | ctzD | revb2H | revb4H | revb2W | revbD | revh2W | revhD
  | bitrev4B | bitrev8B | bitrevW | bitrevD | extWH | extWB | cpucfg | slliW | slliD | srliW | srliD | sraiW | sraiD
  | rotriW | rotriD | slti | sltui | addiW | addiD | lu52iD | andi | ori | xori | addu16iD | lu12iW | lu32iD | pcaddi
  | pcalau12i | pcaddu12i | pcaddu18i => exact keepsForm_retire h _ _
  | divD | modD | divDu | modDu => exact keepsForm_opDiv h _ _ _ _ _
  | divW | modW | divWu | modWu => exact keepsForm_opDivW h _ _ _ _ _
  | bstrinsW | bstrpickW | bstrinsD | bstrpickD => exact keepsForm_ite (keepsForm_raise h _) (keepsForm_retire h _ _)
  | beqz | bnez | beq | bne | blt | bge | bltu | bgeu => exact keepsForm_branchIf h _ _
  | b => exact keepsForm_next (h.setPc _)
  | jirl | bl => exact keepsForm_link h _ _ _
  | preld | preldx | dbar => exact keepsForm_advance h
  | brk | syscall => exact keepsForm_raise h _
  | rdtimelW | rdtimeD => exact keepsForm_rdtime h _ _ _
  | rdtimehW rd rj => exact keepsForm_rdtime h (fun t => sext32 (bits t 32 32)) rd rj
  | asrtleD | asrtgtD => exact keepsForm_assertTrue h _
  | ldptrW | ldptrD | ldB | ldH | ldW | ldD | ldBu | ldHu | ldWu | ldxB | ldxH | ldxW | ldxD | ldxBu | ldxHu | ldxWu
  | ldgtB | ldgtH | ldgtW | ldgtD | ldleB | ldleH | ldleW | ldleD => exact keepsForm_loadX h _ _ _
  | stptrW | stptrD | stB | stH | stW | stD | stxB | stxH | stxW | stxD | stgtB | stgtH | stgtW | stgtD | stleB
  | stleH | stleW | stleD => exact keepsForm_storeX h _ _
  | amswapW | amswapD | amaddW | amaddD | amandW | amandD | amorW | amorD | amxorW | amxorD | ammaxW | ammaxD
  | amminW | amminD | ammaxWu | ammaxDu | amminWu | amminDu | amswapDbW | amswapDbD | amaddDbW | amaddDbD | amandDbW
  | amandDbD | amorDbW | amorDbD | amxorDbW | amxorDbD | ammaxDbW | ammaxDbD | amminDbW | amminDbD | ammaxDbWu
  | ammaxDbDu | amminDbWu | amminDbDu => exact keepsForm_amoChecked h _ _ _ _ _ _
  | amswapB | amswapH | amaddB | amaddH | amswapDbB | amswapDbH | amaddDbB | amaddDbH =>
    exact keepsForm_amo h _ _ _ _ _ _
  | amcasB | amcasH | amcasW | amcasD | amcasDbB | amcasDbH | amcasDbW | amcasDbD =>
    exact keepsForm_amcas h _ _ _ _ _ _
  | llW | llD | llacqW | llacqD => exact keepsForm_loadLinked h _ _ _ _
  | scW rd rj si14 | scD rd rj si14 | screlW rd rj | screlD rd rj => exact keepsForm_storeCond_bytes h _ (s.x rd) rd
  | scQ rd rj rk => exact keepsForm_storeCond_quad h _ (s.x rd) (s.x rk) rd
  | ibar => exact keepsForm_advance { h with }
  | faddS | fsubS | fmulS | fdivS | fscalebS | flogbS | fsqrtS | frecipS | frsqrtS | frecipeS | frsqrteS | fcvtSD
  | ffintSW | ffintSL | fmaddS => exact keepsForm_floating h (keepsForm_fpS h _ _)
  | faddD | fsubD | fmulD | fdivD | fscalebD | flogbD | fsqrtD | frecipD | frsqrtD | frecipeD | frsqrteD | fcvtDS
  | ffintDW | ffintDL | fmaddD => exact keepsForm_floating h (keepsForm_fpD h _ _)
  | fmaxS | fminS | fmaxaS | fminaS | ftintrmWS | ftintrmWD | ftintrpWS | ftintrpWD | ftintrzWS | ftintrzWD
  | ftintrneWS | ftintrneWD | ftintWS | ftintWD | frintS | fmsubS | fnmaddS | fnmsubS =>
    exact keepsForm_floating h (keepsForm_fpS h.drawn _ _)
  | fmaxD | fminD | fmaxaD | fminaD | ftintrmLS | ftintrmLD | ftintrpLS | ftintrpLD | ftintrzLS | ftintrzLD
  | ftintrneLS | ftintrneLD | ftintLS | ftintLD | frintD | fmsubD | fnmaddD | fnmsubD =>
    exact keepsForm_floating h (keepsForm_fpD h.drawn _ _)
  | fcmpCafS | fcmpSafS | fcmpCltS | fcmpSltS | fcmpCeqS | fcmpSeqS | fcmpCleS | fcmpSleS | fcmpCunS | fcmpSunS
  | fcmpCultS | fcmpSultS | fcmpCueqS | fcmpSueqS | fcmpCuleS | fcmpSuleS | fcmpCneS | fcmpSneS | fcmpCorS | fcmpSorS
  | fcmpCuneS | fcmpSuneS | fcmpCafD | fcmpSafD | fcmpCltD | fcmpSltD | fcmpCeqD | fcmpSeqD | fcmpCleD | fcmpSleD
  | fcmpCunD | fcmpSunD | fcmpCultD | fcmpSultD | fcmpCueqD | fcmpSueqD | fcmpCuleD | fcmpSuleD | fcmpCneD | fcmpSneD
  | fcmpCorD | fcmpSorD | fcmpCuneD | fcmpSuneD => exact keepsForm_floating h (keepsForm_fpCompare h _ _ _ _ _)
  | fcopysignS | fabsS | fnegS | fclassS | fmovS | movgr2frW => exact keepsForm_floating h (keepsForm_fpQuietS h _ _)
  | fcopysignD | fabsD | fnegD | fclassD | fmovD | movgr2frD | movgr2frhW | fsel =>
    exact keepsForm_floating h (keepsForm_fpQuietD h _ _)
  | movfr2grS | movfr2grD | movfrh2grS | movcf2gr => exact keepsForm_floating h (keepsForm_retire h _ _)
  | movfr2cf | movgr2cf => exact keepsForm_floating h (keepsForm_advance (h.setCc _ _))
  | movcf2fr => exact keepsForm_floating h (keepsForm_advance (h.setF _ _).drawn)
  | movgr2fcsr => exact keepsForm_floating h (keepsForm_advance (h.writeFcsr _ _))
  | movfcsr2gr => exact keepsForm_floating h (keepsForm_next (h.retireOrAny _ _ _))
  | bceqz => exact keepsForm_floating h (keepsForm_branchUnless h _ _)
  | bcnez => exact keepsForm_floating h (keepsForm_branchIf h _ _)
  | fldS | fldxS | fldgtS | fldleS => exact keepsForm_floating h (keepsForm_loadFS h _ _)
  | fldD | fldxD | fldgtD | fldleD => exact keepsForm_floating h (keepsForm_loadFD h _ _)
  | fstS | fstD | fstxS | fstxD | fstgtS | fstgtD | fstleS | fstleD =>
    exact keepsForm_floating h (keepsForm_storeX h _ _)
  | csrrd => exact keepsForm_csrrd h _ _
  | csrwr | csrxchg => exact keepsForm_csrOffer h _ _ _ _
  | iocsrrdB | iocsrrdH | iocsrrdW | iocsrrdD => exact keepsForm_iocsrRead h _ _ _ _
  | iocsrwrB | iocsrwrH | iocsrwrW | iocsrwrD => exact keepsForm_iocsrWrite h _ _ _
  | cacop => exact keepsForm_privileged h (keepsForm_cacheOp h _ _ _)
  | tlbsrch => exact keepsForm_tlbsrch h
  | tlbrd => exact keepsForm_tlbrd h
  | tlbwr => exact keepsForm_tlbwr h
  | tlbfill => exact keepsForm_tlbfill h
  | tlbclr | tlbflush => exact keepsForm_privileged h (keepsForm_advance (h.invalidate _))
  | invtlb => exact keepsForm_invtlb h _ _ _
  | lddir => exact keepsForm_lddir h _ _ _
  | ldpte => exact keepsForm_ldpte h _ _
  | ertn => exact keepsForm_privileged h (keepsForm_next h.returnFrom)
  | dbcl => exact keepsForm_privileged h (keepsForm_raise h _)
  | idle => exact keepsForm_privileged h (keepsForm_next { h.advance with })

theorem keepsForm_runWord : KeepsForm s.runWord := by
  unfold State.runWord
  split
  · exact keepsForm_raise h _
  · exact keepsForm_ite (keepsForm_exec h _) (keepsForm_raise h _)

/-! ## The fetch (20_memory.md R210; 13 R187) -/

theorem InForm.noWord : InForm s.noWord := { h with }

theorem InForm.fetched (pas : List Nat) : InForm (s.fetched pas) := by
  unfold State.fetched
  split
  · exact { h with }
  · exact { h with }

theorem keepsForm_fetchWatched {k : State → Out} (hk : ∀ u, InForm u → KeepsForm (k u)) :
    KeepsForm (s.fetchWatched k) := by
  unfold State.fetchWatched
  refine keepsForm_ite (hk s h) (keepsForm_ite (hk _ ?_) (keepsForm_raise (InForm.noWord ?_) _))
  · exact h.setFwps (h.watch.fwps.withBit 16 _ (by decide))
  · exact h.setFwps (h.watch.fwps.or (hitMask_within _ _))

theorem keepsForm_afterFetch {k : State → Out} (hk : KeepsForm (k s)) : KeepsForm (s.afterFetch k) := by
  unfold State.afterFetch
  split
  · have hn : InForm { s with merrPending := none } := { h with }
    exact keepsForm_next (hn.raiseMachineError _)
  · exact hk

theorem keepsForm_fetch {k : State → Out} (hk : ∀ u, InForm u → KeepsForm (k u)) : KeepsForm (s.fetch k) :=
  keepsForm_fetchWatched h fun _ hu => keepsForm_run hu.noWord fun ps _ =>
    have hf := hu.fetched (physAddrs ps)
    keepsForm_afterFetch hf (hk _ hf)

/-! ## One step after its input (60_exceptions.md R878, R884) -/

theorem keepsForm_runNext : KeepsForm s.runNext := by
  unfold State.runNext
  split
  · exact keepsForm_raise h _
  · exact keepsForm_fetch h fun _ hu => keepsForm_runWord hu

theorem keepsForm_cycle : KeepsForm s.cycle := by
  unfold State.cycle
  split
  · exact keepsForm_refused _
  · exact keepsForm_ite (keepsForm_next h) (keepsForm_runNext { h with })

/-! ## The input (92_eei_decisions.md D6) -/

omit h in
/-- A timer that expires is loaded with at most what TCFG holds (13 R155). -/
theorem timerExpired_le (c : TimerCsrs) (n : Nat) : timerExpired c n ≤ c.tcfg.toNat := by
  unfold timerExpired timerInit
  split <;> omega

omit h in
/-- Ticks leave the count below 2^48 (13 R152, R155). -/
theorem TimerForm.count {c : TimerCsrs} (hc : TimerForm c) {k : Nat} (hk : k < 2 ^ 48) :
    TimerForm { c with tval := BitVec.ofNat 64 k } :=
  ⟨hc.tcfg, lt_of_le_of_lt (BitVec.toNat_ofNat k 64 ▸ Nat.mod_le k _) hk⟩

theorem InForm.tickTimer (n : Nat) : InForm (s.tickTimer n) := by
  have ht := h.timer
  unfold State.tickTimer
  dsimp only
  split
  · exact h
  · split
    · have hs : s.csr.timer.tval - BitVec.ofNat 64 n = BitVec.ofNat 64 (s.csr.timer.tval.toNat - n) := by
        have := s.csr.timer.tval.isLt
        apply BitVec.eq_of_toNat_eq
        rw [BitVec.toNat_sub, BitVec.toNat_ofNat, BitVec.toNat_ofNat]
        omega
      rw [hs]
      exact h.setTimer (ht.count (lt_of_le_of_lt (Nat.sub_le _ n) ht.tval))
    · have hc := h.setTimer (ht.count (lt_of_le_of_lt (timerExpired_le s.csr.timer n) ht.tcfg))
      refine hc.setBasic ?_
      exact { h.basic with estat := h.basic.estat.withBit 11 _ (by decide) }

theorem InForm.tick (n : Nat) : InForm (s.tick n) :=
  have hs : InForm { s with stable := s.stable + BitVec.ofNat 64 n } := { h with }
  hs.tickTimer n

theorem InForm.arrive (ms : List (BitVec 8)) : InForm (s.arrive ms) := by
  unfold State.arrive
  split
  · exact h.setMsg _
  · exact h

omit h in
/-- Other bus masters write within the physical space (R849, R250). -/
theorem InForm.busWrites : ∀ (l : List Host.Cell) {s : State}, InForm s → InForm (s.busWrites l)
  | [], _, h => h
  | (a, b) :: l, s, h => by
    unfold State.busWrites
    split
    · exact InForm.busWrites l (h.storeByte ‹_› b)
    · exact InForm.busWrites l h

theorem InForm.applyInput (i : EnvInput) : InForm (s.applyInput i) := by
  have hl : InForm ((s.tick i.ticks).setLines i.hwi i.ipi) := { h.tick i.ticks with }
  have hr : InForm (((s.tick i.ticks).setLines i.hwi i.ipi).report i.merr) := { hl with }
  have hw := InForm.busWrites i.memWrites (hr.arrive i.msgs)
  unfold State.applyInput
  dsimp only
  split
  · exact { hw.setLL false with }
  · exact { hw with }

theorem InForm.takeInput : InForm s.takeInput := by
  unfold State.takeInput
  split
  · exact h
  · next i is _ =>
    have hi : InForm { s with inputs := is } := { h with }
    exact hi.applyInput i

/-- A step keeps the state in form. -/
theorem keepsForm_step : KeepsForm (step s) := keepsForm_cycle h.takeInput

end

/-- Settles O58: the parts of the invariant are kept by the input, by exceptions and by each family of instructions. -/
theorem stepKeepsInvariant : Obligations.StepKeepsInvariant := fun _ t hm ht hr hs =>
  inForm_iff.1 (keepsForm_step (inForm_iff.2 ⟨hm, ht, hr⟩) t hs)

end Sys2Proof.Machine
end

section
/-! SUPPORT. What a control and status register reads after a value is offered to it (10_state.md R41, R812). -/

namespace Sys2Proof.Machine

variable (s : State) (v : Word)

/-! ## The values that registers take -/

theorem getLsbD_bits {n : Nat} (x : BitVec n) (lo m i : Nat) :
    (bits x lo m).getLsbD i = (decide (i < m) && x.getLsbD (lo + i)) := BitVec.getLsbD_extractLsb' ..

theorem getLsbD_sext32 (x : BitVec 32) {i : Nat} (hi : i < 32) : (sext32 x).getLsbD i = x.getLsbD i := by
  rw [sext32, BitVec.getLsbD_signExtend, if_pos hi, decide_eq_true (by omega : i < 64), Bool.true_and]

theorem setWidth_sext32 (x : BitVec 32) {n : Nat} (hn : n ≤ 32) : (sext32 x).setWidth n = x.setWidth n := by
  refine BitVec.eq_of_getLsbD_eq fun i hi => ?_
  rw [BitVec.getLsbD_setWidth, BitVec.getLsbD_setWidth, getLsbD_sext32 x (by omega)]

/-- The RW bits take the value, the others stay. -/
theorem getLsbD_take32 (x m : BitVec 32) (i : Nat) :
    (take32 x m v).getLsbD i = if m.getLsbD i then v.getLsbD i else x.getLsbD i := by
  simp only [take32, low32, BitVec.getLsbD_or, BitVec.getLsbD_and, BitVec.getLsbD_not, BitVec.getLsbD_setWidth]
  by_cases hi : i < 32
  · cases m.getLsbD i <;> simp [hi]
  · simp [BitVec.getLsbD_of_ge x i (by omega), BitVec.getLsbD_of_ge m i (by omega)]

/-- Replacing a field that has no RW bit, before or after the value is offered. -/
theorem withBits_take32 {k : Nat} (x m : BitVec 32) (lo : Nat) (w : BitVec k)
    (hm : ∀ j < k, m.getLsbD (lo + j) = false) :
    withBits (take32 x m v) lo w = take32 (withBits x lo w) m v := by
  refine BitVec.eq_of_getLsbD_eq fun i hi => ?_
  rw [getLsbD_withBits, getLsbD_take32, getLsbD_take32, getLsbD_withBits]
  by_cases h : i < 32 ∧ lo ≤ i ∧ i < lo + k
  · have hmi := hm (i - lo) (by omega)
    rw [Nat.add_sub_cancel' h.2.1] at hmi
    simp [hmi]
  · rw [if_neg h, if_neg h]

/-- A register of 32 RW bits takes the value's low word. -/
theorem take32_allOnes (x : BitVec 32) : take32 x 0xFFFFFFFF#32 v = low32 v := by
  refine BitVec.eq_of_getLsbD_eq fun i hi => ?_
  have hm : (0xFFFFFFFF#32).getLsbD i = true := by revert i; decide
  rw [getLsbD_take32, if_pos hm, low32, BitVec.getLsbD_setWidth, decide_eq_true hi, Bool.true_and]

/-- A 32-bit register reads sign-extended: its RW bits take those of the value, the others stay. -/
theorem sext32_take32 (x m : BitVec 32) :
    sext32 (take32 x m v) = (((sext32 x).setWidth 32 &&& ~~~m) ||| (v.setWidth 32 &&& m)).signExtend 64 := by
  rw [setWidth_sext32 x Nat.le.refl, BitVec.setWidth_eq]
  rfl

/-- TCFG's initial value, a multiple of 4 (13 R151). -/
theorem and_maskOf_2_48 : v &&& maskOf 2 48 = BitVec.ofNat 64 (v.toNat % 2 ^ 48 / 4 * 4) := by
  have hm : ∀ i < 64, (maskOf 2 48 : Word).getLsbD i = (decide (2 ≤ i) && decide (i < 48)) := by decide
  refine BitVec.eq_of_getLsbD_eq fun i hi => ?_
  rw [BitVec.getLsbD_and, hm i hi, BitVec.getLsbD_ofNat, Nat.testBit_mul_two_pow (i := 2),
    Nat.testBit_div_two_pow (n := 2), Nat.testBit_mod_two_pow]
  by_cases h : 2 ≤ i
  · simp [h, hi, BitVec.getLsbD, Bool.and_comm]
  · simp [h]

/-! ## ESTAT: the interrupt status is live -/

/-- Without message interrupts MSGINT reads 0 (R886; log 38). -/
theorem estatValue_eq : s.estatValue = withBit (withBits s.csr.basic.estat 0 s.is) 14 false := rfl

/-- Offered a value, ESTAT takes the two software bits; the other interrupt bits are live (R78). -/
theorem getLsbD_is_csrWrite_estat (i : Nat) :
    (s.csrWrite .estat v).is.getLsbD i = if i < 2 then v.getLsbD i else s.is.getLsbD i := by
  have h11 : bits (take32 s.csr.basic.estat 0x3#32 v) 11 1 = bits s.csr.basic.estat 11 1 := by
    refine BitVec.eq_of_getLsbD_eq fun j hj => ?_
    rw [getLsbD_bits, getLsbD_bits, getLsbD_take32, if_neg (by revert j; decide)]
  have his : (s.csrWrite .estat v).is = BitVec.ofBool s.ipi ++ bits (take32 s.csr.basic.estat 0x3#32 v) 11 1 ++
      BitVec.ofBool s.pmi ++ s.hwi ++ bits (take32 s.csr.basic.estat 0x3#32 v) 0 2 := rfl
  rw [his, h11, State.is, BitVec.getLsbD_append (y := bits _ 0 2), BitVec.getLsbD_append (y := bits _ 0 2)]
  by_cases hi : i < 2
  · rw [if_pos hi, if_pos hi, getLsbD_bits, getLsbD_take32, Nat.zero_add, if_pos (by revert i; decide),
      decide_eq_true hi, Bool.true_and]
  · rw [if_neg hi, if_neg hi, if_neg hi]

theorem estatValue_csrWrite_estat : (s.csrWrite .estat v).estatValue = take32 s.estatValue 0x3#32 v := by
  have hm (i : Nat) : (0x3#32).getLsbD i = decide (i < 2) := Nat.testBit_two_pow_sub_one 2 i
  have his : withBits (take32 s.csr.basic.estat 0x3#32 v) 0 (s.csrWrite .estat v).is =
      take32 (withBits s.csr.basic.estat 0 s.is) 0x3#32 v := by
    refine BitVec.eq_of_getLsbD_eq fun i hi => ?_
    rw [getLsbD_withBits, getLsbD_take32, getLsbD_take32, getLsbD_withBits, Nat.sub_zero, getLsbD_is_csrWrite_estat, hm]
    by_cases h : i < 2
    · simp [h, (by omega : i < 32 ∧ i < 13)]
    · simp [h]
  rw [estatValue_eq, estatValue_eq s]
  exact (congrArg (withBit · 14 false) his).trans (withBits_take32 v _ _ 14 _ (by decide))

/-! ## The registers' fields -/

theorem csrRead_csrWrite_pmcfg (n : Fin 4) :
    (s.csrWrite (.pmcfg n) v).csrRead (.pmcfg n) =
      (((s.csrRead (.pmcfg n)).setWidth 32 &&& ~~~0x1F03FF#32) ||| (v.setWidth 32 &&& 0x1F03FF#32)).signExtend 64 :=
  (congrArg sext32 (Vector.getElem_set_self ..)).trans (sext32_take32 v s.csr.perf.cfg[n] 0x1F03FF#32)

theorem csrRead_csrWrite_dmw (n : Fin 4) :
    (s.csrWrite (.dmw n) v).csrRead (.dmw n) =
      (s.csrRead (.dmw n) &&& ~~~0xF00000000000003F#64) ||| (v &&& 0xF00000000000003F#64) :=
  Vector.getElem_set_self ..

theorem csrRead_csrWrite_save (n : Fin 8) : (s.csrWrite (.save n) v).csrRead (.save n) = v :=
  Vector.getElem_set_self ..

theorem csrRead_csrWrite_pmcnt (n : Fin 4) : (s.csrWrite (.pmcnt n) v).csrRead (.pmcnt n) = v := by
  refine (Vector.getElem_set_self ..).trans (?_ : take64 _ (BitVec.allOnes 64) v = v)
  rw [take64, BitVec.not_allOnes, BitVec.and_allOnes, BitVec.and_zero, BitVec.zero_or]

/-- The 32-bit registers and their RW bits (R70 to R87, R110 to R128, R150 to R176). -/
theorem csrRead_csrWrite_32 : ∀ p ∈ [(CsrId.crmd, 0x3FF#32), (.prmd, 0xF#32), (.euen, 0x1#32), (.misc, 0x7FEEE#32),
      (.ecfg, 0x71FFF#32), (.estat, 0x3#32), (.tlbidx, 0xBF000FFF#32), (.asid, 0x3FF#32), (.pwcl, 0xFFFFFFFF#32),
      (.pwch, 0xFFFFFF#32), (.stlbps, 0x3F#32), (.rvacfg, 0xF#32), (.tid, 0xFFFFFFFF#32), (.tlbrprmd, 0x17#32),
      (.merrctl, 0x1FDE#32), (.pmcfg 0, 0x1F03FF#32), (.pmcfg 1, 0x1F03FF#32), (.pmcfg 2, 0x1F03FF#32),
      (.pmcfg 3, 0x1F03FF#32)],
    (s.csrWrite p.1 v).csrRead p.1 =
      (((s.csrRead p.1).setWidth 32 &&& ~~~p.2) ||| (v.setWidth 32 &&& p.2)).signExtend 64 := by
  have masked (x m) := sext32_take32 v x m
  have whole (x) : sext32 (low32 v) = _ := take32_allOnes v x ▸ sext32_take32 v x 0xFFFFFFFF#32
  simp only [List.forall_mem_cons]
  refine ⟨masked s.csr.basic.crmd _, masked s.csr.basic.prmd _, masked s.csr.basic.euen _,
    masked s.csr.basic.misc _, masked s.csr.basic.ecfg _, ?estat, masked s.csr.mmu.tlbidx _, ?asid, whole s.csr.mmu.pwcl,
    masked s.csr.mmu.pwch _, masked s.csr.mmu.stlbps _, masked s.csr.basic.rvacfg _, whole s.csr.timer.tid,
    masked s.csr.refill.prmd _, masked s.csr.merr.ctl _, csrRead_csrWrite_pmcfg s v 0, csrRead_csrWrite_pmcfg s v 1,
    csrRead_csrWrite_pmcfg s v 2, csrRead_csrWrite_pmcfg s v 3, fun _ h => nomatch h⟩
  case estat => exact (congrArg sext32 (estatValue_csrWrite_estat s v)).trans (masked s.estatValue _)
  case asid =>
    exact (congrArg sext32 (withBits_take32 v s.csr.mmu.asid 0x3FF#32 16 10#8 (by decide))).trans (masked _ _)

/-- The GRLEN-wide registers and their RW bits; a PALEN of 48 bounds those of an address. -/
theorem csrRead_csrWrite_64 : ∀ p ∈ [(CsrId.eentry, 0xFFFFFFFFFFFFF000#64), (.pgdl, 0xFFFFFFFFFFFFF000#64),
      (.pgdh, 0xFFFFFFFFFFFFF000#64), (.tlbelo0, 0xE000FFFFFFFFF07F#64), (.tlbelo1, 0xE000FFFFFFFFF07F#64),
      (.tlbrelo0, 0xE000FFFFFFFFF07F#64), (.tlbrelo1, 0xE000FFFFFFFFF07F#64), (.tlbrentry, 0xFFFFFFFFF000#64),
      (.merrentry, 0xFFFFFFFFF000#64), (.tlbrera, 0xFFFFFFFFFFFFFFFD#64), (.tcfg, 0xFFFFFFFFFFFF#64),
      (.dmw 0, 0xF00000000000003F#64), (.dmw 1, 0xF00000000000003F#64), (.dmw 2, 0xF00000000000003F#64),
      (.dmw 3, 0xF00000000000003F#64)],
    (s.csrWrite p.1 v).csrRead p.1 = (s.csrRead p.1 &&& ~~~p.2) ||| (v &&& p.2) := by
  simp only [List.forall_mem_cons]
  exact ⟨rfl, rfl, rfl, rfl, rfl, rfl, rfl, rfl, rfl, rfl, rfl, csrRead_csrWrite_dmw s v 0,
    csrRead_csrWrite_dmw s v 1, csrRead_csrWrite_dmw s v 2, csrRead_csrWrite_dmw s v 3, fun _ h => nomatch h⟩

theorem csrRead_csrWrite_whole : ∀ c ∈ [CsrId.era, .badv, .cntc, .tlbrbadv, .tlbrsave, .merrera, .merrsave, .ctag,
    .dera, .dsave], (s.csrWrite c v).csrRead c = v := by
  simp only [List.forall_mem_cons]
  exact ⟨rfl, rfl, rfl, rfl, rfl, rfl, rfl, rfl, rfl, rfl, fun _ h => nomatch h⟩

theorem csrWrite_readOnly : ∀ c ∈ [CsrId.badi, .pgd, .cpuid, .prcfg1, .prcfg2, .prcfg3, .tval, .merrinfo1, .merrinfo2,
    .mwpc, .fwpc, .dbg], s.csrWrite c v = s := by
  simp only [List.forall_mem_cons]
  exact ⟨rfl, rfl, rfl, rfl, rfl, rfl, rfl, rfl, rfl, rfl, rfl, rfl, fun _ h => nomatch h⟩

/-- A write of TCFG with En = 1 loads the count (13 R155, D20). -/
theorem csrRead_csrWrite_tcfg_tval : (s.csrWrite .tcfg v).csrRead .tval =
    if v.getLsbD 0 then BitVec.ofNat 64 (v.toNat % 2 ^ 48 / 4 * 4) else s.csrRead .tval :=
  and_maskOf_2_48 v ▸ rfl

theorem csrRead_csrWrite_tlbrehi :
    (s.csrWrite .tlbrehi v).csrRead .tlbrehi = (bits v 13 35 ++ 0#7 ++ bits v 0 6).signExtend 64 :=
  withBits_pageImage (bits v 13 35) (bits v 0 6)

theorem llbit_csrWrite_llbctl : (s.csrWrite .llbctl v).llbit = (s.llbit && !v.getLsbD 1) := by
  change (s.writeLlbctl v).llbit = _
  unfold State.writeLlbctl
  cases v.getLsbD 1
  · exact (Bool.and_true s.llbit).symm
  · exact (Bool.and_false s.llbit).symm

theorem getLsbD_csrRead_csrWrite_llbctl :
    ((s.csrWrite .llbctl v).csrRead .llbctl).getLsbD 2 = v.getLsbD 2 := by
  have hctl : (s.writeLlbctl v).csr.basic.llbctl = take32 s.csr.basic.llbctl 0x4#32 v := by
    unfold State.writeLlbctl
    cases v.getLsbD 1 <;> rfl
  change (sext32 (withBit (s.writeLlbctl v).csr.basic.llbctl 0 (s.writeLlbctl v).llbit)).getLsbD 2 = _
  rw [getLsbD_sext32 _ (by decide), withBit, getLsbD_withBits, if_neg (by decide), hctl, getLsbD_take32,
    if_pos (by decide)]

/-! ## Watchpoints -/

/-- Offered a value, a watchpoint status clears the bits the value has set and takes Skip (13 R181, R187). -/
theorem takeWatchStatus_read (x : BitVec 32) :
    (sext32 (takeWatchStatus 4 x v)).setWidth 4 = (sext32 x &&& ~~~v).setWidth 4 ∧
      (sext32 (takeWatchStatus 4 x v)).getLsbD 16 = v.getLsbD 16 := by
  have hbit (i : Nat) (hi : i < 32) : (sext32 (takeWatchStatus 4 x v)).getLsbD i =
      ((x.getLsbD i && decide (i < 4) && !v.getLsbD i) || (v.getLsbD i && decide (i = 16))) := by
    have h4 : ∀ i < 32, (maskOf 0 4 : BitVec 32).getLsbD i = decide (i < 4) := by decide
    have h16 : ∀ i < 32, (0x10000#32).getLsbD i = decide (i = 16) := by decide
    simp only [getLsbD_sext32 _ hi, takeWatchStatus, low32, BitVec.getLsbD_or, BitVec.getLsbD_and,
      BitVec.getLsbD_not, BitVec.getLsbD_setWidth, h4 i hi, h16 i hi, hi, decide_true, Bool.true_and]
  constructor
  · refine BitVec.eq_of_getLsbD_eq fun i hi => ?_
    have h32 : i < 32 := by omega
    have h16 : i ≠ 16 := by omega
    simp only [BitVec.getLsbD_setWidth, BitVec.getLsbD_and, BitVec.getLsbD_not, hbit i h32, getLsbD_sext32 x h32, hi,
      h16, (by omega : i < 64), decide_true, decide_false, Bool.true_and, Bool.and_true, Bool.and_false, Bool.or_false]
  · rw [hbit 16 (by decide)]
    exact (congrArg (· || _) (congrArg (· && _) (Bool.and_false _))).trans (Bool.and_true _)

theorem csrRead_csrWrite_watchStatus : ∀ c ∈ [CsrId.mwps, .fwps],
    ((s.csrWrite c v).csrRead c).setWidth 4 = (s.csrRead c &&& ~~~v).setWidth 4 ∧
      ((s.csrWrite c v).csrRead c).getLsbD 16 = v.getLsbD 16 := by
  simp only [List.forall_mem_cons]
  exact ⟨takeWatchStatus_read v s.csr.watch.mwps, takeWatchStatus_read v s.csr.watch.fwps, fun _ h => nomatch h⟩

/-- A watchpoint register that is locked keeps its value (R183, R189). -/
theorem setMwp_of_locked {n : Fin 4} (hs : s.watchWritable s.csr.watch.mwp[n] = false) (f : Watchpoint → Watchpoint) :
    s.setMwp n f = s := if_neg (by rw [hs]; decide)

theorem setFwp_of_locked {n : Fin 4} (hs : s.watchWritable s.csr.watch.fwp[n] = false) (f : Watchpoint → Watchpoint) :
    s.setFwp n f = s := if_neg (by rw [hs]; decide)

theorem setMwp_same {n : Fin 4} (hs : s.watchWritable s.csr.watch.mwp[n] = true) (f : Watchpoint → Watchpoint) :
    (s.setMwp n f).csr.watch.mwp[n] = f s.csr.watch.mwp[n] := by
  rw [State.setMwp, if_pos hs]
  exact Vector.getElem_set_self ..

theorem setFwp_same {n : Fin 4} (hs : s.watchWritable s.csr.watch.fwp[n] = true) (f : Watchpoint → Watchpoint) :
    (s.setFwp n f).csr.watch.fwp[n] = f s.csr.watch.fwp[n] := by
  rw [State.setFwp, if_pos hs]
  exact Vector.getElem_set_self ..

/-- CFG3's RW bits take the value; the lock bit is one of them in debug mode alone (R183, R189). -/
theorem cfg3_take32 (x m : BitVec 32) :
    (sext32 (take32 x (s.cfg3Mask m) v)).setWidth 32 =
      ((sext32 x).setWidth 32 &&& ~~~(m ||| if s.inDebug then 1 else 0)) |||
        (v.setWidth 32 &&& (m ||| if s.inDebug then 1 else 0)) := by
  have hm : s.cfg3Mask m = (m ||| if s.inDebug then 1 else 0) := by
    unfold State.cfg3Mask
    cases s.inDebug
    · exact BitVec.or_zero.symm
    · rfl
  rw [setWidth_sext32 _ Nat.le.refl, setWidth_sext32 x Nat.le.refl, BitVec.setWidth_eq, BitVec.setWidth_eq, hm]
  rfl

/-- CFG4's RW bits are those of an ASID (R184, R190). -/
theorem cfg4_take32 (x : BitVec 32) : sext32 (take32 x (maskOf 0 10) v) &&& 0x3FF#64 = v &&& 0x3FF#64 := by
  have h64 (i : Nat) : (0x3FF#64).getLsbD i = decide (i < 10) := Nat.testBit_two_pow_sub_one 10 i
  have h32 (i : Nat) : (maskOf 0 10 : BitVec 32).getLsbD i = decide (i < 10) := Nat.testBit_two_pow_sub_one 10 i
  refine BitVec.eq_of_getLsbD_eq fun i _ => ?_
  rw [BitVec.getLsbD_and, BitVec.getLsbD_and, h64]
  by_cases hi : i < 10
  · rw [getLsbD_sext32 _ (by omega), getLsbD_take32, h32, if_pos (decide_eq_true hi)]
  · rw [decide_eq_false hi, Bool.and_false, Bool.and_false]

theorem csrWrite_mwpcfg1 (n : Fin 4) :
    s.csrWrite (.mwpcfg1 n) v = s.setMwp n fun w => { w with cfg1 := v } := rfl

theorem csrWrite_mwpcfg2 (n : Fin 4) :
    s.csrWrite (.mwpcfg2 n) v = s.setMwp n fun w => { w with cfg2 := v } := rfl

theorem csrWrite_mwpcfg3 (n : Fin 4) :
    s.csrWrite (.mwpcfg3 n) v = s.setMwp n fun w => { w with cfg3 := take32 w.cfg3 (s.cfg3Mask 0xF9E#32) v } := rfl

theorem csrWrite_mwpcfg4 (n : Fin 4) :
    s.csrWrite (.mwpcfg4 n) v = s.setMwp n fun w => { w with cfg4 := take32 w.cfg4 (maskOf 0 10) v } := rfl

theorem csrWrite_fwpcfg1 (n : Fin 4) :
    s.csrWrite (.fwpcfg1 n) v = s.setFwp n fun w => { w with cfg1 := v } := rfl

theorem csrWrite_fwpcfg2 (n : Fin 4) :
    s.csrWrite (.fwpcfg2 n) v = s.setFwp n fun w => { w with cfg2 := v } := rfl

theorem csrWrite_fwpcfg3 (n : Fin 4) :
    s.csrWrite (.fwpcfg3 n) v = s.setFwp n fun w => { w with cfg3 := take32 w.cfg3 (s.cfg3Mask 0x9E#32) v } := rfl

theorem csrWrite_fwpcfg4 (n : Fin 4) :
    s.csrWrite (.fwpcfg4 n) v = s.setFwp n fun w => { w with cfg4 := take32 w.cfg4 (maskOf 0 10) v } := rfl

theorem csrRead_mwpcfg1 (n : Fin 4) : s.csrRead (.mwpcfg1 n) = s.csr.watch.mwp[n].cfg1 := rfl

theorem csrRead_mwpcfg2 (n : Fin 4) : s.csrRead (.mwpcfg2 n) = s.csr.watch.mwp[n].cfg2 := rfl

theorem csrRead_mwpcfg3 (n : Fin 4) : s.csrRead (.mwpcfg3 n) = sext32 s.csr.watch.mwp[n].cfg3 := rfl

theorem csrRead_mwpcfg4 (n : Fin 4) : s.csrRead (.mwpcfg4 n) = sext32 s.csr.watch.mwp[n].cfg4 := rfl

theorem csrRead_fwpcfg1 (n : Fin 4) : s.csrRead (.fwpcfg1 n) = s.csr.watch.fwp[n].cfg1 := rfl

theorem csrRead_fwpcfg2 (n : Fin 4) : s.csrRead (.fwpcfg2 n) = s.csr.watch.fwp[n].cfg2 := rfl

theorem csrRead_fwpcfg3 (n : Fin 4) : s.csrRead (.fwpcfg3 n) = sext32 s.csr.watch.fwp[n].cfg3 := rfl

theorem csrRead_fwpcfg4 (n : Fin 4) : s.csrRead (.fwpcfg4 n) = sext32 s.csr.watch.fwp[n].cfg4 := rfl

/-- What a locked watchpoint keeps, and what one that may be written takes (R181 to R190). -/
theorem csrWrite_watchpoint (n : Fin 4) :
    ∀ p ∈ [(CsrId.mwpcfg3 n, 0xF9E#32, [(CsrId.mwpcfg1 n, 0xFFFFFFFFFFFFFFFF#64),
          (.mwpcfg2 n, 0xFFFFFFFFFFFFFFFF#64), (.mwpcfg4 n, 0x3FF#64)]),
        (.fwpcfg3 n, 0x9E#32, [(.fwpcfg1 n, 0xFFFFFFFFFFFFFFFF#64), (.fwpcfg2 n, 0xFFFFFFFFFFFFFFFF#64),
          (.fwpcfg4 n, 0x3FF#64)])],
      (s.inDebug = false → (s.csrRead p.1).getLsbD 0 = true →
        s.csrWrite p.1 v = s ∧ ∀ q ∈ p.2.2, s.csrWrite q.1 v = s) ∧
      (s.inDebug = true ∨ (s.csrRead p.1).getLsbD 0 = false →
        ((s.csrWrite p.1 v).csrRead p.1).setWidth 32 =
          (((s.csrRead p.1).setWidth 32 &&& ~~~(p.2.1 ||| if s.inDebug then 1 else 0)) |||
            (v.setWidth 32 &&& (p.2.1 ||| if s.inDebug then 1 else 0))) ∧
        ∀ q ∈ p.2.2, ((s.csrWrite q.1 v).csrRead q.1 &&& q.2) = v &&& q.2) := by
  have locked {w : Watchpoint} (hd : s.inDebug = false) (hw : (sext32 w.cfg3).getLsbD 0 = true) :
      s.watchWritable w = false := by
    rw [getLsbD_sext32 _ (by decide)] at hw
    rw [State.watchWritable, hd, hw]; rfl
  have writable {w : Watchpoint} (h : s.inDebug = true ∨ (sext32 w.cfg3).getLsbD 0 = false) :
      s.watchWritable w = true := by
    rw [getLsbD_sext32 _ (by decide)] at h
    rw [State.watchWritable]
    obtain hd | hw := h
    · rw [hd]; rfl
    · rw [hw]; exact Bool.or_true _
  simp only [List.forall_mem_cons, csrWrite_mwpcfg1, csrWrite_mwpcfg2, csrWrite_mwpcfg3, csrWrite_mwpcfg4,
    csrWrite_fwpcfg1, csrWrite_fwpcfg2, csrWrite_fwpcfg3, csrWrite_fwpcfg4, csrRead_mwpcfg1, csrRead_mwpcfg2,
    csrRead_mwpcfg3, csrRead_mwpcfg4, csrRead_fwpcfg1, csrRead_fwpcfg2, csrRead_fwpcfg3, csrRead_fwpcfg4]
  refine ⟨⟨fun hd hw => ?_, fun h => ?_⟩, ⟨fun hd hw => ?_, fun h => ?_⟩, fun _ h => nomatch h⟩
  · have keep := setMwp_of_locked s (locked hd hw)
    exact ⟨keep _, keep _, keep _, keep _, fun _ h => nomatch h⟩
  · simp only [setMwp_same s (writable h)]
    exact ⟨cfg3_take32 s v _ _, trivial, trivial, cfg4_take32 v _, fun _ h => nomatch h⟩
  · have keep := setFwp_of_locked s (locked hd hw)
    exact ⟨keep _, keep _, keep _, keep _, fun _ h => nomatch h⟩
  · simp only [setFwp_same s (writable h)]
    exact ⟨cfg3_take32 s v _ _, trivial, trivial, cfg4_take32 v _, fun _ h => nomatch h⟩

end Sys2Proof.Machine
end

section
/-! SUPPORT. A value offered to a register leaves what every other register reads, but for the views that the spec
ties to it (10_state.md R41, R812). -/

namespace Sys2Proof.Machine

variable {s : State} {v : Word} {c d : CsrId}

/-- The part of the state that holds a register, by the record of `Csrs` that a write of the register changes. -/
inductive CsrPart where
  | basic | mmu | timer | refill | merr | perf | watch | dbgRegs | msg | fixed

/-- The part that a write of the register changes; none for a read-only register. -/
def CsrId.part : CsrId → CsrPart
  | .crmd | .prmd | .euen | .misc | .ecfg | .estat | .era | .badv | .eentry | .rvacfg | .save _ | .ticlr | .llbctl
  | .ctag => .basic
  | .tlbidx | .tlbehi | .tlbelo0 | .tlbelo1 | .asid | .pgdl | .pgdh | .pwcl | .pwch | .stlbps | .dmw _ => .mmu
  | .tid | .tcfg | .cntc => .timer
  | .tlbrentry | .tlbrbadv | .tlbrera | .tlbrsave | .tlbrelo0 | .tlbrelo1 | .tlbrehi | .tlbrprmd => .refill
  | .merrctl | .merrentry | .merrera | .merrsave => .merr
  | .pmcfg _ | .pmcnt _ => .perf
  | .mwps | .mwpcfg1 _ | .mwpcfg2 _ | .mwpcfg3 _ | .mwpcfg4 _
  | .fwps | .fwpcfg1 _ | .fwpcfg2 _ | .fwpcfg3 _ | .fwpcfg4 _ => .watch
  | .dera | .dsave => .dbgRegs
  | .msgis _ | .msgie => .msg
  | .badi | .pgd | .cpuid | .prcfg1 | .prcfg2 | .prcfg3 | .tval | .merrinfo1 | .merrinfo2 | .mwpc | .fwpc | .dbg
  | .msgir => .fixed

theorem ne_of_affects_eq_false (h : c.affects d = false) : c ≠ d := ne_of_beq_false (Bool.or_eq_false_iff.1 h).1

/-- An element of a vector after another one is set. -/
theorem getElem_set_of_ne {α : Type} {n : Nat} (xs : Vector α n) {i j : Fin n} (x : α) (h : i ≠ j) :
    (xs.set i x)[j] = xs[j] := Vector.getElem_set_ne _ _ fun e => h (Fin.ext e)

/-! ## Watchpoints -/

section
variable {i : Fin 4} {f : Watchpoint → Watchpoint}

/-- A rewritten watchpoint keeps the fields that the rewriting keeps; the other watchpoints are untouched. -/
theorem mwp_setMwp {α : Type} (P : Watchpoint → α) {j : Fin 4} (h : (∀ w, P (f w) = P w) ∨ i ≠ j) :
    P (s.setMwp i f).csr.watch.mwp[j] = P s.csr.watch.mwp[j] := by
  unfold State.setMwp
  split
  · by_cases hij : i = j
    · subst hij
      exact (congrArg P (Vector.getElem_set_self ..)).trans (h.resolve_right (· rfl) _)
    · exact congrArg P (getElem_set_of_ne _ _ hij)
  · rfl

theorem exists_setMwp_eq : ∃ ws, s.setMwp i f = s.setWatch { s.csr.watch with mwp := ws } := by
  unfold State.setMwp
  split
  · exact ⟨_, rfl⟩
  · exact ⟨s.csr.watch.mwp, rfl⟩

/-- A rewritten watchpoint leaves every register but those whose fields the rewriting changes. -/
theorem csrRead_setMwp (h1 : (∀ w, (f w).cfg1 = w.cfg1) ∨ .mwpcfg1 i ≠ d)
    (h2 : (∀ w, (f w).cfg2 = w.cfg2) ∨ .mwpcfg2 i ≠ d) (h3 : (∀ w, (f w).cfg3 = w.cfg3) ∨ .mwpcfg3 i ≠ d)
    (h4 : (∀ w, (f w).cfg4 = w.cfg4) ∨ .mwpcfg4 i ≠ d) :
    (s.setMwp i f).csrRead d = s.csrRead d := by
  obtain ⟨ws, hws⟩ := exists_setMwp_eq (s := s) (i := i) (f := f)
  cases d with
  | mwpcfg1 j => exact mwp_setMwp (·.cfg1) (h1.imp_right (mt (congrArg _)))
  | mwpcfg2 j => exact mwp_setMwp (·.cfg2) (h2.imp_right (mt (congrArg _)))
  | mwpcfg3 j => exact congrArg sext32 (mwp_setMwp (·.cfg3) (h3.imp_right (mt (congrArg _))))
  | mwpcfg4 j => exact congrArg sext32 (mwp_setMwp (·.cfg4) (h4.imp_right (mt (congrArg _))))
  | _ => rw [hws]; rfl

/-- A rewritten watchpoint keeps the fields that the rewriting keeps; the other watchpoints are untouched. -/
theorem fwp_setFwp {α : Type} (P : Watchpoint → α) {j : Fin 4} (h : (∀ w, P (f w) = P w) ∨ i ≠ j) :
    P (s.setFwp i f).csr.watch.fwp[j] = P s.csr.watch.fwp[j] := by
  unfold State.setFwp
  split
  · by_cases hij : i = j
    · subst hij
      exact (congrArg P (Vector.getElem_set_self ..)).trans (h.resolve_right (· rfl) _)
    · exact congrArg P (getElem_set_of_ne _ _ hij)
  · rfl

theorem exists_setFwp_eq : ∃ ws, s.setFwp i f = s.setWatch { s.csr.watch with fwp := ws } := by
  unfold State.setFwp
  split
  · exact ⟨_, rfl⟩
  · exact ⟨s.csr.watch.fwp, rfl⟩

/-- A rewritten watchpoint leaves every register but those whose fields the rewriting changes. -/
theorem csrRead_setFwp (h1 : (∀ w, (f w).cfg1 = w.cfg1) ∨ .fwpcfg1 i ≠ d)
    (h2 : (∀ w, (f w).cfg2 = w.cfg2) ∨ .fwpcfg2 i ≠ d) (h3 : (∀ w, (f w).cfg3 = w.cfg3) ∨ .fwpcfg3 i ≠ d)
    (h4 : (∀ w, (f w).cfg4 = w.cfg4) ∨ .fwpcfg4 i ≠ d) :
    (s.setFwp i f).csrRead d = s.csrRead d := by
  obtain ⟨ws, hws⟩ := exists_setFwp_eq (s := s) (i := i) (f := f)
  cases d with
  | fwpcfg1 j => exact fwp_setFwp (·.cfg1) (h1.imp_right (mt (congrArg _)))
  | fwpcfg2 j => exact fwp_setFwp (·.cfg2) (h2.imp_right (mt (congrArg _)))
  | fwpcfg3 j => exact congrArg sext32 (fwp_setFwp (·.cfg3) (h3.imp_right (mt (congrArg _))))
  | fwpcfg4 j => exact congrArg sext32 (fwp_setFwp (·.cfg4) (h4.imp_right (mt (congrArg _))))
  | _ => rw [hws]; rfl

end

/-! ## One part of the state after another -/

theorem csrRead_csrWrite_of_basic (hc : c.part = .basic) (h : c.affects d = false) :
    (s.csrWrite c v).csrRead d = s.csrRead d := by
  cases c with
  | crmd => cases d with | crmd => cases h | _ => rfl
  | prmd => cases d with | prmd => cases h | _ => rfl
  | euen => cases d with | euen => cases h | _ => rfl
  | misc => cases d with | misc => cases h | _ => rfl
  | ecfg => cases d with | ecfg => cases h | _ => rfl
  | estat => cases d with | estat => cases h | _ => rfl
  | era => cases d with | era => cases h | _ => rfl
  | badv => cases d with | badv | pgd => cases h | _ => rfl
  | eentry => cases d with | eentry => cases h | _ => rfl
  | rvacfg => cases d with | rvacfg => cases h | _ => rfl
  | ctag => cases d with | ctag => cases h | _ => rfl
  | save i =>
    cases d with
    | save j => exact getElem_set_of_ne _ _ (fun e => ne_of_affects_eq_false h (e ▸ rfl))
    | _ => rfl
  | ticlr =>
    obtain ⟨x, hx⟩ : ∃ x, s.writeTiclr v = s.setBasic { s.csr.basic with estat := x } := by
      unfold State.writeTiclr
      split
      · exact ⟨_, rfl⟩
      · exact ⟨s.csr.basic.estat, rfl⟩
    change (s.writeTiclr v).csrRead d = _
    rw [hx]
    cases d with | ticlr | estat => cases h | _ => rfl
  | llbctl =>
    obtain ⟨x, b, hx⟩ : ∃ x b, s.writeLlbctl v = (s.setBasic { s.csr.basic with llbctl := x }).setLL b := by
      unfold State.writeLlbctl
      dsimp only
      split
      · exact ⟨_, false, rfl⟩
      · exact ⟨take32 s.csr.basic.llbctl 0x4#32 v, s.llbit, rfl⟩
    change (s.writeLlbctl v).csrRead d = _
    rw [hx]
    cases d with | llbctl => cases h | _ => rfl
  | _ => cases hc

theorem csrRead_csrWrite_of_mmu (hc : c.part = .mmu) (h : c.affects d = false) :
    (s.csrWrite c v).csrRead d = s.csrRead d := by
  cases c with
  | tlbidx => cases d with | tlbidx => cases h | _ => rfl
  | tlbehi => cases d with | tlbehi => cases h | _ => rfl
  | tlbelo0 => cases d with | tlbelo0 => cases h | _ => rfl
  | tlbelo1 => cases d with | tlbelo1 => cases h | _ => rfl
  | asid => cases d with | asid => cases h | _ => rfl
  | pgdl => cases d with | pgdl | pgd => cases h | _ => rfl
  | pgdh => cases d with | pgdh | pgd => cases h | _ => rfl
  | pwcl => cases d with | pwcl => cases h | _ => rfl
  | pwch => cases d with | pwch => cases h | _ => rfl
  | stlbps => cases d with | stlbps => cases h | _ => rfl
  | dmw i =>
    cases d with
    | dmw j => exact getElem_set_of_ne _ _ (fun e => ne_of_affects_eq_false h (e ▸ rfl))
    | _ => rfl
  | _ => cases hc

theorem csrRead_csrWrite_of_timer (hc : c.part = .timer) (h : c.affects d = false) :
    (s.csrWrite c v).csrRead d = s.csrRead d := by
  cases c with
  | tid => cases d with | tid => cases h | _ => rfl
  | tcfg => cases d with | tcfg | tval => cases h | _ => rfl
  | cntc => cases d with | cntc => cases h | _ => rfl
  | _ => cases hc

theorem csrRead_csrWrite_of_refill (hc : c.part = .refill) (h : c.affects d = false) :
    (s.csrWrite c v).csrRead d = s.csrRead d := by
  cases c with
  | tlbrentry => cases d with | tlbrentry => cases h | _ => rfl
  | tlbrbadv => cases d with | tlbrbadv | pgd => cases h | _ => rfl
  | tlbrera => cases d with | tlbrera | pgd => cases h | _ => rfl
  | tlbrsave => cases d with | tlbrsave => cases h | _ => rfl
  | tlbrelo0 => cases d with | tlbrelo0 => cases h | _ => rfl
  | tlbrelo1 => cases d with | tlbrelo1 => cases h | _ => rfl
  | tlbrehi => cases d with | tlbrehi => cases h | _ => rfl
  | tlbrprmd => cases d with | tlbrprmd => cases h | _ => rfl
  | _ => cases hc

theorem csrRead_csrWrite_of_merr (hc : c.part = .merr) (h : c.affects d = false) :
    (s.csrWrite c v).csrRead d = s.csrRead d := by
  cases c with
  | merrctl => cases d with | merrctl => cases h | _ => rfl
  | merrentry => cases d with | merrentry => cases h | _ => rfl
  | merrera => cases d with | merrera => cases h | _ => rfl
  | merrsave => cases d with | merrsave => cases h | _ => rfl
  | _ => cases hc

theorem csrRead_csrWrite_of_perf (hc : c.part = .perf) (h : c.affects d = false) :
    (s.csrWrite c v).csrRead d = s.csrRead d := by
  cases c with
  | pmcfg i =>
    cases d with
    | pmcfg j => exact congrArg sext32 (getElem_set_of_ne _ _ (fun e => ne_of_affects_eq_false h (e ▸ rfl)))
    | estat => cases h
    | _ => rfl
  | pmcnt i =>
    cases d with
    | pmcnt j => exact getElem_set_of_ne _ _ (fun e => ne_of_affects_eq_false h (e ▸ rfl))
    | estat => cases h
    | _ => rfl
  | _ => cases hc

theorem csrRead_csrWrite_of_watch (hc : c.part = .watch) (h : c.affects d = false) :
    (s.csrWrite c v).csrRead d = s.csrRead d := by
  have hne := ne_of_affects_eq_false h
  cases c with
  | mwps => cases d with | mwps => cases h | _ => rfl
  | fwps => cases d with | fwps => cases h | _ => rfl
  | mwpcfg1 i =>
    rw [csrWrite_mwpcfg1]
    exact csrRead_setMwp (.inr hne) (.inl fun _ => rfl) (.inl fun _ => rfl) (.inl fun _ => rfl)
  | mwpcfg2 i =>
    rw [csrWrite_mwpcfg2]
    exact csrRead_setMwp (.inl fun _ => rfl) (.inr hne) (.inl fun _ => rfl) (.inl fun _ => rfl)
  | mwpcfg3 i =>
    rw [csrWrite_mwpcfg3]
    exact csrRead_setMwp (.inl fun _ => rfl) (.inl fun _ => rfl) (.inr hne) (.inl fun _ => rfl)
  | mwpcfg4 i =>
    rw [csrWrite_mwpcfg4]
    exact csrRead_setMwp (.inl fun _ => rfl) (.inl fun _ => rfl) (.inl fun _ => rfl) (.inr hne)
  | fwpcfg1 i =>
    rw [csrWrite_fwpcfg1]
    exact csrRead_setFwp (.inr hne) (.inl fun _ => rfl) (.inl fun _ => rfl) (.inl fun _ => rfl)
  | fwpcfg2 i =>
    rw [csrWrite_fwpcfg2]
    exact csrRead_setFwp (.inl fun _ => rfl) (.inr hne) (.inl fun _ => rfl) (.inl fun _ => rfl)
  | fwpcfg3 i =>
    rw [csrWrite_fwpcfg3]
    exact csrRead_setFwp (.inl fun _ => rfl) (.inl fun _ => rfl) (.inr hne) (.inl fun _ => rfl)
  | fwpcfg4 i =>
    rw [csrWrite_fwpcfg4]
    exact csrRead_setFwp (.inl fun _ => rfl) (.inl fun _ => rfl) (.inl fun _ => rfl) (.inr hne)
  | _ => cases hc

theorem csrRead_csrWrite_of_dbgRegs (hc : c.part = .dbgRegs) (h : c.affects d = false) :
    (s.csrWrite c v).csrRead d = s.csrRead d := by
  cases c with
  | dera => cases d with | dera => cases h | _ => rfl
  | dsave => cases d with | dsave => cases h | _ => rfl
  | _ => cases hc

theorem csrRead_csrWrite_of_msg (hc : c.part = .msg) (h : c.affects d = false) :
    (s.csrWrite c v).csrRead d = s.csrRead d := by
  cases c with
  | msgis i =>
    cases d with
    | msgis j | msgir => exact nomatch (Bool.or_eq_false_iff.1 h).2
    | estat =>
      change sext32 (State.estatValue _) = sext32 s.estatValue
      rw [estatValue_eq, estatValue_eq s]
      rfl
    | _ => rfl
  | msgie => cases d with | msgie | msgir => cases h | _ => rfl
  | _ => cases hc

/-- A register that is tied to no view of the one written reads as before. -/
theorem csrRead_csrWrite_of_not_affects (h : c.affects d = false) : (s.csrWrite c v).csrRead d = s.csrRead d := by
  cases hc : c.part with
  | basic => exact csrRead_csrWrite_of_basic hc h
  | mmu => exact csrRead_csrWrite_of_mmu hc h
  | timer => exact csrRead_csrWrite_of_timer hc h
  | refill => exact csrRead_csrWrite_of_refill hc h
  | merr => exact csrRead_csrWrite_of_merr hc h
  | perf => exact csrRead_csrWrite_of_perf hc h
  | watch => exact csrRead_csrWrite_of_watch hc h
  | dbgRegs => exact csrRead_csrWrite_of_dbgRegs hc h
  | msg => exact csrRead_csrWrite_of_msg hc h
  | fixed =>
    cases c with
    | badi | pgd | cpuid | prcfg1 | prcfg2 | prcfg3 | tval | merrinfo1 | merrinfo2 | mwpc | fwpc | dbg | msgir => rfl
    | _ => cases hc

/-- Settles O39, register by register: what the register written reads, then what the others read. -/
theorem csrFields : Obligations.CsrFields := by
  intro s v
  exact ⟨csrRead_csrWrite_32 s v, csrRead_csrWrite_whole s v, csrRead_csrWrite_save s v, csrRead_csrWrite_pmcnt s v,
    csrRead_csrWrite_64 s v, rfl, csrRead_csrWrite_tlbrehi s v, csrRead_csrWrite_tcfg_tval s v,
    llbit_csrWrite_llbctl s v, getLsbD_csrRead_csrWrite_llbctl s v, csrRead_csrWrite_watchStatus s v,
    csrWrite_watchpoint s v, csrWrite_readOnly s v, fun _ _ => csrRead_csrWrite_of_not_affects⟩

end Sys2Proof.Machine
end

section
/-! SUPPORT. What is read back after a store (20_memory.md R200, R203, R204). -/

namespace Sys2Proof.Machine

/-- Bytes stored at distinct addresses make up the low bits of the value again. -/
theorem State.valueAt_storeBytes {as : List Nat} (hd : as.Nodup) {s : State} (hm : Memory.wf s.mem = true) (v : Word) :
    (s.storeBytes as v).valueAt as = v.toNat % 2 ^ (8 * as.length) := by
  induction as generalizing s v with
  | nil => exact (Nat.mod_one _).symm
  | cons a as ih =>
    obtain ⟨ha, hd⟩ := List.nodup_cons.1 hd
    have hm' := State.storeByte_wf hm a (v.setWidth 8)
    have hfirst : ((s.storeByte a (v.setWidth 8)).storeBytes as (v >>> 8)).byteAt a = v.setWidth 8 := by
      rw [State.byteAt_storeBytes_ne hm' ha, State.byteAt_storeByte hm, if_pos rfl]
    have hpow : 2 ^ (8 * (as.length + 1)) = 256 * 2 ^ (8 * as.length) := by ring
    rw [State.storeBytes, State.valueAt, hfirst, ih hd hm', BitVec.toNat_setWidth, BitVec.toNat_ushiftRight,
      Nat.shiftRight_eq_div_pow, List.length_cons, hpow, Nat.mod_mul]

/-- Settles O19: the bytes read back, by induction on the addresses, and the bytes outside them. -/
theorem loadAfterStore : Obligations.LoadAfterStore := fun _ _ v hm hd =>
  ⟨State.valueAt_storeBytes hd hm.1 v, fun _ ha => State.byteAt_storeBytes_ne hm.1 ha⟩

end Sys2Proof.Machine
end

section
/-! SUPPORT. The checks of a data access in their order (20_memory.md R212 to R215), and the legality of an address
(21_address_translation.md R251, R252). -/

namespace Sys2Proof.Machine

/-! ## Legality of an address -/

/-- The sign bits from bit `k` up are all 0 or all 1 where each of them equals bit `k`. -/
theorem sshiftRight_eq_zero_or_allOnes_iff (x : Word) {k : Nat} (hk : k < 64) :
    x.sshiftRight k = 0 ∨ x.sshiftRight k = BitVec.allOnes 64 ↔ ∀ n, k < n → n < 64 → x.getLsbD n = x.getLsbD k := by
  have bit (i : Nat) (hi : i < 64) : (x.sshiftRight k).getLsbD i = x.getLsbD (min (k + i) 63) := by
    rw [BitVec.getLsbD_sshiftRight, BitVec.msb_eq_getLsbD_last, decide_eq_false (by omega), Bool.not_false, Bool.true_and]
    split
    · rw [Nat.min_eq_left (by omega)]
    · rw [Nat.min_eq_right (by omega)]
  constructor
  · intro h n hkn hn
    have hbits : (x.sshiftRight k).getLsbD (n - k) = (x.sshiftRight k).getLsbD 0 := by
      obtain h | h := h
      · rw [h]; exact BitVec.getLsbD_zero.trans BitVec.getLsbD_zero.symm
      · rw [h, BitVec.getLsbD_allOnes, BitVec.getLsbD_allOnes, decide_eq_true (by omega), decide_eq_true (by omega)]
    rwa [bit _ (by omega), bit _ (by omega), Nat.min_eq_left (by omega), Nat.min_eq_left (by omega),
      Nat.add_sub_of_le hkn.le] at hbits
  · intro h
    have same (i : Nat) (hi : i < 64) : (x.sshiftRight k).getLsbD i = x.getLsbD k := by
      rw [bit i hi]
      obtain hlt | heq := Nat.lt_or_eq_of_le (show k ≤ min (k + i) 63 by omega)
      · exact h _ hlt (by omega)
      · rw [← heq]
    cases hx : x.getLsbD k with
    | false => exact .inl (BitVec.eq_of_getLsbD_eq fun i hi => (same i hi).trans (hx.trans BitVec.getLsbD_zero.symm))
    | true =>
      exact .inr (BitVec.eq_of_getLsbD_eq fun i hi => by
        rw [same i hi, hx, BitVec.getLsbD_allOnes, decide_eq_true hi])

section
variable {s : State}

/-- The bits of a sign-extended address from VALEN - RBits up equal the one below (R252). -/
theorem State.canonicalVa_iff (hr : s.rbits ≤ 8) (va : Word) :
    s.canonicalVa va = true ↔ ∀ n, 48 - s.rbits ≤ n → n < 64 → va.getLsbD n = va.getLsbD (48 - s.rbits - 1) := by
  have hk : 48 - 1 - s.rbits = 48 - s.rbits - 1 := by omega
  have hlt (n : Nat) : 48 - s.rbits - 1 < n ↔ 48 - s.rbits ≤ n := by omega
  have h := sshiftRight_eq_zero_or_allOnes_iff va (k := 48 - s.rbits - 1) (by omega)
  simp only [hlt] at h
  simpa only [State.canonicalVa, Config.valen, hk, Bool.or_eq_true, beq_iff_eq] using h

/-- The windows that an access tests: the first two of the four for a fetch (R255). -/
theorem State.windows_eq (k : AccKind) : s.windows k = s.csr.mmu.dmw.toList.take (if k = .fetch then 2 else 4) := by
  have hl : s.csr.mmu.dmw.toList.length = 4 := Vector.length_toList
  cases k with
  | fetch => rfl
  | load | store => exact (List.take_of_length_le hl.le).symm

/-- Some window hits (R255). -/
theorem State.window_isSome_iff (k : AccKind) (va : Word) :
    (s.window k va).isSome = true ↔ ∃ w ∈ s.csr.mmu.dmw.toList.take (if k = .fetch then 2 else 4),
      bits va 60 4 = bits w 60 4 ∧ w.getLsbD s.plv.toNat = true := by
  rw [State.window, List.find?_isSome, State.windows_eq]
  simp only [State.windowHits, Bool.and_eq_true, beq_iff_eq]

/-- An address is legal in direct mode, in a window that hits, and where it is a sign extension (R251, R252). -/
theorem State.legal_iff (hr : s.rbits ≤ 8) (k : AccKind) (va : Word) :
    s.legal k va = true ↔ s.da = true ∨
      (∃ w ∈ s.csr.mmu.dmw.toList.take (if k = .fetch then 2 else 4),
        bits va 60 4 = bits w 60 4 ∧ w.getLsbD s.plv.toNat = true) ∨
      ∀ n, 48 - s.rbits ≤ n → n < 64 → va.getLsbD n = va.getLsbD (48 - s.rbits - 1) := by
  rw [State.legal, Bool.or_eq_true, Bool.or_eq_true, State.window_isSome_iff, State.canonicalVa_iff hr, or_assoc]

/-- Translation in one mode alone, with a reduction of the address that exists, has a meaning (R73, R84). -/
theorem State.modeStop_eq_none (hm : s.da ≠ s.pg) (hr : s.rbits ≤ 8) : s.modeStop = none := by
  rw [State.modeStop, if_neg hm, if_neg (Nat.not_lt.2 hr)]

end

/-! ## The checks, one after the other -/

/-- The bytes of the access `a` are legal for it (R215 step 3; log 74). -/
def BytesLegal (s : State) (a : Access) : Prop :=
  ∀ n, n < a.size → s.legal a.kind (s.effVa (a.va + BitVec.ofNat 64 n)) = true

theorem all_legal_byteVas_iff {s : State} {a : Access} :
    (s.byteVas a.va a.size).all (s.legal a.kind) = true ↔ BytesLegal s a := by
  simp only [State.byteVas, List.all_map, List.all_eq_true, List.mem_range, Function.comp_apply, BytesLegal]

/-- Bytes have one memory access type where each has that of the first (R214). -/
theorem sameMat_map_range (p : Nat → Phys) (n : Nat) :
    sameMat ((List.range n).map p) = true ↔ ∀ m, m < n → (p m).mat = (p 0).mat := by
  cases n with
  | zero => exact ⟨fun _ _ hm => absurd hm (Nat.not_lt_zero _), fun _ => rfl⟩
  | succ n =>
    rw [List.range_succ_eq_map, List.map_cons, sameMat, List.map_map, List.all_map, List.all_eq_true]
    simp only [List.mem_range, Function.comp_apply, beq_iff_eq]
    constructor
    · intro h m hm
      cases m with
      | zero => rfl
      | succ m => exact h m (Nat.lt_of_succ_lt_succ hm)
    · exact fun h m hm => h (m + 1) (Nat.succ_lt_succ hm)

section
variable {s : State} {a : Access} (hs : s.modeStop = none)
include hs

/-- An unaligned access whose alignment is checked raises ALE before anything else (R212, R213). -/
theorem State.checkAccess_unaligned (hc : s.alignChecked a.align = true) (hv : a.va.toNat % a.size ≠ 0) :
    s.checkAccess a = .exc (.ale a.va) := by
  rw [State.checkAccess, hs]
  exact if_pos (by rw [hc, Bool.true_and, bne_iff_ne]; exact hv)

section
variable (ha : s.alignChecked a.align = true → a.va.toNat % a.size = 0)
include ha

/-- An access past the alignment check goes on with the legality of its bytes. -/
theorem State.checkAccess_aligned :
    s.checkAccess a = if !(s.byteVas a.va a.size).all (s.legal a.kind) then .exc (.adem a.va)
      else if !a.boundOk then .exc (.bce a.va)
      else (s.translateAll a.kind a.va (s.byteVas a.va a.size)).bind fun ps =>
        if sameMat ps then .ok ps else .exc (.ale a.va) := by
  rw [State.checkAccess, hs]
  refine if_neg fun h => ?_
  rw [Bool.and_eq_true, bne_iff_ne] at h
  exact h.2 (ha h.1)

/-- A byte whose address is not legal raises ADEM (R252). -/
theorem State.checkAccess_illegal (hl : ¬BytesLegal s a) : s.checkAccess a = .exc (.adem a.va) := by
  rw [State.checkAccess_aligned hs ha, if_pos]
  rwa [Bool.not_eq_true', ← Bool.not_eq_true, all_legal_byteVas_iff]

variable (hl : BytesLegal s a)
include hl

/-- A failed bound check raises BCE (R512). -/
theorem State.checkAccess_outOfBound (hb : a.boundOk = false) : s.checkAccess a = .exc (.bce a.va) := by
  rw [State.checkAccess_aligned hs ha, all_legal_byteVas_iff.2 hl, hb]; rfl

variable (hb : a.boundOk = true)
include hb

/-- An access past the bound check translates, and its bytes must have one memory access type (R214). -/
theorem State.checkAccess_inBound :
    s.checkAccess a = (s.translateAll a.kind a.va (s.byteVas a.va a.size)).bind fun ps =>
      if sameMat ps then .ok ps else .exc (.ale a.va) := by
  rw [State.checkAccess_aligned hs ha, all_legal_byteVas_iff.2 hl, hb]; rfl

/-- An access whose bytes all translate completes where they have one memory access type, and else raises ALE (R214). -/
theorem State.checkAccess_translated {p : Nat → Phys} (hp : BytesTranslate s a.kind a.va a.size p) :
    s.checkAccess a = if sameMat ((List.range a.size).map p) then .ok ((List.range a.size).map p)
      else .exc (.ale a.va) := by
  rw [State.checkAccess_inBound hs ha hl hb, State.translateAll_bytes hp]; rfl

end
end

/-- Settles O18: the legality of an address, then the checks one after the other. -/
theorem accessChecksInOrder : Obligations.AccessChecksInOrder := by
  intro s a hm hr
  have hs := State.modeStop_eq_none hm hr
  refine ⟨?_, State.checkAccess_unaligned hs, fun ha => ⟨?_, fun hl => ⟨State.checkAccess_outOfBound hs ha hl, ?_⟩⟩⟩
  · rintro k va v rfl
    exact State.legal_iff hr k va
  · rintro ⟨n, hn, hf⟩
    exact State.checkAccess_illegal hs ha fun hl => Bool.false_ne_true (hf.symm.trans (hl n hn))
  · intro hb
    refine ⟨fun e he => ?_, fun r he => ?_, fun p hp => ⟨?_, fun hq => ?_⟩⟩
    · rw [State.checkAccess_inBound hs ha hl hb, State.translateAll_raises he]; rfl
    · rw [State.checkAccess_inBound hs ha hl hb, State.translateAll_stops he]; rfl
    · rintro ⟨n, hn, hne⟩
      rw [State.checkAccess_translated hs ha hl hb hp, if_neg]
      exact fun h => hne ((sameMat_map_range p _).1 h n hn)
    · have hok := State.checkAccess_translated hs ha hl hb hp
      rw [if_pos ((sameMat_map_range p _).2 hq)] at hok
      exact ⟨hok, fun hu => ⟨hok, hu⟩⟩

end Sys2Proof.Machine
end

section
/-! SUPPORT. What an instruction does past the checks of its access takes no notice of the watchpoint registers, so that
it is the same whether no watchpoint matches or Skip lets the access pass (13 R181, R185). -/

namespace Sys2Proof.Machine

/-! ## The watchpoint registers replaced -/

section
variable (s : State) (c : WatchCsrs)

@[simp] theorem State.setWatch_setWatch (d : WatchCsrs) : (s.setWatch c).setWatch d = s.setWatch d := rfl
@[simp] theorem State.free_setWatch : (s.setWatch c).free = s.free := rfl
@[simp] theorem State.drawn_setWatch : (s.setWatch c).drawn = s.drawn.setWatch c := rfl
@[simp] theorem State.advance_setWatch : (s.setWatch c).advance = s.advance.setWatch c := rfl
@[simp] theorem State.setLL_setWatch (b : Bool) : (s.setWatch c).setLL b = (s.setLL b).setWatch c := rfl
@[simp] theorem State.setF_setWatch (r : FReg) (v : Word) : (s.setWatch c).setF r v = (s.setF r v).setWatch c := rfl
@[simp] theorem State.setFS_setWatch (r : FReg) (v : BitVec 32) :
    (s.setWatch c).setFS r v = (s.setFS r v).setWatch c := rfl
@[simp] theorem State.putPte_setWatch (odd : Bool) (image : Word) (ps : BitVec 6) :
    (s.setWatch c).putPte odd image ps = (s.putPte odd image ps).setWatch c := rfl

@[simp] theorem State.setX_setWatch (r : Reg) (v : Word) : (s.setWatch c).setX r v = (s.setX r v).setWatch c := by
  unfold State.setX
  split <;> rfl

@[simp] theorem State.retire_setWatch (rd : Reg) (v : Word) :
    (s.setWatch c).retire rd v = (s.retire rd v).setWatch c := by simp [State.retire]

@[simp] theorem State.retireAny_setWatch (rd : Reg) : (s.setWatch c).retireAny rd = (s.retireAny rd).setWatch c := by
  simp [State.retireAny]

@[simp] theorem State.loadBytes_setWatch (as : List Nat) : (s.setWatch c).loadBytes as = s.loadBytes as := by
  induction as with
  | nil => rfl
  | cons a as ih => rw [State.loadBytes, ih]; rfl

@[simp] theorem State.storeBytes_setWatch (as : List Nat) (v : Word) :
    (s.setWatch c).storeBytes as v = (s.storeBytes as v).setWatch c := by
  induction as generalizing s v with
  | nil => rfl
  | cons a as ih => exact ih (s.storeByte a (v.setWidth 8)) (v >>> 8)

theorem State.translateAll_setWatch (k : AccKind) (first : Word) (vas : List Word) :
    (s.setWatch c).translateAll k first vas = s.translateAll k first vas := by
  induction vas with
  | nil => rfl
  | cons va vas ih => rw [State.translateAll, ih]; rfl

/-- The checks before the watchpoint test take no notice of the watchpoint registers. -/
theorem State.checkAccess_setWatch (a : Access) : (s.setWatch c).checkAccess a = s.checkAccess a := by
  unfold State.checkAccess
  rw [State.translateAll_setWatch]
  rfl

end

/-! ## The effects of the atomic instructions and of the page walk -/

/-- What AM* does at the bytes of its access, `v` the value of rk (R540, R542). -/
def amoEffect (ext : Word → Word) (f : Word → Word → Word) (rd rk : Reg) (v : Word) (ps : List Phys)
    (t : State) : State :=
  if rd = rk ∧ rd ≠ 0 then (t.storeBytes (physAddrs ps) t.free).drawn.retireAny rd
  else (t.storeBytes (physAddrs ps) (f (t.loadBytes (physAddrs ps)) v)).retire rd (ext (t.loadBytes (physAddrs ps)))

/-- What AMCAS does at the bytes of its access: `v` stored over the value `old` (R583). -/
def amcasEffect (ext : Word → Word) (rd : Reg) (old v : Word) (ps : List Phys) (t : State) : State :=
  (if t.loadBytes (physAddrs ps) = old then t.storeBytes (physAddrs ps) v else t).retire rd
    (ext (t.loadBytes (physAddrs ps)))

/-- LLbit set for the address `va` (R571). -/
def State.linked (t : State) (va : Word) : State := { t with llbit := true, llAddr := va }

@[simp] theorem State.linked_setWatch (t : State) (c : WatchCsrs) (va : Word) :
    (t.setWatch c).linked va = (t.linked va).setWatch c := rfl

/-- What LL and LLACQ of the address `va` do at the bytes of their access (R571, R581). -/
def linkedEffect (va : Word) (ext : Word → Word) (rd : Reg) (ps : List Phys) (t : State) : State :=
  if allCached ps then (t.linked va).retire rd (ext ((t.linked va).loadBytes (physAddrs ps)))
  else (t.linked va).drawn.retire rd (ext t.free)

/-- What LDPTE does at the bytes of its access (R841). -/
def pteEffect (odd : Bool) (size : BitVec 6) (ps : List Phys) (t : State) : State :=
  (t.putPte odd (commonToElo (t.loadBytes (physAddrs ps))) size).advance

/-! ## The access of an instruction and its effect -/

/-- The effect `f` keeps the watchpoint registers and takes no notice of them. -/
def WatchFree (f : State → State) : Prop := ∀ t c, f (t.setWatch c) = (f t).setWatch c

theorem WatchFree.ite {f : State → State} (hf : WatchFree f) {t : State} {c : WatchCsrs} (q : Prop) [Decidable q] :
    (if q then f (t.setWatch c) else t.setWatch c) = (if q then f t else t).setWatch c := by
  rw [hf, apply_ite (State.setWatch · c)]

/-- Whatever the watchpoint registers of `s` hold, what `o` does is the access `a` and then one effect, which takes no
notice of them. -/
def MakesAccess (s : State) (a : Access) (o : State → Out) : Prop :=
  ∃ f : List Phys → State → State, (∀ ps, WatchFree (f ps)) ∧
    ∀ c, o (s.setWatch c) = access (s.setWatch c) a fun ps t => .next (f ps t)

section
variable {s : State} {a : Access} {o p : State → Out}

theorem MakesAccess.of_eq (h : MakesAccess s a o) (hp : ∀ c, p (s.setWatch c) = o (s.setWatch c)) :
    MakesAccess s a p := by
  obtain ⟨f, hf, ho⟩ := h
  exact ⟨f, hf, fun c => (hp c).trans (ho c)⟩

theorem MakesAccess.floating (h : MakesAccess s a o) (hf : FpOn s) : MakesAccess s a fun t => floating t (o t) :=
  h.of_eq fun _ => floating_on hf

/-! ### The families of memory instructions -/

theorem makesAccess_loadX (rd : Reg) (ext : Word → Word) : MakesAccess s a fun t => loadX t a rd ext :=
  ⟨_, fun ps t c => by simp, fun _ => rfl⟩

theorem makesAccess_storeX (v : Word) : MakesAccess s a fun t => storeX t a v :=
  ⟨_, fun ps t c => by simp, fun _ => rfl⟩

theorem makesAccess_loadFS (fd : FReg) : MakesAccess s a fun t => loadFS t a fd :=
  ⟨_, fun ps t c => by simp, fun _ => rfl⟩

theorem makesAccess_loadFD (fd : FReg) : MakesAccess s a fun t => loadFD t a fd :=
  ⟨_, fun ps t c => by simp, fun _ => rfl⟩

theorem makesAccess_amo (size : Nat) (ext : Word → Word) (f : Word → Word → Word) (rd rj rk : Reg) :
    MakesAccess s (s.atomicAccess (s.x rj) size) (amo size ext f rd rj rk) := by
  refine ⟨amoEffect ext f rd rk (s.x rk), fun ps t c => ?_, fun _ => rfl⟩
  unfold amoEffect
  split <;> simp

theorem makesAccess_amoChecked {rd rj : Reg} (h : rd ≠ rj) (size : Nat) (ext : Word → Word) (f : Word → Word → Word)
    (rk : Reg) : MakesAccess s (s.atomicAccess (s.x rj) size) (amoChecked size ext f rd rj rk) :=
  (makesAccess_amo size ext f rd rj rk).of_eq fun _ => if_neg h

theorem makesAccess_amcas (size : Nat) (ext trunc : Word → Word) (rd rj rk : Reg) :
    MakesAccess s (s.atomicAccess (s.x rj) size) (amcas size ext trunc rd rj rk) := by
  refine ⟨amcasEffect ext rd (trunc (s.x rd)) (s.x rk), fun ps t c => ?_, fun _ => rfl⟩
  unfold amcasEffect
  rw [State.loadBytes_setWatch]
  split <;> simp

theorem makesAccess_loadLinked (va : Word) (size : Nat) (ext : Word → Word) (rd : Reg) :
    MakesAccess s (s.linkedLoad va size) (loadLinked va size ext rd) := by
  refine ⟨linkedEffect (s.effVa va) ext rd, fun ps t c => ?_, fun _ => rfl⟩
  unfold linkedEffect
  split <;> simp

theorem makesAccess_storeCond {put : List Nat → State → State} (hput : ∀ as, WatchFree (put as)) (rd : Reg) :
    MakesAccess s a (storeCond a put rd) := by
  refine ⟨_, fun ps t c => ?_, fun _ => rfl⟩
  have hite := WatchFree.ite (hput (physAddrs ps)) (t := t) (c := c)
  split
  · rw [hite, State.setLL_setWatch, State.retire_setWatch]; rfl
  · rw [hite, State.setLL_setWatch, State.drawn_setWatch, State.retire_setWatch]; rfl

theorem watchFree_storeBytes (v : Word) (as : List Nat) : WatchFree (·.storeBytes as v) :=
  fun t c => t.storeBytes_setWatch c as v

/-- SC.Q: the low half at the first eight bytes, the high half at the others (R575). -/
theorem watchFree_storeQuad (v w : Word) (as : List Nat) :
    WatchFree fun t => (t.storeBytes (as.take 8) v).storeBytes (as.drop 8) w := fun t c => by simp

/-- LDDIR of a level that exists, where rj holds no huge page entry (R840). -/
theorem makesAccess_lddir (hp : s.plv = 0) {rj : Reg} (hh : ¬(s.x rj).getLsbD 6 = true) (rd : Reg) {level : BitVec 8}
    {p : Nat × Nat} (hd : s.dirFields level = some p) :
    MakesAccess s (s.walkLoad (s.x rj + s.entryOffset (tableIndex s.walkVa p.1 p.2))) (execLddir rd rj level) := by
  refine (makesAccess_loadX rd id).of_eq fun c => ?_
  have hd' : (s.setWatch c).dirFields level = some p := hd
  rw [execLddir, privileged_zero (s := s.setWatch c) hp, if_neg (by exact hh), hd']
  rfl

/-- LDPTE where rj holds no huge page entry (R841). -/
theorem makesAccess_ldpte (hp : s.plv = 0) {rj : Reg} (hh : ¬(s.x rj).getLsbD 6 = true) (seq : BitVec 8) :
    MakesAccess s (s.walkLoad (s.x rj + s.entryOffset (s.pteIndex (seq.getLsbD 0)))) (execLdpte rj seq) := by
  refine ⟨pteEffect (seq.getLsbD 0) ((bits s.csr.mmu.pwcl 0 5).setWidth 6), fun ps t c => ?_, fun c => ?_⟩
  · simp [pteEffect]
  · rw [execLdpte, privileged_zero (s := s.setWatch c) hp, if_neg (by exact hh)]
    rfl

end

end Sys2Proof.Machine
end

section
/-! SUPPORT. The access of each memory instruction, and what it does where the access raises, stops, or meets a
watchpoint (20_memory.md R215; 60_exceptions.md R876, R878). -/

namespace Sys2Proof.Machine

section
variable {s : State} {a : Access}

/-! ## What an access does, check by check -/

section
variable {k : List Phys → State → Out}

theorem access_exc {e : Exc} (he : s.checkAccess a = .exc e) : access s a k = .next (s.raise e) := by
  rw [access, he]; rfl

theorem access_stop {r : Stop} (hr : s.checkAccess a = .stop r) : access s a k = r.out := by
  rw [access, hr]; rfl

section
variable {ps : List Phys} (hps : s.checkAccess a = .ok ps) (hit : hitMask (s.mwpHits a) s.csr.watch.mwp ≠ 0)
include hps hit

/-- A watchpoint that matches raises WPEM with its Status bits set (13 R181, R185). -/
theorem access_hit (hskip : s.csr.watch.mwps.getLsbD 16 = false) :
    access s a k = .next ((s.setMwps (s.csr.watch.mwps ||| hitMask (s.mwpHits a) s.csr.watch.mwp)).raise
      (.wpem (debugOnlyHit (s.mwpHits a) s.csr.watch.mwp))) := by
  rw [access, hps, Res.run, State.watched, if_neg hit, hskip]; rfl

/-- With Skip set a watchpoint that matches lets the access pass, Skip cleared (13 R181). -/
theorem access_skip (hskip : s.csr.watch.mwps.getLsbD 16 = true) :
    access s a k = k ps (s.setMwps (withBit s.csr.watch.mwps 16 false)) := by
  rw [access, hps, Res.run, State.watched, if_neg hit, if_pos hskip]

end
end

/-! ## The access of an instruction -/

/-- Each instruction that makes an access, family by family of their shared operations. -/
theorem makesAccess_exec {i : Instr} (ha : s.accessOf i = some a) (hf : Feature.fp ∈ features i → FpOn s) :
    MakesAccess s a (exec i) := by
  cases i with
  | ldptrW | ldptrD | ldB | ldH | ldW | ldD | ldBu | ldHu | ldWu | ldxB | ldxH | ldxW | ldxD | ldxBu | ldxHu | ldxWu
  | ldgtB | ldgtH | ldgtW | ldgtD | ldleB | ldleH | ldleW | ldleD =>
    cases ha
    exact (makesAccess_loadX _ _).of_eq fun _ => rfl
  | stptrW rd | stptrD rd | stB rd | stH rd | stW rd | stD rd | stxB rd | stxH rd | stxW rd | stxD rd | stgtB rd
  | stgtH rd | stgtW rd | stgtD rd | stleB rd | stleH rd | stleW rd | stleD rd =>
    cases ha
    exact (makesAccess_storeX (s.x rd)).of_eq fun _ => rfl
  | amswapW rd rj | amswapD rd rj | amaddW rd rj | amaddD rd rj | amandW rd rj | amandD rd rj | amorW rd rj
  | amorD rd rj | amxorW rd rj | amxorD rd rj | ammaxW rd rj | ammaxD rd rj | amminW rd rj | amminD rd rj
  | ammaxWu rd rj | ammaxDu rd rj | amminWu rd rj | amminDu rd rj | amswapDbW rd rj | amswapDbD rd rj
  | amaddDbW rd rj | amaddDbD rd rj | amandDbW rd rj | amandDbD rd rj | amorDbW rd rj | amorDbD rd rj
  | amxorDbW rd rj | amxorDbD rd rj | ammaxDbW rd rj | ammaxDbD rd rj | amminDbW rd rj | amminDbD rd rj
  | ammaxDbWu rd rj | ammaxDbDu rd rj | amminDbWu rd rj | amminDbDu rd rj =>
    obtain ⟨hne, he⟩ := Option.ite_none_left_eq_some.1 ha
    cases he
    exact makesAccess_amoChecked hne _ _ _ _
  | amswapB | amswapH | amaddB | amaddH | amswapDbB | amswapDbH | amaddDbB | amaddDbH =>
    cases ha
    exact makesAccess_amo _ _ _ _ _ _
  | amcasB | amcasH | amcasW | amcasD | amcasDbB | amcasDbH | amcasDbW | amcasDbD =>
    cases ha
    exact makesAccess_amcas _ _ _ _ _ _
  | llW | llD | llacqW | llacqD =>
    cases ha
    exact (makesAccess_loadLinked _ _ _ _).of_eq fun _ => rfl
  | scW rd | scD rd | screlW rd | screlD rd =>
    cases ha
    exact (makesAccess_storeCond (watchFree_storeBytes (s.x rd)) rd).of_eq fun _ => rfl
  | scQ rd rj rk =>
    cases ha
    exact (makesAccess_storeCond (watchFree_storeQuad (s.x rd) (s.x rk)) rd).of_eq fun _ => rfl
  | fldS | fldxS | fldgtS | fldleS =>
    cases ha
    exact ((makesAccess_loadFS _).floating (hf List.mem_cons_self)).of_eq fun _ => rfl
  | fldD | fldxD | fldgtD | fldleD =>
    cases ha
    exact ((makesAccess_loadFD _).floating (hf List.mem_cons_self)).of_eq fun _ => rfl
  | fstS fd | fstD fd | fstxS fd | fstxD fd | fstgtS fd | fstgtD fd | fstleS fd | fstleD fd =>
    cases ha
    exact ((makesAccess_storeX (s.f fd)).floating (hf List.mem_cons_self)).of_eq fun _ => rfl
  | lddir rd rj level =>
    obtain ⟨hn, he⟩ := Option.ite_none_left_eq_some.1 ha
    obtain ⟨hp, hh⟩ := not_or.1 hn
    obtain ⟨p, hd, rfl⟩ := Option.map_eq_some_iff.1 he
    exact makesAccess_lddir (not_not.1 hp) hh rd hd
  | ldpte rj seq =>
    obtain ⟨hn, he⟩ := Option.ite_none_left_eq_some.1 ha
    obtain ⟨hp, hh⟩ := not_or.1 hn
    cases he
    exact makesAccess_ldpte (not_not.1 hp) hh seq
  | _ => cases ha

/-- With Skip set the instruction does what it does without watchpoints, and Skip is cleared (13 R181). -/
theorem MakesAccess.skips {o : State → Out} (h : MakesAccess s a o) {ps : List Phys} (hps : s.checkAccess a = .ok ps)
    (hit : hitMask (s.mwpHits a) s.csr.watch.mwp ≠ 0) (hskip : s.csr.watch.mwps.getLsbD 16 = true) :
    ∃ t, o s.unwatched = .next t ∧
      o s = .next (t.setWatch { s.csr.watch with mwps := withBit s.csr.watch.mwps 16 false }) := by
  obtain ⟨f, hf, ho⟩ := h
  have hfree : Accesses s.unwatched a ps := ⟨(s.checkAccess_setWatch _ a).trans hps, s.unwatched_unwatched a⟩
  refine ⟨f ps s.unwatched, (ho _).trans (access_ok hfree), ?_⟩
  have hs : o s = .next (f ps (s.setMwps (withBit s.csr.watch.mwps 16 false))) :=
    (ho s.csr.watch).trans (access_skip hps hit hskip)
  rw [hs, State.setMwps, State.unwatched, hf ps, hf ps, State.setWatch_setWatch]

end

/-- Settles O52: each instruction that makes an access does so by its checks, the watchpoint test, and one effect that
takes no notice of the watchpoint registers. -/
theorem accessExceptions : Obligations.AccessExceptions := by
  intro s i a ha hf
  have h := makesAccess_exec ha hf
  have ⟨_, _, ho⟩ := h
  have hs := ho s.csr.watch
  exact ⟨fun _ he => hs.trans (access_exc he), fun _ hr => hs.trans (access_stop hr),
    fun _ hps hit => ⟨fun hskip => hs.trans (access_hit hps hit hskip), h.skips hps hit⟩⟩

end Sys2Proof.Machine
end

section
/-! SUPPORT. Address translation in numbers: direct mode, direct mapping windows, the entries that a lookup matches, and
the physical address of a page (21_address_translation.md R254, R255, R262 to R267). -/

namespace Sys2Proof.Machine

/-! ## Direct mode (R254) -/

/-- The low bits of an address as a number. -/
theorem toNat_bits_zero (va : Word) (n : Nat) : (bits va 0 n).toNat = va.toNat % 2 ^ n := by
  rw [bits, BitVec.extractLsb'_toNat, Nat.shiftRight_zero]

theorem physOf_eq (va : Word) : physOf va = va.toNat % 2 ^ 48 := toNat_bits_zero va 48

/-- A memory access type that has a behaviour passes an address on (20_memory.md R206). -/
theorem checkMat_of_ne {p : Phys} (h : p.mat ≠ 3) : checkMat p = .ok p := if_neg h

section
variable {s : State}

/-- Direct mode translates each address to its low bits, at the memory access type of CRMD. -/
theorem State.translate_direct {k : AccKind} (hs : s.modeStop = none) (hd : s.da = true) (hm : s.directMat k ≠ 3)
    (first va : Word) : s.translate k first va = .ok ⟨va.toNat % 2 ^ 48, s.directMat k⟩ := by
  rw [State.translate, hs, ← physOf_eq]
  exact (if_pos hd).trans (checkMat_of_ne hm)

/-- In direct mode every address is legal (R251). -/
theorem State.legal_direct (hd : s.da = true) (k : AccKind) (va : Word) : s.legal k va = true := by
  rw [State.legal, hd, Bool.true_or, Bool.true_or]

end

/-- Settles O17: every byte is legal and translates, at one memory access type. -/
theorem directModeAccess : Obligations.DirectModeAccess := by
  intro s a hd hp hr hm ha hb hu
  have hs : s.modeStop = none := State.modeStop_eq_none (by rw [hd, hp]; exact Bool.noConfusion) hr
  have hl : BytesLegal s a := fun _ _ => State.legal_direct hd _ _
  have hok := State.checkAccess_translated hs ha hl hb fun n _ => State.translate_direct hs hd hm a.va _
  rw [if_pos ((sameMat_map_range _ _).2 fun _ _ => rfl)] at hok
  exact ⟨hok, hu⟩

/-! ## Direct mapping windows (R255) -/

section
variable {s : State} {k : AccKind} {va : Word}

theorem State.windowHits_iff {w : Word} :
    s.windowHits va w = true ↔ bits w 60 4 = bits va 60 4 ∧ w.getLsbD s.plv.toNat = true := by
  rw [State.windowHits, Bool.and_eq_true, beq_iff_eq, eq_comm]

/-- A window that hits, of which no lower-numbered one does, is the one taken (D7; log 49). -/
theorem State.window_eq_some {w : Word} {n : Nat} (hw : (s.windows k)[n]? = some w) (hit : s.windowHits va w = true)
    (hlow : ∀ m u, m < n → (s.windows k)[m]? = some u → s.windowHits va u ≠ true) : s.window k va = some w := by
  obtain ⟨hn, hw⟩ := List.getElem?_eq_some_iff.1 hw
  refine List.find?_eq_some_iff_getElem.2 ⟨hit, n, hn, hw, fun m hm => ?_⟩
  rw [Bool.not_eq_true', ← Bool.not_eq_true]
  exact hlow m _ hm (List.getElem?_eq_getElem _)

section
variable (hs : s.modeStop = none) (hd : s.da = false) (first : Word)
include hs hd

/-- A window translates an address to its low bits, at the memory access type of the window. -/
theorem State.translate_window {w : Word} (hw : s.window k va = some w) (hm : bits w 4 2 ≠ 3) :
    s.translate k first va = .ok ⟨va.toNat % 2 ^ 48, bits w 4 2⟩ := by
  rw [State.translate, hs, hd, hw, ← physOf_eq]
  exact checkMat_of_ne hm

/-- An address that no window maps goes through the TLB. -/
theorem State.translate_mapped (hw : s.window k va = none) : s.translate k first va = s.translatePage k first va := by
  rw [State.translate, hs, hd, hw]; rfl

end
end

/-! ## Lookups (R262, R263) -/

/-- A number of a page or of a page pair with the bits below it 0. -/
theorem toNat_append_zero {m : Nat} (x : BitVec m) (n : Nat) : (x ++ 0#n).toNat = x.toNat * 2 ^ n := by
  rw [BitVec.toNat_append, BitVec.toNat_ofNat, Nat.zero_mod, Nat.or_zero, Nat.shiftLeft_eq]

/-- The comparison of page numbers, on numbers: the address and the page pair's address agree above bit `ps`. -/
theorem vaMatch_eq (vppn : BitVec Config.vppnBits) (ps : Nat) (va : Word) :
    vaMatch vppn ps va = decide (vppn.toNat * 2 ^ 13 / 2 ^ (ps + 1) = va.toNat % 2 ^ 48 / 2 ^ (ps + 1)) := by
  have hva : (bits va 0 (35 + 13)).toNat = va.toNat % 2 ^ 48 := toNat_bits_zero va 48
  rw [Bool.eq_iff_iff, vaMatch, beq_iff_eq, decide_eq_true_iff, BitVec.toNat_eq, BitVec.toNat_ushiftRight,
    BitVec.toNat_ushiftRight, toNat_append_zero, hva, Nat.shiftRight_eq_div_pow, Nat.shiftRight_eq_div_pow]

section
variable {s : State}

/-- The entries that a lookup finds are those that the statements speak of. -/
theorem State.filter_tlbMatches (va : Word) :
    s.tlb.filter (s.tlbMatches s.asid va) = s.hitsOf (va.toNat % 2 ^ 48) := by
  refine List.filter_congr fun e _ => ?_
  rw [State.tlbMatches, vaMatch_eq]; rfl

theorem State.tlbSizesBad_eq_false_iff : s.tlbSizesBad = false ↔ SizesOk s := by
  simp only [State.tlbSizesBad, State.stlbPsBad, SizesOk, Bool.or_eq_false_iff, List.any_eq_false, Bool.not_eq_true',
    Bool.not_eq_false', Bool.not_eq_false]

/-- A lookup under an unsupported page size stops (log 44). -/
theorem State.tlbFind_of_not_sizesOk (h : ¬SizesOk s) (va : Word) :
    s.tlbFind va = .stop (.refuse .pageSizeUnsupported) := by
  rw [← State.tlbSizesBad_eq_false_iff, Bool.not_eq_false] at h
  exact if_pos h

section
variable (hz : SizesOk s) {va : Word}
include hz

/-- Under supported page sizes the number of entries that match decides (R263). -/
theorem State.tlbFind_of_no_hit (h : s.hitsOf (va.toNat % 2 ^ 48) = []) : s.tlbFind va = .ok none := by
  rw [State.tlbFind, State.tlbSizesBad_eq_false_iff.2 hz, State.filter_tlbMatches, h]; rfl

theorem State.tlbFind_of_hit {e : Nat × TlbEntry} (h : s.hitsOf (va.toNat % 2 ^ 48) = [e]) :
    s.tlbFind va = .ok (some e) := by
  rw [State.tlbFind, State.tlbSizesBad_eq_false_iff.2 hz, State.filter_tlbMatches, h]; rfl

theorem State.tlbFind_of_hits (h : 2 ≤ (s.hitsOf (va.toNat % 2 ^ 48)).length) :
    s.tlbFind va = .stop (.fault .multipleTlbHits) := by
  rw [State.tlbFind, State.tlbSizesBad_eq_false_iff.2 hz, State.filter_tlbMatches]
  match s.hitsOf (va.toNat % 2 ^ 48), h with
  | _ :: _ :: _, _ => rfl

end

/-- An entry that matches has a supported page size where each listed one has. -/
theorem State.pageSizeOk_of_mem_hitsOf (h : SizesOk s) {va : Nat} {e : Nat × TlbEntry} (he : e ∈ s.hitsOf va) :
    pageSizeOk (s.entryPs e) = true := h.2 e (List.mem_of_mem_filter he)

end

/-- PRCFG2 supports no page as large as the physical space (11_csr_basic.md R87). -/
theorem lt_of_pageSizeOk {n : Nat} (h : pageSizeOk n = true) : n < 48 := by
  by_contra hn
  have hlt : Config.prcfg2.toNat < 2 ^ n := Nat.lt_of_lt_of_le (by decide) (Nat.pow_le_pow_right two_pos (not_lt.1 hn))
  exact Bool.false_ne_true ((Nat.testBit_lt_two_pow hlt).symm.trans h)

/-! ## The page and its checks (R265 to R267) -/

/-- Bit `n` of the address selects the page of the pair (R265). -/
theorem pageOf_eq (e : TlbEntry) (n : Nat) (va : Word) :
    pageOf e n va = if va.toNat / 2 ^ n % 2 = 1 then e.page1 else e.page0 := by
  simp only [pageOf, BitVec.getLsbD, Nat.testBit_eq_decide_div_mod_eq, decide_eq_true_eq]

/-- The mask of the low `n` bits. -/
theorem toNat_lowMask {w n : Nat} (hn : n < w) : (((1 <<< n : Nat) : BitVec w) - 1).toNat = 2 ^ n - 1 := by
  have hlt : 2 ^ n < 2 ^ w := Nat.pow_lt_pow_right (by decide) hn
  rw [Nat.one_shiftLeft, BitVec.natCast_eq_ofNat, BitVec.ofNat_eq_ofNat,
    BitVec.ofNat_sub_ofNat_of_le _ _ (Nat.one_lt_two_pow (Nat.ne_zero_of_lt hn)) (Nat.two_pow_pos n),
    BitVec.toNat_ofNat, Nat.mod_eq_of_lt ((Nat.sub_le _ _).trans_lt hlt)]

/-- Clearing the low `n` bits rounds down to a multiple of `2 ^ n`. -/
theorem toNat_shiftRight_shiftLeft {w : Nat} (x : BitVec w) (n : Nat) :
    ((x >>> n) <<< n).toNat = (x.toNat / 2 ^ n) <<< n := by
  rw [BitVec.toNat_shiftLeft, BitVec.toNat_ushiftRight, Nat.shiftRight_eq_div_pow, Nat.shiftLeft_eq]
  exact Nat.mod_eq_of_lt ((Nat.div_mul_le_self _ _).trans_lt x.isLt)

/-- The physical address of a page of a supported size: the page's base and the offset in it (R267). -/
theorem pagePhys_eq (p : TlbPage) {n : Nat} (hn : n < 48) (va : Word) :
    pagePhys p n va = p.ppn.toNat * 2 ^ 12 / 2 ^ n * 2 ^ n + va.toNat % 2 ^ n := by
  have hva : BitVec.toNat (w := 36 + 12) (bits va 0 Config.palen) = va.toNat % 2 ^ 48 := toNat_bits_zero va 48
  have hoff : va.toNat % 2 ^ 48 % 2 ^ n = va.toNat % 2 ^ n := Nat.mod_mod_of_dvd _ (Nat.pow_dvd_pow 2 hn.le)
  rw [pagePhys, BitVec.toNat_or, toNat_shiftRight_shiftLeft, toNat_append_zero, BitVec.toNat_and, toNat_lowMask hn,
    hva, Nat.and_two_pow_sub_one_eq_mod, hoff, ← Nat.shiftLeft_add_eq_or_of_lt (Nat.mod_lt _ (Nat.two_pow_pos n)),
    Nat.shiftLeft_eq]

/-- The page is for the one level that it names where RPLV is 1, and else for that level and those above it. -/
theorem plvIllegal_iff {plv : BitVec 2} {p : TlbPage} :
    plvIllegal plv p = true ↔ (p.rplv = true ∧ plv ≠ p.plv) ∨ (p.rplv = false ∧ p.plv < plv) := by
  cases h : p.rplv <;> simp [plvIllegal, h]

theorem State.writeProtected_iff {s : State} {p : TlbPage} :
    s.writeProtected p = true ↔
      p.d = false ∧ (s.plv = 3 ∨ s.csr.basic.misc.getLsbD (16 + s.plv.toNat) = false) := by
  simp only [State.writeProtected, Bool.and_eq_true, Bool.or_eq_true, Bool.not_eq_true', beq_iff_eq]

section
variable {s : State} {va : Word} (hz : SizesOk s) (k : AccKind) (first : Word)

theorem State.translatePage_of_not_sizesOk (h : ¬SizesOk s) :
    s.translatePage k first va = .stop (.refuse .pageSizeUnsupported) := by
  rw [State.translatePage, State.tlbFind_of_not_sizesOk h]; rfl

include hz

/-- No entry matches: TLB refill, of the address itself (D47; log 40). -/
theorem State.translatePage_of_no_hit (h : s.hitsOf (va.toNat % 2 ^ 48) = []) :
    s.translatePage k first va = .exc (.tlbr va) := by
  rw [State.translatePage, State.tlbFind_of_no_hit hz h]; rfl

theorem State.translatePage_of_hits (h : 2 ≤ (s.hitsOf (va.toNat % 2 ^ 48)).length) :
    s.translatePage k first va = .stop (.fault .multipleTlbHits) := by
  rw [State.translatePage, State.tlbFind_of_hits hz h]; rfl

/-- One entry matches: the checks of its page decide, and the page maps the address (R265 to R267). -/
theorem State.translatePage_of_hit {e : Nat × TlbEntry} {p : TlbPage} (h : s.hitsOf (va.toNat % 2 ^ 48) = [e])
    (hp : p = if va.toNat / 2 ^ s.entryPs e % 2 = 1 then e.2.page1 else e.2.page0) :
    s.translatePage k first va = ((s.pageFault k first p).elim
      (checkMat ⟨p.ppn.toNat * 2 ^ 12 / 2 ^ s.entryPs e * 2 ^ s.entryPs e + va.toNat % 2 ^ s.entryPs e, p.mat⟩) .exc) := by
  have hn : s.entryPs e < 48 := lt_of_pageSizeOk (State.pageSizeOk_of_mem_hitsOf hz (h ▸ List.mem_singleton_self e))
  rw [State.translatePage, State.tlbFind_of_hit hz h, hp, ← pageOf_eq, ← pagePhys_eq _ hn]
  simp only [Res.bind]
  cases s.pageFault k first (pageOf e.2 (s.entryPs e) va) <;> rfl

end

/-- Settles O46: the window taken, else the number of entries that match, and of one entry the checks of its page. -/
theorem translation : Obligations.Translation := by
  intro s k first va hd hp hr
  have hs : s.modeStop = none := State.modeStop_eq_none (by rw [hd, hp]; exact Bool.noConfusion) hr
  refine ⟨fun w n hw hv hl hlow hm => ?_, fun hno => ?_⟩
  · refine State.translate_window hs hd first (State.window_eq_some hw (State.windowHits_iff.2 ⟨hv, hl⟩) ?_) hm
    intro m u hmn hu hit
    obtain ⟨hv', hl'⟩ := State.windowHits_iff.1 hit
    exact Bool.false_ne_true ((hlow m u hmn hu hv').symm.trans hl')
  · have hw : s.window k va = none := List.find?_eq_none.2 fun w hmem hit => by
      obtain ⟨hv, hl⟩ := State.windowHits_iff.1 hit
      exact Bool.false_ne_true ((hno w hmem hv).symm.trans hl)
    rw [State.translate_mapped hs hd first hw]
    refine ⟨State.translatePage_of_not_sizesOk k first, fun hz => State.translatePage_of_no_hit hz k first,
      fun hz => State.translatePage_of_hits hz k first, ?_⟩
    rintro e n p hz h rfl hpage
    rw [State.translatePage_of_hit hz k first h hpage]
    simp only [State.pageFault, plvIllegal_iff, State.writeProtected_iff, Bool.not_eq_true', checkMat]
    split_ifs <;> rfl

end Sys2Proof.Machine
end

section
/-! SUPPORT. Decoding gives every well-formed instruction back (30_encoding.md R302 to R315, R320): the opcode table's row
of each is apart from the others, but for CSRXCHG's, which takes in the words of CSRRD and CSRWR (R311). -/

namespace Sys2Proof.Laws

/-! ## CSRXCHG and the two rows before it that it takes in (30_encoding.md R311) -/

/-- CSRXCHG with rj = 0, an instruction of its own. -/
def csrrdRow : Row := ⟨0xff0003e0#32, 0x04000000#32, fun w => .csrrd (fld w 0 5) (fld w 10 14)⟩
/-- CSRXCHG with rj = 1, an instruction of its own. -/
def csrwrRow : Row := ⟨0xff0003e0#32, 0x04000020#32, fun w => .csrwr (fld w 0 5) (fld w 10 14)⟩
/-- The row whose pattern is `xchgKey`. -/
def csrxchgRow : Row := ⟨0xff000000#32, 0x04000000#32, fun w => .csrxchg (fld w 0 5) (fld w 5 5) (fld w 10 14)⟩

/-- Some word may match both the row and CSRXCHG's. -/
def meetsCsrxchg (r : Row) : Bool := !keysClash r.key xchgKey

/-- The rows that take words from CSRXCHG's pattern: CSRRD's and CSRWR's, which come before its own. -/
theorem filter_meetsCsrxchg : opcodeRows.filter meetsCsrxchg = [csrrdRow, csrwrRow, csrxchgRow] := by
  have h1 : rows1.filter meetsCsrxchg = [] := rfl
  have h2 : rows2.filter meetsCsrxchg = [] := rfl
  have h3 : rows3.filter meetsCsrxchg = [] := rfl
  have h4 : rows4.filter meetsCsrxchg = [csrrdRow, csrwrRow, csrxchgRow] := rfl
  have h5 : rows5.filter meetsCsrxchg = [] := rfl
  have h6 : rows6.filter meetsCsrxchg = [] := rfl
  have h7 : rows7.filter meetsCsrxchg = [] := rfl
  have h8 : rows8.filter meetsCsrxchg = [] := rfl
  simp only [opcodeRows, List.filter_append, h1, h2, h3, h4, h5, h6, h7, h8, List.nil_append, List.append_nil]

/-- CSRXCHG's pattern is that of one row. -/
theorem eq_csrxchgRow {r : Row} (hr : r ∈ opcodeRows) (hx : r.key = xchgKey) : r = csrxchgRow := by
  have hm : r ∈ opcodeRows.filter meetsCsrxchg := List.mem_filter.2 ⟨hr, by rw [meetsCsrxchg, hx]; rfl⟩
  rw [filter_meetsCsrxchg] at hm
  simp only [List.mem_cons, List.not_mem_nil, or_false] at hm
  obtain rfl | rfl | rfl := hm
  · exact absurd hx (by decide)
  · exact absurd hx (by decide)
  · rfl

/-- A row that shares a word with CSRXCHG's meets it. -/
theorem meetsCsrxchg_of_hits {r : Row} {w : BitVec 32} (hw : csrxchgRow.hits w = true) (hr : r.hits w = true) :
    meetsCsrxchg r = true := by
  cases hc : keysClash r.key xchgKey with
  | false => rw [meetsCsrxchg, hc]; rfl
  | true => exact absurd (hw.symm.trans (keysClash_hits (q := csrxchgRow) hc hr)) Bool.noConfusion

/-- A word of CSRXCHG's pattern is the instruction of the first of the three rows that it matches. -/
theorem decode_of_hits_csrxchg {w : BitVec 32} (hw : csrxchgRow.hits w = true) :
    decode w = ([csrrdRow, csrwrRow, csrxchgRow].find? (·.hits w)).map (·.build w) := by
  have hp : (fun r : Row => decide (meetsCsrxchg r = true ∧ r.hits w = true)) = fun r => r.hits w := by
    funext r
    rw [Bool.decide_and, Bool.decide_eq_true, Bool.decide_eq_true, Bool.and_eq_right_iff_imp]
    exact meetsCsrxchg_of_hits hw
  rw [decode, ← filter_meetsCsrxchg, List.find?_filter, hp]

/-- The field rj of a word that matches the row of CSRRD or CSRWR is that of the row's pattern. -/
theorem rj_of_hits {r : Row} {w : BitVec 32} (hm : fld r.mask 5 5 = BitVec.allOnes 5) (h : r.hits w = true) :
    fld w 5 5 = fld r.bits 5 5 := by
  have hb : fld (w &&& r.mask) 5 5 = fld r.bits 5 5 := congrArg (fld · 5 5) (beq_iff_eq.1 h)
  rwa [fld, BitVec.extractLsb'_and, ← fld, ← fld, hm, BitVec.and_allOnes] at hb

theorem csrMaskOk_iff {rj : Reg} : csrMaskOk rj = true ↔ rj ≠ 0 ∧ rj ≠ 1 := by
  rw [csrMaskOk, Bool.and_eq_true, bne_iff_ne, bne_iff_ne]

/-- A word of CSRXCHG's pattern whose rj is neither 0 nor 1 is a CSRXCHG. -/
theorem decode_csrxchg {w : BitVec 32} (hw : csrxchgRow.hits w = true) (hj : csrMaskOk (fld w 5 5) = true) :
    decode w = some (csrxchgRow.build w) := by
  obtain ⟨h0, h1⟩ := csrMaskOk_iff.1 hj
  have hrd : csrrdRow.hits w = false := Bool.eq_false_iff.2 fun h => h0 (rj_of_hits rfl h)
  have hwr : csrwrRow.hits w = false := Bool.eq_false_iff.2 fun h => h1 (rj_of_hits rfl h)
  rw [decode_of_hits_csrxchg hw, List.find?_cons, hrd, List.find?_cons, hwr, List.find?_cons, hw]
  rfl

/-! ## Every instruction -/

/-- The word of each instruction matches a row of the opcode table, which reads back every operand. -/
theorem layout_statement (i : Instr) : Layout.Statement i :=
  i.casesOn (motive := Layout.Statement)
    Layout.cloW Layout.clzW Layout.ctoW Layout.ctzW Layout.cloD Layout.clzD Layout.ctoD Layout.ctzD Layout.revb2H
    Layout.revb4H Layout.revb2W Layout.revbD Layout.revh2W Layout.revhD Layout.bitrev4B Layout.bitrev8B Layout.bitrevW
    Layout.bitrevD Layout.extWH Layout.extWB Layout.rdtimelW Layout.rdtimehW Layout.rdtimeD Layout.cpucfg
    Layout.asrtleD Layout.asrtgtD Layout.alslW Layout.alslWu Layout.bytepickW Layout.bytepickD Layout.addW Layout.addD
    Layout.subW Layout.subD Layout.slt Layout.sltu Layout.maskeqz Layout.masknez Layout.nor Layout.and Layout.or
    Layout.xor Layout.orn Layout.andn Layout.sllW Layout.srlW Layout.sraW Layout.sllD Layout.srlD Layout.sraD
    Layout.rotrW Layout.rotrD Layout.mulW Layout.mulhW Layout.mulhWu Layout.mulD Layout.mulhD Layout.mulhDu
    Layout.mulwDW Layout.mulwDWu Layout.divW Layout.modW Layout.divWu Layout.modWu Layout.divD Layout.modD
    Layout.divDu Layout.modDu Layout.crcWBW Layout.crcWHW Layout.crcWWW Layout.crcWDW Layout.crccWBW Layout.crccWHW
    Layout.crccWWW Layout.crccWDW Layout.brk Layout.dbcl Layout.syscall Layout.alslD Layout.slliW Layout.slliD
    Layout.srliW Layout.srliD Layout.sraiW Layout.sraiD Layout.rotriW Layout.rotriD Layout.bstrinsW Layout.bstrpickW
    Layout.bstrinsD Layout.bstrpickD Layout.faddS Layout.faddD Layout.fsubS Layout.fsubD Layout.fmulS Layout.fmulD
    Layout.fdivS Layout.fdivD Layout.fmaxS Layout.fmaxD Layout.fminS Layout.fminD Layout.fmaxaS Layout.fmaxaD
    Layout.fminaS Layout.fminaD Layout.fscalebS Layout.fscalebD Layout.fcopysignS Layout.fcopysignD Layout.fabsS
    Layout.fabsD Layout.fnegS Layout.fnegD Layout.flogbS Layout.flogbD Layout.fclassS Layout.fclassD Layout.fsqrtS
    Layout.fsqrtD Layout.frecipS Layout.frecipD Layout.frsqrtS Layout.frsqrtD Layout.frecipeS Layout.frecipeD
    Layout.frsqrteS Layout.frsqrteD Layout.fmovS Layout.fmovD Layout.movgr2frW Layout.movgr2frD Layout.movgr2frhW
    Layout.movfr2grS Layout.movfr2grD Layout.movfrh2grS Layout.movgr2fcsr Layout.movfcsr2gr Layout.movfr2cf
    Layout.movcf2fr Layout.movgr2cf Layout.movcf2gr Layout.fcvtSD Layout.fcvtDS Layout.ftintrmWS Layout.ftintrmWD
    Layout.ftintrmLS Layout.ftintrmLD Layout.ftintrpWS Layout.ftintrpWD Layout.ftintrpLS Layout.ftintrpLD
    Layout.ftintrzWS Layout.ftintrzWD Layout.ftintrzLS Layout.ftintrzLD Layout.ftintrneWS Layout.ftintrneWD
    Layout.ftintrneLS Layout.ftintrneLD Layout.ftintWS Layout.ftintWD Layout.ftintLS Layout.ftintLD Layout.ffintSW
    Layout.ffintSL Layout.ffintDW Layout.ffintDL Layout.frintS Layout.frintD Layout.slti Layout.sltui Layout.addiW
    Layout.addiD Layout.lu52iD Layout.andi Layout.ori Layout.xori Layout.csrrd Layout.csrwr Layout.csrxchg
    Layout.cacop Layout.lddir Layout.ldpte Layout.iocsrrdB Layout.iocsrrdH Layout.iocsrrdW Layout.iocsrrdD
    Layout.iocsrwrB Layout.iocsrwrH Layout.iocsrwrW Layout.iocsrwrD Layout.tlbclr Layout.tlbflush Layout.tlbsrch
    Layout.tlbrd Layout.tlbwr Layout.tlbfill Layout.ertn Layout.idle Layout.invtlb Layout.fmaddS Layout.fmaddD
    Layout.fmsubS Layout.fmsubD Layout.fnmaddS Layout.fnmaddD Layout.fnmsubS Layout.fnmsubD Layout.fcmpCafS
    Layout.fcmpSafS Layout.fcmpCltS Layout.fcmpSltS Layout.fcmpCeqS Layout.fcmpSeqS Layout.fcmpCleS Layout.fcmpSleS
    Layout.fcmpCunS Layout.fcmpSunS Layout.fcmpCultS Layout.fcmpSultS Layout.fcmpCueqS Layout.fcmpSueqS
    Layout.fcmpCuleS Layout.fcmpSuleS Layout.fcmpCneS Layout.fcmpSneS Layout.fcmpCorS Layout.fcmpSorS Layout.fcmpCuneS
    Layout.fcmpSuneS Layout.fcmpCafD Layout.fcmpSafD Layout.fcmpCltD Layout.fcmpSltD Layout.fcmpCeqD Layout.fcmpSeqD
    Layout.fcmpCleD Layout.fcmpSleD Layout.fcmpCunD Layout.fcmpSunD Layout.fcmpCultD Layout.fcmpSultD Layout.fcmpCueqD
    Layout.fcmpSueqD Layout.fcmpCuleD Layout.fcmpSuleD Layout.fcmpCneD Layout.fcmpSneD Layout.fcmpCorD Layout.fcmpSorD
    Layout.fcmpCuneD Layout.fcmpSuneD Layout.fsel Layout.addu16iD Layout.lu12iW Layout.lu32iD Layout.pcaddi
    Layout.pcalau12i Layout.pcaddu12i Layout.pcaddu18i Layout.llW Layout.scW Layout.llD Layout.scD Layout.ldptrW
    Layout.stptrW Layout.ldptrD Layout.stptrD Layout.ldB Layout.ldH Layout.ldW Layout.ldD Layout.stB Layout.stH
    Layout.stW Layout.stD Layout.ldBu Layout.ldHu Layout.ldWu Layout.preld Layout.fldS Layout.fstS Layout.fldD
    Layout.fstD Layout.ldxB Layout.ldxH Layout.ldxW Layout.ldxD Layout.stxB Layout.stxH Layout.stxW Layout.stxD
    Layout.ldxBu Layout.ldxHu Layout.ldxWu Layout.preldx Layout.fldxS Layout.fldxD Layout.fstxS Layout.fstxD
    Layout.scQ Layout.llacqW Layout.screlW Layout.llacqD Layout.screlD Layout.amcasB Layout.amcasH Layout.amcasW
    Layout.amcasD Layout.amcasDbB Layout.amcasDbH Layout.amcasDbW Layout.amcasDbD Layout.amswapB Layout.amswapH
    Layout.amaddB Layout.amaddH Layout.amswapDbB Layout.amswapDbH Layout.amaddDbB Layout.amaddDbH Layout.amswapW
    Layout.amswapD Layout.amaddW Layout.amaddD Layout.amandW Layout.amandD Layout.amorW Layout.amorD Layout.amxorW
    Layout.amxorD Layout.ammaxW Layout.ammaxD Layout.amminW Layout.amminD Layout.ammaxWu Layout.ammaxDu Layout.amminWu
    Layout.amminDu Layout.amswapDbW Layout.amswapDbD Layout.amaddDbW Layout.amaddDbD Layout.amandDbW Layout.amandDbD
    Layout.amorDbW Layout.amorDbD Layout.amxorDbW Layout.amxorDbD Layout.ammaxDbW Layout.ammaxDbD Layout.amminDbW
    Layout.amminDbD Layout.ammaxDbWu Layout.ammaxDbDu Layout.amminDbWu Layout.amminDbDu Layout.dbar Layout.ibar
    Layout.fldgtS Layout.fldgtD Layout.fldleS Layout.fldleD Layout.fstgtS Layout.fstgtD Layout.fstleS Layout.fstleD
    Layout.ldgtB Layout.ldgtH Layout.ldgtW Layout.ldgtD Layout.ldleB Layout.ldleH Layout.ldleW Layout.ldleD
    Layout.stgtB Layout.stgtH Layout.stgtW Layout.stgtD Layout.stleB Layout.stleH Layout.stleW Layout.stleD
    Layout.beqz Layout.bnez Layout.bceqz Layout.bcnez Layout.jirl Layout.b Layout.bl Layout.beq Layout.bne Layout.blt
    Layout.bge Layout.bltu Layout.bgeu

/-- Settles O56: the row that an instruction's word matches decides, CSRXCHG's where rj is neither 0 nor 1. -/
theorem decodeEncode : Obligations.DecodeEncode := by
  intro i hi
  obtain ⟨k, r, hr, hw, hb⟩ := layout_statement i hi
  by_cases hx : r.key = xchgKey
  · obtain rfl := eq_csrxchgRow (List.mem_of_getElem? hr) hx
    rw [decode_csrxchg hw, hb]
    exact (congrArg Instr.wf hb).trans hi
  · rw [decode_row hr hx hw, hb]

/-- A well-formed instruction is what its word decodes to. -/
theorem decode_of_encode_eq {w : BitVec 32} {i : Instr} (h : i.wf = true ∧ encode i = w) : decode w = some i :=
  h.2 ▸ decodeEncode i h.1

/-- Settles O57: each word is that of its instruction, which is well formed. -/
theorem decodeWords : Obligations.DecodeWords := fun p hp => decode_of_encode_eq (by revert p; decide)

end Sys2Proof.Laws
end

section
/-! SUPPORT. The fetch, one stage after the other, and the instruction whose word it leaves in `ir` (20_memory.md R210,
60_exceptions.md R878; 30_encoding.md R320, R321). -/

namespace Sys2Proof.Machine

/-! ## The word of a fetch (20_memory.md R205, R221) -/

/-- The present byte is the first of those that a fetch may see. -/
theorem State.fetchByte_zero (s : State) (a : Nat) : s.fetchByte 0 a = s.byteAt a := by
  rw [State.fetchByte, Nat.zero_mod]; rfl

/-- A byte below a word that is shifted up by one byte. -/
theorem shiftLeft_or_byte (n : Nat) (b : Byte) :
    BitVec.ofNat 32 n <<< 8 ||| b.setWidth 32 = BitVec.ofNat 32 (b.toNat + 256 * n) := by
  have hb : b.toNat < 2 ^ 8 := b.isLt
  have hor : n <<< 8 ||| b.toNat = b.toNat + 256 * n := by
    rw [← Nat.shiftLeft_add_eq_or_of_lt hb, Nat.shiftLeft_eq]; omega
  have hshift : BitVec.ofNat 32 n <<< 8 = BitVec.ofNat 32 (n <<< 8) := BitVec.eq_of_toNat_eq (by
    rw [BitVec.toNat_shiftLeft, BitVec.toNat_ofNat, BitVec.toNat_ofNat, Nat.shiftLeft_eq, Nat.shiftLeft_eq,
      Nat.mod_mul_mod])
  rw [← hor, BitVec.ofNat_or, hshift, BitVec.ofNat_toNat]

/-- Of present bytes alone, a fetch sees the number that they make. -/
theorem State.fetchBytes_zero (s : State) (as : List Nat) :
    s.fetchBytes 0 as = BitVec.ofNat 32 (s.valueAt as) := by
  induction as with
  | nil => rfl
  | cons a as ih => rw [State.fetchBytes, Nat.zero_div, ih, State.fetchByte_zero, shiftLeft_or_byte, State.valueAt]

/-- Where no byte has an earlier value, the fetch draws nothing, and its word is in memory. -/
theorem State.fetched_of_not_open {s : State} {as : List Nat} (h : s.fetchOpen as = false) :
    s.fetched as = { s with ir := BitVec.ofNat 32 (s.valueAt as) } := by
  rw [State.fetched, State.fetchWord, h, ← State.fetchBytes_zero]; rfl

/-! ## The instruction of a word (30_encoding.md R320, R321) -/

/-- The reference configuration has every optional subset (D1). -/
theorem Feature.present_eq_true (f : Feature) : f.present = true := by cases f <;> rfl

theorem implemented_eq_true (i : Instr) : implemented i = true :=
  List.all_eq_true.2 fun f _ => Feature.present_eq_true f

theorem State.runWord_of_decode {s : State} {i : Instr} (h : decode s.ir = some i) : s.runWord = exec i s := by
  rw [State.runWord, h]
  exact if_pos (implemented_eq_true i)

theorem State.runWord_of_undefined {s : State} (h : decode s.ir = none) : s.runWord = .next (s.raise .ine) := by
  rw [State.runWord, h]

/-! ## The stages of the fetch (60_exceptions.md R878) -/

/-- A step that nothing keeps from the fetch is the fetch and the instruction. -/
theorem step_of_fetches {s : State} (h : Fetches s.takeInput) : step s = s.takeInput.fetch State.runWord := by
  obtain ⟨hwait, hmode, hint⟩ := h
  have hs : { s.takeInput with waiting := false } = s.takeInput := by rw [← hwait]
  have hrun : s.takeInput.runOrWait = s.takeInput.runNext := by rw [State.runOrWait, hs, hwait]; rfl
  rw [step, State.cycle, hmode]
  exact hrun.trans (by rw [State.runNext, hint])

section
variable {s u : State} (k : State → Out)

/-- A fetch watchpoint that matches with Skip clear stops the fetch before anything else (13 R187, R191). -/
theorem State.fetch_watched (hit : hitMask s.fwpHits s.csr.watch.fwp ≠ 0) (hskip : s.csr.watch.fwps.getLsbD 16 = false) :
    s.fetch k = .next ((s.setFwps (s.csr.watch.fwps ||| hitMask s.fwpHits s.csr.watch.fwp)).noWord.raise
      (.wpef (debugOnlyHit s.fwpHits s.csr.watch.fwp))) := by
  rw [State.fetch, State.fetchWatched, if_neg hit, hskip]; rfl

/-- Past the fetch watchpoints the address is checked and translated. -/
theorem State.fetch_of_passes (h : FetchPasses s u) :
    s.fetch k = u.fetchPhys.run u.noWord fun ps => (u.fetched (physAddrs ps)).afterFetch k := by
  obtain ⟨hno, rfl⟩ | ⟨hit, hskip, rfl⟩ := h
  · rw [State.fetch, State.fetchWatched, if_pos hno]
  · rw [State.fetch, State.fetchWatched, if_neg hit, hskip]; rfl

/-- Skip leaves the address of the fetch alone. -/
theorem FetchPasses.fetchVa_eq (h : FetchPasses s u) : u.fetchVa = s.effVa s.pc := by
  obtain ⟨-, rfl⟩ | ⟨-, -, rfl⟩ := h <;> rfl

section
variable (h : FetchPasses s u)
include h

/-- A misaligned or illegal address raises ADEF (R210, R251). -/
theorem State.fetch_adef (hbad : u.fetchVa.toNat % 4 ≠ 0 ∨ u.legal .fetch u.fetchVa = false) :
    s.fetch k = .next (u.noWord.raise (.adef u.fetchVa)) := by
  rw [State.fetch_of_passes k h, State.fetchPhys, if_pos (by rwa [Bool.not_eq_true'])]; rfl

variable (ha : u.fetchVa.toNat % 4 = 0) (hl : u.legal .fetch u.fetchVa = true)
include ha hl

/-- An aligned, legal address translates byte by byte (R254). -/
theorem State.fetch_legal :
    s.fetch k = (u.translateAll .fetch u.fetchVa (u.byteVas u.fetchVa 4)).run u.noWord
      fun ps => (u.fetched (physAddrs ps)).afterFetch k := by
  rw [State.fetch_of_passes k h, State.fetchPhys, if_neg]
  rw [hl]
  exact fun hbad => hbad.elim (· ha) Bool.noConfusion

theorem State.fetch_raises {e : Exc} (he : FirstRaises u .fetch u.fetchVa 4 e) :
    s.fetch k = .next (u.noWord.raise e) := by
  rw [State.fetch_legal k h ha hl, State.translateAll_raises he]; rfl

theorem State.fetch_stops {r : Stop} (hr : FirstStops u .fetch u.fetchVa 4 r) : s.fetch k = r.out := by
  rw [State.fetch_legal k h ha hl, State.translateAll_stops hr]; rfl

theorem State.fetch_translated {p : Nat → Phys} (hp : BytesTranslate u .fetch u.fetchVa 4 p) :
    s.fetch k = (u.fetched ((List.range 4).map fun n => (p n).pa)).afterFetch k := by
  rw [State.fetch_legal k h ha hl, State.translateAll_bytes hp]; rfl

end

/-- A machine error that waits is taken after the fetch (R868). -/
theorem State.afterFetch_merr {r : MerrReport} (h : s.merrPending = some r) :
    s.afterFetch k = .next (({ s with merrPending := none } : State).raiseMachineError r) := by
  rw [State.afterFetch, h]

theorem State.afterFetch_none (h : s.merrPending = none) : s.afterFetch k = k s := by rw [State.afterFetch, h]

/-- The fetch of a word leaves a machine error waiting. -/
@[simp] theorem State.fetched_merrPending (as : List Nat) : (s.fetched as).merrPending = s.merrPending := by
  rw [State.fetched]
  split <;> rfl

end

/-- Settles O55: the stages of the fetch in their order, then the instruction of its word. -/
theorem stepRunsDecoded : Obligations.StepRunsDecoded := by
  rintro s₀ s rfl hf
  rw [step_of_fetches hf]
  refine ⟨fun hit hskip => ⟨_, State.fetch_watched _ hit hskip⟩, ?_⟩
  rintro u a hu rfl
  rw [← hu.fetchVa_eq]
  refine ⟨fun hbad => ⟨_, State.fetch_adef _ hu hbad⟩, fun ha hl => ⟨fun e he => ⟨_, State.fetch_raises _ hu ha hl he⟩,
    fun r hr => State.fetch_stops _ hu ha hl hr, ?_⟩⟩
  rintro p as v hp rfl rfl
  rw [State.fetch_translated _ hu ha hl hp]
  refine ⟨State.fetched_of_not_open, fun r hr => State.afterFetch_merr _ (by rwa [State.fetched_merrPending]),
    fun hm => ?_⟩
  rw [State.afterFetch_none _ (by rwa [State.fetched_merrPending])]
  exact ⟨fun _ => State.runWord_of_decode, State.runWord_of_undefined⟩

end Sys2Proof.Machine
end

section
/-! SUPPORT. The integer instructions by the shape of their meaning: what completes with which value in the destination
(40_int_arith.md R340; R380 for a divisor of 0). -/

namespace Sys2Proof.Machine

section
variable {i : Instr} {s : State} {rd rj rk : Reg} {v w : Word}

/-- An instruction that retires a value completes with that value, in whatever form it is stated. -/
theorem completesX_of_retire_eq (h : exec i s = .next (s.retire rd v)) (hv : v = w) : CompletesX i s rd w :=
  hv ▸ completesX_of_retire h

/-- Any value in the destination: the instruction completes, and only the supply of free values moves on besides. -/
theorem completesX_of_retireAny (h : exec i s = .next (s.retireAny rd)) : CompletesX i s rd s.free :=
  ⟨_, h, s.retire_onlyX rd s.free⟩

variable {z : Word → Bool} {f : Word → Word → Word}

/-- A division whose divisor passes the test for 0 completes with any value (R380; log 14). -/
theorem completesX_of_opDiv_zero (h : exec i s = opDiv z f rd rj rk s) (hz : z (s.x rk) = true) :
    ∃ v, CompletesX i s rd v := ⟨_, completesX_of_retireAny (h.trans (congrArg Host.Outcome.next (if_pos hz)))⟩

/-- A division by another divisor completes with the function's value. -/
theorem completesX_of_opDiv (h : exec i s = opDiv z f rd rj rk s) (hz : z (s.x rk) = false)
    (hf : f (s.x rj) (s.x rk) = v) : CompletesX i s rd v :=
  completesX_of_retire_eq (h.trans (congrArg Host.Outcome.next (if_neg (Bool.eq_false_iff.1 hz)))) hf

end

/-- The divisor test of a word form looks at the low word alone. -/
theorem zeroW_eq_true_iff (y : Word) : zeroW y = true ↔ y.setWidth 32 = 0#32 := beq_iff_eq

theorem zeroD_eq_true_iff (y : Word) : zeroD y = true ↔ y = 0 := beq_iff_eq

/-- The word forms of the division, as the reference configuration has them (log 1). -/
theorem exec_div_word_eq (s : State) (rd rj rk : Reg) :
    exec (.divW rd rj rk) s = opDiv zeroW (onW BitVec.sdiv) rd rj rk s ∧
    exec (.modW rd rj rk) s = opDiv zeroW (onW BitVec.srem) rd rj rk s ∧
    exec (.divWu rd rj rk) s = opDiv zeroW (onW BitVec.udiv) rd rj rk s ∧
    exec (.modWu rd rj rk) s = opDiv zeroW (onW BitVec.umod) rd rj rk s := by
  rw [← opDivW_eq]
  exact ⟨rfl, rfl, rfl, rfl⟩

end Sys2Proof.Machine
end

section
/-! SUPPORT. The integer operations as functions on numbers: products and their halves, quotients and remainders,
comparisons (40_int_arith.md sections 5, 8 and 9; 00_scope.md R12), and the immediates and fields that they take. -/

namespace Sys2Proof.Machine

/-! ## Products and their halves (R372 to R379) -/

/-- A product of words is the product of the integers, modulo the width. -/
theorem mul_eq_ofInt {n : Nat} (a b : BitVec n) : a * b = BitVec.ofInt n (a.toInt * b.toInt) := by
  rw [BitVec.ofInt_mul, BitVec.ofInt_toInt, BitVec.ofInt_toInt]

/-- The product of the sign-extended words. -/
theorem signExtend_mul_signExtend {n : Nat} (m : Nat) (a b : BitVec n) :
    a.signExtend m * b.signExtend m = BitVec.ofInt m (a.toInt * b.toInt) := (BitVec.ofInt_mul ..).symm

/-- The product of the zero-extended words. -/
theorem setWidth_mul_setWidth {n : Nat} (m : Nat) (a b : BitVec n) :
    a.setWidth m * b.setWidth m = BitVec.ofNat m (a.toNat * b.toNat) := by
  rw [BitVec.ofNat_mul, BitVec.ofNat_toNat, BitVec.ofNat_toNat]

/-- Dropping the low part of a residue leaves the residue of the quotient. -/
theorem emod_mul_ediv_emod (p : Int) {a : Int} (b : Int) (ha : a ≠ 0) : p % (a * b) / a % b = p / a % b := by
  have hp : p % (a * b) = p + a * (b * -(p / (a * b))) := by rw [Int.emod_def]; ring
  rw [hp, Int.add_mul_ediv_left _ _ ha, Int.add_mul_emod_self_left]

/-- The high part of an integer modulo `2 ^ (n + m)` is its quotient by `2 ^ n`. -/
theorem bits_high_ofInt (n m : Nat) (p : Int) :
    bits (BitVec.ofInt (n + m) p) n m = BitVec.ofInt m (p / 2 ^ n) := by
  have h0 : 0 ≤ p % (2 ^ n * 2 ^ m) := Int.emod_nonneg _ (by positivity)
  refine BitVec.eq_of_toNat_eq (Int.ofNat_inj.1 ?_)
  simp only [bits, BitVec.extractLsb'_toNat, BitVec.toNat_ofInt, Nat.shiftRight_eq_div_pow]
  push_cast
  rw [Int.toNat_of_nonneg (Int.emod_nonneg _ (by positivity)), Int.toNat_of_nonneg (Int.emod_nonneg _ (by positivity)),
    pow_add, emod_mul_ediv_emod p _ (by positivity)]

/-- The high part of a number modulo `2 ^ (n + m)` is its quotient by `2 ^ n`. -/
theorem bits_high_ofNat (n m p : Nat) : bits (BitVec.ofNat (n + m) p) n m = BitVec.ofNat m (p / 2 ^ n) := by
  rw [← BitVec.ofInt_natCast, bits_high_ofInt, ← BitVec.ofInt_natCast]
  push_cast
  rfl

theorem onW_mul_eq (x y : Word) :
    onW (· * ·) x y = (BitVec.ofInt 32 ((x.setWidth 32).toInt * (y.setWidth 32).toInt)).signExtend 64 :=
  congrArg sext32 (mul_eq_ofInt (low32 x) (low32 y))

theorem mulSW_eq (x y : Word) : mulSW x y = BitVec.ofInt 64 ((x.setWidth 32).toInt * (y.setWidth 32).toInt) :=
  signExtend_mul_signExtend 64 (low32 x) (low32 y)

theorem mulUW_eq (x y : Word) : mulUW x y = BitVec.ofNat 64 ((x.setWidth 32).toNat * (y.setWidth 32).toNat) :=
  setWidth_mul_setWidth 64 (low32 x) (low32 y)

/-- The high half of the signed product of the low words (R373). -/
theorem bits_mulSW (x y : Word) :
    bits (mulSW x y) 32 32 = BitVec.ofInt 32 ((x.setWidth 32).toInt * (y.setWidth 32).toInt / 2 ^ 32) := by
  rw [mulSW_eq]
  exact bits_high_ofInt 32 32 _

/-- The high half of the unsigned product of the low words (R374). -/
theorem bits_mulUW (x y : Word) :
    bits (mulUW x y) 32 32 = BitVec.ofNat 32 ((x.setWidth 32).toNat * (y.setWidth 32).toNat / 2 ^ 32) := by
  rw [mulUW_eq]
  exact bits_high_ofNat 32 32 _

theorem mulHighS_eq (x y : Word) : mulHighS x y = BitVec.ofInt 64 (x.toInt * y.toInt / 2 ^ 64) := by
  rw [mulHighS, signExtend_mul_signExtend]
  exact bits_high_ofInt 64 64 _

theorem mulHighU_eq (x y : Word) : mulHighU x y = BitVec.ofNat 64 (x.toNat * y.toNat / 2 ^ 64) := by
  rw [mulHighU, setWidth_mul_setWidth]
  exact bits_high_ofNat 64 64 _

/-! ## Quotients and remainders (R381 to R388) -/

/-- The quotient of words is that of the integers, truncated toward zero, modulo the width: the most negative number
divided by -1 gives itself (D29). -/
theorem sdiv_eq_ofInt {n : Nat} (a b : BitVec n) : a.sdiv b = BitVec.ofInt n (a.toInt.tdiv b.toInt) :=
  BitVec.eq_of_toInt_eq (by rw [BitVec.toInt_sdiv, BitVec.toInt_ofInt])

theorem srem_eq_ofInt {n : Nat} (a b : BitVec n) : a.srem b = BitVec.ofInt n (a.toInt.tmod b.toInt) := by
  rw [← BitVec.toInt_srem, BitVec.ofInt_toInt]

theorem udiv_eq_ofNat {n : Nat} (a b : BitVec n) : a.udiv b = BitVec.ofNat n (a.toNat / b.toNat) := by
  have h : (a.udiv b).toNat = a.toNat / b.toNat := BitVec.toNat_udiv
  rw [← h, BitVec.ofNat_toNat, BitVec.setWidth_eq]

theorem umod_eq_ofNat {n : Nat} (a b : BitVec n) : a.umod b = BitVec.ofNat n (a.toNat % b.toNat) := by
  have h : (a.umod b).toNat = a.toNat % b.toNat := BitVec.toNat_umod
  rw [← h, BitVec.ofNat_toNat, BitVec.setWidth_eq]

/-! ## Comparisons (R354 to R357) -/

theorem boolWord_slt (x y : Word) : boolWord (x.slt y) = if x.toInt < y.toInt then 1 else 0 :=
  if_congr BitVec.slt_iff_toInt_lt rfl rfl

theorem boolWord_ult (x y : Word) : boolWord (x.ult y) = if x.toNat < y.toNat then 1 else 0 :=
  if_congr decide_eq_true_iff rfl rfl

/-! ## Immediates and fields -/

/-- The low word of a 12-bit immediate is the immediate sign-extended to a word (R345). -/
theorem low32_simm12 (i : BitVec 12) : low32 (simm12 i) = i.signExtend 32 := by
  refine BitVec.eq_of_getLsbD_eq fun k hk => ?_
  rw [low32, simm12, BitVec.getLsbD_setWidth, BitVec.getLsbD_signExtend, BitVec.getLsbD_signExtend]
  simp [hk, (by omega : k < 64)]

theorem toInt_simm12 (i : BitVec 12) : (simm12 i).toInt = i.toInt := BitVec.toInt_signExtend_of_le (by decide)

/-- An unsigned immediate has zeros above it (R368 to R370). -/
theorem uimm12_eq_append (i : BitVec 12) : uimm12 i = 0#52 ++ i := BitVec.setWidth_eq_append (by decide)

/-- A field from bit 0 up is the value cut to its width. -/
theorem bits_zero_eq_setWidth {n m : Nat} (x : BitVec n) (h : m ≤ n) : bits x 0 m = x.setWidth m :=
  (BitVec.setWidth_eq_extractLsb' h).symm

/-- The low 12 bits erased (R361). -/
theorem bits_append_zero_eq_and (x : Word) : bits x 12 52 ++ 0#12 = x &&& ~~~0xFFF#64 := by
  have hm : ∀ i, (0xFFF#64).getLsbD i = decide (i < 12) := fun i => Nat.testBit_two_pow_sub_one 12 i
  refine BitVec.eq_of_getLsbD_eq fun i hi => ?_
  rw [BitVec.getLsbD_append, BitVec.getLsbD_and, BitVec.getLsbD_not, hm]
  by_cases h : i < 12
  · simp [h]
  · rw [if_neg h, getLsbD_bits, decide_eq_true (by omega : i - 12 < 52), Nat.add_sub_cancel' (Nat.not_lt.1 h)]
    simp [h, hi]

end Sys2Proof.Machine
end

section
/-! The obligations of the integer instructions (40_int_arith.md). -/

namespace Sys2Proof.Machine

/-- Settles O4: each product of the model is that of the integers, or its high half. -/
theorem intMultiply : Obligations.IntMultiply := by
  rintro s rd rj rk _ _ rfl rfl
  exact ⟨completesX_of_retire_eq rfl (onW_mul_eq ..), completesX_of_retire_eq rfl (congrArg sext32 (bits_mulSW ..)),
    completesX_of_retire_eq rfl (congrArg sext32 (bits_mulUW ..)), completesX_of_retire_eq rfl (mul_eq_ofInt ..),
    completesX_of_retire_eq rfl (mulHighS_eq ..), completesX_of_retire_eq rfl (mulHighU_eq ..),
    completesX_of_retire_eq rfl (mulSW_eq ..), completesX_of_retire_eq rfl (mulUW_eq ..)⟩

/-- Settles O5: the divisor test splits each form into its quotient or remainder and the free value. -/
theorem intDivide : Obligations.IntDivide := by
  intro s rd rj rk
  obtain ⟨hdiv, hmod, hdivu, hmodu⟩ := exec_div_word_eq s rd rj rk
  refine ⟨?_, fun h0 => ?_, fun h0 => ?_, fun h0 => ?_⟩
  · rintro h0 _ _ rfl rfl
    have hz : zeroW (s.x rk) = false := Bool.eq_false_iff.2 (mt (zeroW_eq_true_iff _).1 h0)
    exact ⟨completesX_of_opDiv hdiv hz (congrArg sext32 (sdiv_eq_ofInt ..)),
      completesX_of_opDiv hmod hz (congrArg sext32 (srem_eq_ofInt ..)),
      completesX_of_opDiv hdivu hz (congrArg sext32 (udiv_eq_ofNat ..)),
      completesX_of_opDiv hmodu hz (congrArg sext32 (umod_eq_ofNat ..))⟩
  · have hz : zeroD (s.x rk) = false := Bool.eq_false_iff.2 (mt (zeroD_eq_true_iff _).1 h0)
    exact ⟨completesX_of_opDiv (f := BitVec.sdiv) rfl hz (sdiv_eq_ofInt ..),
      completesX_of_opDiv (f := BitVec.srem) rfl hz (srem_eq_ofInt ..),
      completesX_of_opDiv (f := BitVec.udiv) rfl hz (udiv_eq_ofNat ..),
      completesX_of_opDiv (f := BitVec.umod) rfl hz (umod_eq_ofNat ..)⟩
  · have hz := (zeroW_eq_true_iff _).2 h0
    simp only [List.forall_mem_cons]
    exact ⟨completesX_of_opDiv_zero hdiv hz, completesX_of_opDiv_zero hmod hz, completesX_of_opDiv_zero hdivu hz,
      completesX_of_opDiv_zero hmodu hz, List.forall_mem_nil _⟩
  · have hz := (zeroD_eq_true_iff _).2 h0
    simp only [List.forall_mem_cons]
    exact ⟨completesX_of_opDiv_zero rfl hz, completesX_of_opDiv_zero rfl hz, completesX_of_opDiv_zero rfl hz,
      completesX_of_opDiv_zero rfl hz, List.forall_mem_nil _⟩

/-- Settles O1: every form retires its sum, and the immediate of ADDI.W is cut to a word. -/
theorem intAddSub : Obligations.IntAddSub := by
  intro s rd rj rk si12 si16 sa2
  have haddi : onW (· + ·) (s.x rj) (simm12 si12) = (((s.x rj).setWidth 32 + si12.signExtend 32).signExtend 64) := by
    rw [onW, low32_simm12]; rfl
  exact ⟨completesX_of_retire rfl, completesX_of_retire rfl, completesX_of_retire rfl, completesX_of_retire rfl,
    completesX_of_retire_eq rfl haddi, completesX_of_retire rfl, completesX_of_retire rfl, completesX_of_retire rfl,
    completesX_of_retire rfl, completesX_of_retire rfl⟩

/-- Settles O2: the comparisons on numbers, the fields that LU52I.D and PCALAU12I keep, and the other forms as they
stand. -/
theorem intImmCompare : Obligations.IntImmCompare := by
  intro s rd rj rk si12 si20
  have hlu52i : si12 ++ bits (s.x rj) 0 52 = si12 ++ (s.x rj).setWidth 52 := by
    rw [bits_zero_eq_setWidth _ (by decide)]
  have hslti : boolWord ((s.x rj).slt (simm12 si12)) = if (s.x rj).toInt < si12.toInt then 1 else 0 := by
    rw [boolWord_slt, toInt_simm12]
  exact ⟨completesX_of_retire rfl, completesX_of_retire rfl, completesX_of_retire_eq rfl hlu52i,
    completesX_of_retire_eq rfl (boolWord_slt ..), completesX_of_retire_eq rfl (boolWord_ult ..),
    completesX_of_retire_eq rfl hslti, completesX_of_retire_eq rfl (boolWord_ult ..), completesX_of_retire rfl,
    completesX_of_retire rfl, completesX_of_retire rfl,
    completesX_of_retire_eq rfl (congrArg s.linkVal (bits_append_zero_eq_and _))⟩

/-- Settles O3: the immediates are zeros and the field, and MASKNEZ tests the other way round. -/
theorem intLogic : Obligations.IntLogic := by
  intro s rd rj rk ui12
  have himm (op : Word → Word → Word) : op (s.x rj) (uimm12 ui12) = op (s.x rj) (0#52 ++ ui12) :=
    congrArg _ (uimm12_eq_append ui12)
  exact ⟨completesX_of_retire rfl, completesX_of_retire rfl, completesX_of_retire rfl, completesX_of_retire rfl,
    completesX_of_retire rfl, completesX_of_retire rfl, completesX_of_retire_eq rfl (himm (· &&& ·)),
    completesX_of_retire_eq rfl (himm (· ||| ·)), completesX_of_retire_eq rfl (himm (· ^^^ ·)),
    completesX_of_retire rfl, completesX_of_retire_eq rfl (ite_not ..)⟩

end Sys2Proof.Machine
end

section
/-! SUPPORT. The shift amounts, rotations and bit counts of the shift and bit instructions (41_int_shift_bit.md R401 to
R427). -/

namespace Sys2Proof.Machine

/-! ## Shifts and rotations (R402 to R417) -/

/-- The amount of a word shift is the register modulo 32. -/
theorem shiftW_eq (f : BitVec 32 → Nat → BitVec 32) (x y : Word) :
    shiftW f x y = (f (x.setWidth 32) (y.toNat % 32)).signExtend 64 := by
  rw [shiftW, toNat_bits_zero]; rfl

/-- The amount of a doubleword shift is the register modulo 64. -/
theorem shiftD_eq (f : Word → Nat → Word) (x y : Word) : shiftD f x y = f x (y.toNat % 64) := by
  rw [shiftD, toNat_bits_zero]; rfl

/-- A rotation by less than the width joins the two parts of the word. -/
theorem rotateRight_eq_or {n k : Nat} (x : BitVec n) (hk : k < n) : x.rotateRight k = x >>> k ||| x <<< (n - k) :=
  BitVec.rotateRight_eq_rotateRightAux_of_lt hk

/-! ## Counts (R420 to R427) -/

/-- The low word of a register has its low 32 bits. -/
theorem getLsbD_low32 (x : Word) {i : Nat} (hi : i < 32) : (low32 x).getLsbD i = x.getLsbD i := by
  rw [low32, BitVec.getLsbD_setWidth, decide_eq_true hi, Bool.true_and]

/-- The count from bit `k - 1` down: `c` bits that equal `b`, and then none of them left or one that does not. -/
theorem leading_eq {n : Nat} (b : Bool) (w : BitVec n) : ∀ (k c : Nat), c ≤ k →
    (∀ j, j < c → w.getLsbD (k - 1 - j) = b) → (c < k → w.getLsbD (k - 1 - c) = !b) → leading b w k = c
  | 0, _, hc, _, _ => (Nat.le_zero.1 hc).symm
  | k + 1, 0, _, _, hend => by
    have hk : w.getLsbD k = !b := hend k.succ_pos
    rw [leading, hk, if_neg (Bool.not_ne_self b)]
  | k + 1, c + 1, hc, hall, hend => by
    have hk : w.getLsbD k = b := hall 0 c.succ_pos
    have hrec : leading b w k = c := leading_eq b w k c (Nat.le_of_succ_le_succ hc)
      (fun j hj => by rw [← hall (j + 1) (by omega)]; congr 1; omega)
      (fun hck => by rw [← hend (by omega)]; congr 1; omega)
    rw [leading, if_pos hk, hrec]

/-- The count of the `k` bits from bit `i` up: `c` bits that equal `b`, and then none of them left or one that does
not. -/
theorem trailing_eq {n : Nat} (b : Bool) (w : BitVec n) : ∀ (k i c : Nat), c ≤ k →
    (∀ j, j < c → w.getLsbD (i + j) = b) → (c < k → w.getLsbD (i + c) = !b) → trailing b w k i = c
  | 0, _, _, hc, _, _ => (Nat.le_zero.1 hc).symm
  | k + 1, i, 0, _, _, hend => by
    have hi : w.getLsbD i = !b := hend k.succ_pos
    rw [trailing, hi, if_neg (Bool.not_ne_self b)]
  | k + 1, i, c + 1, hc, hall, hend => by
    have hi : w.getLsbD i = b := hall 0 c.succ_pos
    have hrec : trailing b w k (i + 1) = c := trailing_eq b w k (i + 1) c (Nat.le_of_succ_le_succ hc)
      (fun j hj => by rw [← hall (j + 1) (by omega)]; congr 1; omega)
      (fun hck => by rw [← hend (by omega)]; congr 1; omega)
    rw [trailing, if_pos hi, hrec]

section
variable {b : Bool} {x : Word} {n m w : Nat} {u : BitVec m}

/-- The count looks at the low `w` bits alone, so the word forms ignore bits 63:32. -/
theorem LeadsWith.leading_eq (h : LeadsWith b w x n) (hu : ∀ i, i < w → u.getLsbD i = x.getLsbD i) :
    leading b u w = n := by
  obtain ⟨hn, hall, hend⟩ := h
  refine Machine.leading_eq b u w n hn (fun j hj => ?_) (fun hlt => ?_)
  · rw [hu _ (by omega), hall j hj]
  · rw [hu _ (by omega), hend hlt]

theorem TrailsWith.trailing_eq (h : TrailsWith b w x n) (hu : ∀ i, i < w → u.getLsbD i = x.getLsbD i) :
    trailing b u w 0 = n := by
  obtain ⟨hn, hall, hend⟩ := h
  refine Machine.trailing_eq b u w 0 n hn (fun j hj => ?_) (fun hlt => ?_)
  · rw [Nat.zero_add, hu j (by omega), hall j hj]
  · rw [Nat.zero_add, hu n hlt, hend hlt]

end

end Sys2Proof.Machine
end

section
/-! SUPPORT. Which bit of its operand each bit of a result is: bytes and halfwords in another order, bits of a byte
reversed, sign extensions (41_int_shift_bit.md R418, R419, R430 to R439). -/

namespace Sys2Proof.Machine

/-- Bit `i` of `v` is bit `p i` of `x`. -/
def TakesBits {n : Nat} (v : BitVec n) (x : Word) (p : Nat → Nat) : Prop :=
  ∀ i, i < n → v.getLsbD i = x.getLsbD (p i)

section
variable {n m : Nat} {x : Word} {p q : Nat → Nat} {v : BitVec n} {u : BitVec m}

/-- The same bits, written in another way. -/
theorem TakesBits.congr (h : TakesBits v x p) (hpq : ∀ i, i < n → p i = q i) : TakesBits v x q :=
  fun i hi => hpq i hi ▸ h i hi

theorem TakesBits.append (hv : TakesBits v x p) (hu : TakesBits u x q) :
    TakesBits (v ++ u) x (fun i => if i < m then q i else p (i - m)) := by
  intro i hi
  rw [BitVec.getLsbD_append, apply_ite x.getLsbD]
  exact if_ctx_congr Iff.rfl (hu i) fun hm => hv (i - m) (by omega)

theorem TakesBits.reverse (hv : TakesBits v x p) : TakesBits v.reverse x (fun i => p (n - 1 - i)) := by
  intro i hi
  rw [BitVec.getLsbD_reverse, BitVec.getMsbD_eq_getLsbD, decide_eq_true hi, Bool.true_and]
  exact hv _ (by omega)

/-- Above its sign bit a sign-extended value repeats it. -/
theorem TakesBits.signExtend (hv : TakesBits v x p) (hn : 0 < n) :
    TakesBits (v.signExtend m) x (fun i => if i < n then p i else p (n - 1)) := by
  intro i hi
  rw [BitVec.getLsbD_signExtend, decide_eq_true hi, Bool.true_and, apply_ite x.getLsbD, BitVec.msb_eq_getLsbD_last]
  exact if_ctx_congr Iff.rfl (hv i) fun _ => hv (n - 1) (by omega)

end

section
variable (x : Word)

theorem takesBits_self : TakesBits x x (fun i => i) := fun _ _ => rfl

theorem takesBits_setWidth (m : Nat) : TakesBits (x.setWidth m) x (fun i => i) := by
  intro i hi
  rw [BitVec.getLsbD_setWidth, decide_eq_true hi, Bool.true_and]

theorem takesBits_bits (lo m : Nat) : TakesBits (bits x lo m) x (lo + ·) := by
  intro i hi
  rw [getLsbD_bits, decide_eq_true hi, Bool.true_and]

theorem takesBits_byteOf (i : Nat) : TakesBits (byteOf x i) x (8 * i + ·) := takesBits_bits x (8 * i) 8

theorem takesBits_halfOf (i : Nat) : TakesBits (halfOf x i) x (16 * i + ·) := takesBits_bits x (16 * i) 16

theorem takesBits_swapBytes (i : Nat) : TakesBits (swapBytes x i) x (fun k => 16 * i + (k + 8) % 16) :=
  ((takesBits_byteOf x (2 * i)).append (takesBits_byteOf x (2 * i + 1))).congr fun k hk => by
    split_ifs <;> omega

theorem takesBits_revBytes (i : Nat) : TakesBits (revBytes x i) x (fun k => 32 * i + (3 - k / 8) * 8 + k % 8) :=
  ((((takesBits_byteOf x (4 * i)).append (takesBits_byteOf x (4 * i + 1))).append
    (takesBits_byteOf x (4 * i + 2))).append (takesBits_byteOf x (4 * i + 3))).congr fun k hk => by
      split_ifs <;> omega

theorem takesBits_revBits4 (i : Nat) : TakesBits (revBits4 x i) x (fun k => 32 * i + k / 8 * 8 + (7 - k % 8)) :=
  ((((takesBits_byteOf x (4 * i + 3)).reverse.append (takesBits_byteOf x (4 * i + 2)).reverse).append
    (takesBits_byteOf x (4 * i + 1)).reverse).append (takesBits_byteOf x (4 * i)).reverse).congr fun k hk => by
      split_ifs <;> omega

end

/-- An instruction that retires a value whose bits are known completes with those bits. -/
theorem completesX_of_takesBits {i : Instr} {s : State} {rd rj : Reg} {v : Word} {p q : Nat → Nat}
    (h : exec i s = .next (s.retire rd v)) (hp : TakesBits v (s.x rj) p) (hpq : ∀ k, k < 64 → p k = q k) :
    ∃ v, CompletesX i s rd v ∧ ∀ k, k < 64 → v.getLsbD k = (s.x rj).getLsbD (q k) :=
  ⟨_, completesX_of_retire h, hp.congr hpq⟩

end Sys2Proof.Machine
end

section
/-! SUPPORT. Byte picks and bit strings, bit by bit (41_int_shift_bit.md R428, R429, R440 to R444). -/

namespace Sys2Proof.Machine

section
variable {n k msb lsb i : Nat}

/-- Of two words side by side, the `n` bits that begin `k` bits below the upper one: the top `k` bits of the lower one,
and above them the upper one. -/
theorem getLsbD_bits_append (x y : BitVec n) (hk : k ≤ n) (hi : i < n) :
    (bits (y ++ x) (n - k) n).getLsbD i = if i < k then x.getLsbD (n - k + i) else y.getLsbD (i - k) := by
  rw [getLsbD_bits, decide_eq_true hi, Bool.true_and, BitVec.getLsbD_append]
  refine if_congr (by omega) rfl ?_
  congr 1
  omega

theorem getLsbD_fieldMask (hm : msb < n) :
    (fieldMask msb lsb : BitVec n).getLsbD i = decide (lsb ≤ i ∧ i ≤ msb) := by
  rw [fieldMask, BitVec.getLsbD_and, BitVec.getLsbD_shiftLeft, BitVec.getLsbD_ushiftRight, BitVec.getLsbD_allOnes,
    BitVec.getLsbD_allOnes, Bool.eq_iff_iff]
  simp only [Bool.and_eq_true, Bool.not_eq_true', decide_eq_true_eq, decide_eq_false_iff_not]
  omega

theorem getLsbD_bstrpick (x : BitVec n) (hm : msb < n) :
    (bstrpick msb lsb x).getLsbD i = if lsb + i ≤ msb then x.getLsbD (lsb + i) else false := by
  rw [bstrpick, BitVec.getLsbD_ushiftRight, BitVec.getLsbD_and, getLsbD_fieldMask hm]
  by_cases h : lsb + i ≤ msb <;> simp [h]

theorem getLsbD_bstrins (d x : BitVec n) (hm : msb < n) (hi : i < n) :
    (bstrins msb lsb d x).getLsbD i = if lsb ≤ i ∧ i ≤ msb then x.getLsbD (i - lsb) else d.getLsbD i := by
  rw [bstrins, BitVec.getLsbD_or, BitVec.getLsbD_and, BitVec.getLsbD_and, BitVec.getLsbD_not, BitVec.getLsbD_shiftLeft,
    getLsbD_fieldMask hm]
  by_cases h : lsb ≤ i ∧ i ≤ msb <;> simp [h, hi]

end

section
variable {i : Instr} {s : State} {rd : Reg} {v : Word} {k : Nat} {m l : BitVec k}

/-- A bit string with msb < lsb raises INE (R440; log 51). -/
theorem raises_of_msb_lt_lsb (h : exec i s = if m < l then .next (s.raise .ine) else .next (s.retire rd v))
    (hml : m.toNat < l.toNat) : Raises i s .ine := h.trans (if_pos (BitVec.lt_def.2 hml))

theorem completesX_of_not_msb_lt_lsb (h : exec i s = if m < l then .next (s.raise .ine) else .next (s.retire rd v))
    (hml : ¬ m.toNat < l.toNat) : CompletesX i s rd v :=
  completesX_of_retire (h.trans (if_neg (mt BitVec.lt_def.1 hml)))

end

end Sys2Proof.Machine
end

section
/-! The obligations of the shift and bit instructions (41_int_shift_bit.md). -/

namespace Sys2Proof.Machine

/-- Settles O6: each amount is below the width, so that a rotation is two shifts joined. -/
theorem shifts : Obligations.Shifts := by
  rintro s rd rj rk u5 u6 _ _ _ rfl rfl rfl
  have hrotW {k : Nat} (hk : k < 32) : ((low32 (s.x rj)).rotateRight k).signExtend 64 =
      (low32 (s.x rj) >>> k ||| low32 (s.x rj) <<< (32 - k)).signExtend 64 := by rw [rotateRight_eq_or _ hk]
  have hn : (s.x rk).toNat % 32 < 32 := Nat.mod_lt _ (by decide)
  have hm : (s.x rk).toNat % 64 < 64 := Nat.mod_lt _ (by decide)
  exact ⟨completesX_of_retire_eq rfl (shiftW_eq ..), completesX_of_retire_eq rfl (shiftW_eq ..),
    completesX_of_retire_eq rfl (shiftW_eq ..), completesX_of_retire_eq rfl ((shiftW_eq ..).trans (hrotW hn)),
    completesX_of_retire rfl, completesX_of_retire rfl, completesX_of_retire rfl,
    completesX_of_retire_eq rfl (hrotW u5.isLt),
    completesX_of_retire_eq rfl (shiftD_eq ..), completesX_of_retire_eq rfl (shiftD_eq ..),
    completesX_of_retire_eq rfl (shiftD_eq ..),
    completesX_of_retire_eq rfl ((shiftD_eq ..).trans (rotateRight_eq_or _ hm)),
    completesX_of_retire rfl, completesX_of_retire rfl, completesX_of_retire rfl,
    completesX_of_retire_eq rfl (rotateRight_eq_or _ u6.isLt)⟩

/-- Settles O7: a count is the one number of bits that the statement allows. -/
theorem bitCounts : Obligations.BitCounts := by
  intro s rd rj n
  have hlow : ∀ i, i < 32 → (low32 (s.x rj)).getLsbD i = (s.x rj).getLsbD i := fun _ => getLsbD_low32 _
  exact ⟨fun h => completesX_of_retire_eq rfl (congrArg countWord (h.leading_eq hlow)),
    fun h => completesX_of_retire_eq rfl (congrArg countWord (h.leading_eq hlow)),
    fun h => completesX_of_retire_eq rfl (congrArg countWord (h.trailing_eq hlow)),
    fun h => completesX_of_retire_eq rfl (congrArg countWord (h.trailing_eq hlow)),
    fun h => completesX_of_retire_eq rfl (congrArg countWord (h.leading_eq fun _ _ => rfl)),
    fun h => completesX_of_retire_eq rfl (congrArg countWord (h.leading_eq fun _ _ => rfl)),
    fun h => completesX_of_retire_eq rfl (congrArg countWord (h.trailing_eq fun _ _ => rfl)),
    fun h => completesX_of_retire_eq rfl (congrArg countWord (h.trailing_eq fun _ _ => rfl))⟩

/-- Settles O8: each result is put together from bytes, halfwords or words whose bits are known. -/
theorem extendAndReverse : Obligations.ExtendAndReverse := by
  intro s rd rj
  have hswap := takesBits_swapBytes (s.x rj)
  have hbytes := takesBits_revBytes (s.x rj)
  have hhalf := takesBits_halfOf (s.x rj)
  have hbits := takesBits_revBits4 (s.x rj)
  have hlow := takesBits_setWidth (s.x rj)
  simp only [List.forall_mem_cons]
  refine ⟨completesX_of_takesBits rfl ((hlow 8).signExtend (by decide)) fun _ _ => rfl,
    completesX_of_takesBits rfl ((hlow 16).signExtend (by decide)) fun _ _ => rfl,
    completesX_of_takesBits rfl (((hswap 1).append (hswap 0)).signExtend (by decide)) ?_,
    completesX_of_takesBits rfl ((((hswap 3).append (hswap 2)).append (hswap 1)).append (hswap 0)) ?_,
    completesX_of_takesBits rfl ((hbytes 1).append (hbytes 0)) ?_,
    completesX_of_takesBits rfl ((hbytes 0).append (hbytes 1)) ?_,
    completesX_of_takesBits rfl ((((hhalf 2).append (hhalf 3)).append (hhalf 0)).append (hhalf 1)) ?_,
    completesX_of_takesBits rfl ((((hhalf 0).append (hhalf 1)).append (hhalf 2)).append (hhalf 3)) ?_,
    completesX_of_takesBits rfl ((hbits 0).signExtend (by decide)) ?_,
    completesX_of_takesBits rfl ((hbits 1).append (hbits 0)) ?_,
    completesX_of_takesBits rfl ((hlow 32).reverse.signExtend (by decide)) ?_,
    completesX_of_takesBits rfl (takesBits_self _).reverse fun _ _ => rfl, List.forall_mem_nil _⟩
  all_goals
    intro i hi
    split_ifs <;> omega

/-- Settles O9: the bits of a pick from two words side by side, and of a field taken from a word or put into one. -/
theorem pickAndInsert : Obligations.PickAndInsert := by
  intro s rd rj rk sa2 sa3 m5 l5 m6 l6
  have hsa2 := sa2.isLt
  have hsa3 := sa3.isLt
  refine ⟨⟨_, completesX_of_retire rfl, fun i hi => ?_⟩, ⟨_, completesX_of_retire rfl, fun i hi => ?_⟩, ?_, ?_⟩
  case refine_1 =>
    rw [getLsbD_bits_append _ _ (by omega) hi]
    split <;> exact getLsbD_low32 _ (by omega)
  case refine_2 => exact getLsbD_bits_append _ _ (by omega) hi
  case refine_3 =>
    split
    case isTrue h => exact ⟨raises_of_msb_lt_lsb rfl h, raises_of_msb_lt_lsb rfl h⟩
    case isFalse h =>
      refine ⟨⟨_, completesX_of_not_msb_lt_lsb rfl h, fun i hi => ?_⟩,
        ⟨_, completesX_of_not_msb_lt_lsb rfl h, fun i hi => ?_⟩⟩
      · rw [getLsbD_bstrins _ _ m5.isLt hi, getLsbD_low32 _ hi, getLsbD_low32 _ (by omega)]
      · have hm5 := m5.isLt
        rw [getLsbD_bstrpick _ hm5]
        split
        · exact getLsbD_low32 _ (by omega)
        · rfl
  case refine_4 =>
    split
    case isTrue h => exact ⟨raises_of_msb_lt_lsb rfl h, raises_of_msb_lt_lsb rfl h⟩
    case isFalse h =>
      exact ⟨⟨_, completesX_of_not_msb_lt_lsb rfl h, fun _ hi => getLsbD_bstrins _ _ m6.isLt hi⟩,
        ⟨_, completesX_of_not_msb_lt_lsb rfl h, fun _ _ => getLsbD_bstrpick _ m6.isLt⟩⟩

end Sys2Proof.Machine
end

section
/-! SUPPORT. The shapes of the branches and jumps (42_branch.md R461): a branch completes where its condition says, a
jump with a link changes the link register and the pc. -/

namespace Sys2Proof.Machine

section
variable {i : Instr} {s : State} {c : Bool} {n : Nat} {o : BitVec n} {p : Prop} [Decidable p]

/-- A branch taken when `p` holds, and on in order else (R461). -/
theorem completesAt_of_branchIf (h : exec i s = branchIf c o s) (hc : c = true ↔ p) :
    CompletesAt i s (if p then s.pc + (o ++ 0#2).signExtend 64 else s.pc + 4) := by
  by_cases hp : p
  · rw [if_pos hp]
    exact completesAt_of_setPc (h.trans (congrArg Host.Outcome.next (if_pos (hc.2 hp))))
  · rw [if_neg hp]
    exact completesAt_of_setPc (h.trans (congrArg Host.Outcome.next (if_neg (mt hc.1 hp))))

/-- A branch taken when `p` fails, and on in order if it holds. -/
theorem completesAt_of_branchUnless (h : exec i s = branchIf c o s) (hc : c = true ↔ ¬p) :
    CompletesAt i s (if p then s.pc + 4 else s.pc + (o ++ 0#2).signExtend 64) :=
  ite_not p _ _ ▸ completesAt_of_branchIf h hc

end

/-- A jump with a link changes what retiring the link does, and its pc is the target. -/
theorem State.setX_setPc_onlyX (s : State) (rd : Reg) (v a : Word) :
    OnlyX s ((s.setX rd v).setPc a) rd v ∧ ((s.setX rd v).setPc a).pc = a ∧ SameButX s ((s.setX rd v).setPc a) := by
  obtain ⟨hx, -, hsame⟩ := s.retire_onlyX rd v
  exact ⟨hx, rfl, hsame⟩

/-- The branch condition of BGE, on the integers (R465). -/
theorem not_slt_iff_toInt_le {x y : Word} : (!x.slt y) = true ↔ y.toInt ≤ x.toInt := by
  rw [← BitVec.sle_eq_not_slt, BitVec.sle_iff_toInt_le]

/-- The branch condition of BGEU, on the naturals (R467). -/
theorem not_ult_iff_toNat_le {x y : Word} : (!x.ult y) = true ↔ y.toNat ≤ x.toNat := by
  rw [← BitVec.ule_eq_not_ult, BitVec.ule_iff_toNat_le]

end Sys2Proof.Machine
end

section
/-! The obligation of the branches and jumps (42_branch.md). -/

namespace Sys2Proof.Machine

/-- Settles O10: each branch by its condition on the register values, each jump by what it links. -/
theorem branchesAndJumps : Obligations.BranchesAndJumps := by
  rintro s rd rj o16 o21 o26 _ _ _ _ rfl rfl rfl rfl
  exact ⟨completesAt_of_branchIf rfl beq_iff_eq, completesAt_of_branchUnless rfl bne_iff_ne,
    completesAt_of_branchIf rfl BitVec.slt_iff_toInt_lt, completesAt_of_branchIf rfl not_slt_iff_toInt_le,
    completesAt_of_branchIf rfl BitVec.ult_iff_toNat_lt, completesAt_of_branchIf rfl not_ult_iff_toNat_le,
    completesAt_of_branchIf rfl beq_iff_eq, completesAt_of_branchUnless rfl bne_iff_ne, completesAt_of_setPc rfl,
    ⟨_, rfl, s.setX_setPc_onlyX ..⟩, ⟨_, rfl, s.setX_setPc_onlyX ..⟩⟩

end Sys2Proof.Machine
end

section
/-! SUPPORT. The shapes of the loads and stores (43_load_store.md R481): what a load that completes puts in its register,
what a store that completes leaves in memory, and the bound checks (R512). -/

namespace Sys2Proof.Machine

/-! ## Extensions of the bytes read (R483 to R489) -/

section
variable (v : Nat)

theorem sextB_ofNat : sextB (BitVec.ofNat 64 v) = signedOf 8 v :=
  congrArg (BitVec.signExtend 64) (BitVec.setWidth_ofNat_of_le (by decide) v)
theorem sextH_ofNat : sextH (BitVec.ofNat 64 v) = signedOf 16 v :=
  congrArg (BitVec.signExtend 64) (BitVec.setWidth_ofNat_of_le (by decide) v)
theorem sextW_ofNat : sextW (BitVec.ofNat 64 v) = signedOf 32 v :=
  congrArg (BitVec.signExtend 64) (BitVec.setWidth_ofNat_of_le (by decide) v)
theorem zextB_ofNat : zextB (BitVec.ofNat 64 v) = unsignedOf 8 v :=
  congrArg (BitVec.setWidth 64) (BitVec.setWidth_ofNat_of_le (by decide) v)
theorem zextH_ofNat : zextH (BitVec.ofNat 64 v) = unsignedOf 16 v :=
  congrArg (BitVec.setWidth 64) (BitVec.setWidth_ofNat_of_le (by decide) v)
theorem zextW_ofNat : zextW (BitVec.ofNat 64 v) = unsignedOf 32 v :=
  congrArg (BitVec.setWidth 64) (BitVec.setWidth_ofNat_of_le (by decide) v)

/-- A doubleword is taken as it is read. -/
theorem id_ofNat : id (BitVec.ofNat 64 v) = unsignedOf 64 v := (BitVec.setWidth_eq _).symm

end

/-! ## Accesses that complete -/

section
variable {i : Instr} {s : State} {a : Access}

/-- A load completes with the extension of the number that its bytes make. -/
theorem loadsX_of_loadX {rd : Reg} {ext : Word → Word} {g : Nat → Word} (h : exec i s = loadX s a rd ext)
    (hext : ∀ v, ext (BitVec.ofNat 64 v) = g v) : LoadsX i s a rd g := fun _ hps =>
  completesX_of_retire_eq (h.trans (access_ok hps)) ((congrArg ext (s.loadBytes_eq _)).trans (hext _))

/-- An instruction that stores bytes and goes on completes as a store does: nothing else changes. -/
theorem completesStore_of_storeBytes {as : List Nat} {v : Word} (hm : MemOk s)
    (h : exec i s = .next (s.storeBytes as v).advance) : CompletesStore i s as v := by
  have hstored : Stored s (s.storeBytes as v).advance as v := State.stored hm.1 as v
  obtain ⟨m, l, hsame⟩ := s.storeBytes_eq as v
  rw [hsame] at h hstored
  exact ⟨_, h, hstored, rfl, fun _ => rfl, fun _ => rfl, fun _ => rfl, rfl, rfl, ⟨rfl, rfl⟩,
    ⟨rfl, rfl, rfl, rfl, rfl, rfl, rfl, rfl⟩⟩

/-- A store completes with the low bytes of its value at the bytes of its access. -/
theorem storesX_of_storeX {v : Word} (hm : MemOk s) (h : exec i s = storeX s a v) : StoresX i s a v := fun _ hps =>
  completesStore_of_storeBytes hm (h.trans (access_ok hps))

end

/-! ## Bound checks (R512; log 52) -/

theorem State.boundGt_eq_decide (s : State) (rj rk : Reg) :
    s.boundGt rj rk = decide ((s.x rk).toNat < (s.x rj).toNat) := rfl

theorem State.boundLe_eq_decide (s : State) (rj rk : Reg) :
    s.boundLe rj rk = decide ((s.x rj).toNat ≤ (s.x rk).toNat) :=
  (BitVec.ule_eq_not_ult ..).symm

end Sys2Proof.Machine
end

section
/-! The obligations of the loads, stores, prefetches and barriers (43_load_store.md; 44_atomic_barrier.md R590 to
R592). -/

namespace Sys2Proof.Machine

/-- Settles O13: each load by the extension of its width. -/
theorem loads : Obligations.Loads := by
  rintro s rd rj rk si12 si14 _ _ _ rfl rfl rfl
  exact ⟨loadsX_of_loadX rfl sextB_ofNat, loadsX_of_loadX rfl sextH_ofNat, loadsX_of_loadX rfl sextW_ofNat,
    loadsX_of_loadX rfl id_ofNat, loadsX_of_loadX rfl zextB_ofNat, loadsX_of_loadX rfl zextH_ofNat,
    loadsX_of_loadX rfl zextW_ofNat, loadsX_of_loadX rfl sextB_ofNat, loadsX_of_loadX rfl sextH_ofNat,
    loadsX_of_loadX rfl sextW_ofNat, loadsX_of_loadX rfl id_ofNat, loadsX_of_loadX rfl zextB_ofNat,
    loadsX_of_loadX rfl zextH_ofNat, loadsX_of_loadX rfl zextW_ofNat, loadsX_of_loadX rfl sextW_ofNat,
    loadsX_of_loadX rfl id_ofNat⟩

/-- Settles O14: each store at its own address, all by the one rule of a store. -/
theorem stores : Obligations.Stores := by
  rintro s rd rj rk si12 si14 _ _ _ hm rfl rfl rfl
  exact ⟨storesX_of_storeX hm rfl, storesX_of_storeX hm rfl, storesX_of_storeX hm rfl, storesX_of_storeX hm rfl,
    storesX_of_storeX hm rfl, storesX_of_storeX hm rfl, storesX_of_storeX hm rfl, storesX_of_storeX hm rfl,
    storesX_of_storeX hm rfl, storesX_of_storeX hm rfl⟩

/-- Settles O15: with the bound checks read as comparisons of numbers, the loads and stores complete as the ordinary
ones do. -/
theorem boundAccesses : Obligations.BoundAccesses := by
  rintro s rd rj rk _ _ _ hm rfl rfl rfl
  rw [← s.boundGt_eq_decide rj rk, ← s.boundLe_eq_decide rj rk]
  exact ⟨loadsX_of_loadX rfl sextB_ofNat, loadsX_of_loadX rfl sextH_ofNat, loadsX_of_loadX rfl sextW_ofNat,
    loadsX_of_loadX rfl id_ofNat, loadsX_of_loadX rfl sextB_ofNat, loadsX_of_loadX rfl sextH_ofNat,
    loadsX_of_loadX rfl sextW_ofNat, loadsX_of_loadX rfl id_ofNat,
    storesX_of_storeX hm rfl, storesX_of_storeX hm rfl, storesX_of_storeX hm rfl, storesX_of_storeX hm rfl,
    storesX_of_storeX hm rfl, storesX_of_storeX hm rfl, storesX_of_storeX hm rfl, storesX_of_storeX hm rfl⟩

/-- Settles O16: prefetches and DBAR only go on, and IBAR forgets the earlier values besides. -/
theorem prefetchAndBarriers : Obligations.PrefetchAndBarriers := fun _ _ _ _ _ _ =>
  ⟨completesNothing_of_advance rfl, completesNothing_of_advance rfl, completesNothing_of_advance rfl,
    ⟨_, rfl, rfl, fun _ => rfl, rfl, fun _ => rfl, fun _ => rfl, rfl, fun _ => rfl, rfl, ⟨rfl, rfl⟩,
      ⟨rfl, rfl, rfl, rfl, rfl, rfl, rfl, rfl⟩⟩⟩

end Sys2Proof.Machine
end

section
/-! SUPPORT. The shapes of the atomic instructions (44_atomic_barrier.md): what a read-modify-write, a load-linked and a
store-conditional leave behind when their access completes. -/

namespace Sys2Proof.Machine

/-! ## The memory side of an atomic instruction -/

/-- `u` is `s` but for memory, the earlier values that a fetch may see, the pending link, which is `b` for the address
`va`, and the supply of free values. -/
def OnlyMemLL (s u : State) (b : Bool) (va : Word) : Prop :=
  ∃ m l c, u = { s with mem := m, stale := l, freeCtr := c, llbit := b, llAddr := va }

section
variable {s u : State} {b : Bool} {va : Word}

theorem OnlyMemLL.refl (s : State) : OnlyMemLL s s s.llbit s.llAddr := ⟨s.mem, s.stale, s.freeCtr, rfl⟩

theorem OnlyMemLL.storeBytes (h : OnlyMemLL s u b va) (as : List Nat) (v : Word) :
    OnlyMemLL s (u.storeBytes as v) b va := by
  obtain ⟨m, l, c, rfl⟩ := h
  obtain ⟨m', l', hstore⟩ := State.storeBytes_eq as _ v
  exact ⟨m', l', c, hstore⟩

theorem OnlyMemLL.drawn (h : OnlyMemLL s u b va) : OnlyMemLL s u.drawn b va := by
  obtain ⟨m, l, c, rfl⟩ := h
  exact ⟨m, l, c + 1, rfl⟩

theorem OnlyMemLL.setLL (h : OnlyMemLL s u b va) (b' : Bool) : OnlyMemLL s (u.setLL b') b' va := by
  obtain ⟨m, l, c, rfl⟩ := h
  exact ⟨m, l, c, rfl⟩

theorem OnlyMemLL.linked (s : State) (va : Word) : OnlyMemLL s (s.linked va) true va :=
  ⟨s.mem, s.stale, s.freeCtr, rfl⟩

/-- Retiring a value after the memory side: that value alone in the registers, memory and the link as they were left. -/
theorem OnlyMemLL.retire (h : OnlyMemLL s u b va) (rd : Reg) (v : Word) :
    OnlyX s (u.retire rd v) rd v ∧ SameMem u (u.retire rd v) ∧ (u.retire rd v).llbit = b ∧
      (u.retire rd v).llAddr = va ∧ NextPc s (u.retire rd v) ∧ SameF s (u.retire rd v) ∧
      SameCc s (u.retire rd v) ∧ SameFcsr s (u.retire rd v) ∧ SameCsr s (u.retire rd v) ∧
      SameUnits s (u.retire rd v) := by
  obtain ⟨hx, hpc, hf, hcc, hfcsr, hmem, -, hcsr, ⟨hbit, haddr⟩, hunits⟩ := u.retire_onlyX rd v
  obtain ⟨m, l, c, rfl⟩ := h
  exact ⟨hx, hmem, hbit, haddr, hpc, hf, hcc, hfcsr, hcsr, hunits⟩

end

/-! ## Completion by the memory side -/

section
variable {i : Instr} {s u : State} {rd : Reg} {v : Word}

theorem completesRmw_of_retire {as : List Nat} {new : Word} (h : exec i s = .next (u.retire rd v))
    (hu : OnlyMemLL s u s.llbit s.llAddr) (hstored : Stored s u as new) : CompletesRmw i s rd v as new := by
  obtain ⟨hx, hmem, hbit, haddr, hpc, hf, hcc, hfcsr, hcsr, hunits⟩ := hu.retire rd v
  exact ⟨_, h, hx, fun a => (hmem a).trans (hstored a), hpc, hf, hcc, hfcsr, hcsr, ⟨hbit, haddr⟩, hunits⟩

theorem completesLinked_of_retire {va : Word} (h : exec i s = .next (u.retire rd v)) (hu : OnlyMemLL s u true va)
    (hmem : SameMem s u) : CompletesLinked i s rd v va := by
  obtain ⟨hx, hmem', hbit, haddr, hpc, hf, hcc, hfcsr, hcsr, hunits⟩ := hu.retire rd v
  exact ⟨_, h, hx, hbit, haddr, hpc, hf, hcc, hfcsr, fun a => (hmem' a).trans (hmem a), hcsr, hunits⟩

theorem completesCond_of_retire {M : State → Prop} (h : exec i s = .next (u.retire rd v))
    (hu : OnlyMemLL s u false s.llAddr) (hM : ∀ t, SameMem u t → M t) : CompletesCond i s rd v M := by
  obtain ⟨hx, hmem, hbit, haddr, hpc, hf, hcc, hfcsr, hcsr, hunits⟩ := hu.retire rd v
  exact ⟨_, h, hx, hbit, haddr, hM _ hmem, hpc, hf, hcc, hfcsr, hcsr, hunits⟩

/-- A read-modify-write of `n` bytes depends on the low `8 * n` bits of what it stores alone. -/
theorem CompletesRmw.congr {as : List Nat} {new new' : Word} {n : Nat} (h : CompletesRmw i s rd v as new)
    (hl : as.length = n) (hnew : new.setWidth (8 * n) = new'.setWidth (8 * n)) : CompletesRmw i s rd v as new' := by
  obtain ⟨t, he, hx, hstored, hrest⟩ := h
  have hmod : new.toNat % 2 ^ (8 * n) = new'.toNat % 2 ^ (8 * n) := by
    simpa only [BitVec.toNat_setWidth] using congrArg BitVec.toNat hnew
  exact ⟨t, he, hx, hstored.congr hl.le hmod, hrest⟩

end

/-! ## AM* (R540 to R542) -/

theorem State.retireAny_eq_retire (s : State) (rd : Reg) : s.retireAny rd = s.drawn.retire rd s.free := by
  unfold State.retireAny State.retire State.setX
  split <;> rfl

section
variable {i : Instr} {s : State} {size : Nat} {ext : Word → Word} {f : Word → Word → Word} {rd rj rk : Reg}
  {ps : List Phys}

/-- An AM* whose access completes: the old bytes, extended, to rd and the operation's result to memory; with rd = rk,
not r0, free values in both places (R542; log 15). -/
theorem completesRmw_of_amo {v : Nat} {old new : Word} (hm : MemOk s) (h : exec i s = amo size ext f rd rj rk s)
    (hps : Accesses s (s.atomicAccess (s.x rj) size) ps) (hv : v = s.valueAt (physAddrs ps))
    (hold : ext (BitVec.ofNat 64 v) = old) (hnew : f (BitVec.ofNat 64 v) (s.x rk) = new) :
    (rd ≠ rk ∨ rd = 0 → CompletesRmw i s rd old (physAddrs ps) new) ∧
    (rd = rk → rd ≠ 0 → ∃ w m, CompletesRmw i s rd w (physAddrs ps) m) := by
  subst hv hold hnew
  have heff : exec i s = .next (amoEffect ext f rd rk (s.x rk) ps s) := h.trans (access_ok hps)
  have hside w := (OnlyMemLL.refl s).storeBytes (physAddrs ps) w
  rw [← s.loadBytes_eq]
  refine ⟨fun hne => ?_, fun heq h0 => ?_⟩
  · rw [amoEffect, if_neg (not_and_or.2 (hne.imp_right not_not.2))] at heff
    exact completesRmw_of_retire heff (hside _) (State.stored hm.1 _ _)
  · rw [amoEffect, if_pos ⟨heq, h0⟩] at heff
    -- any value in rd is the next free value retired, with one more value drawn
    exact ⟨_, s.free, completesRmw_of_retire (u := (s.storeBytes (physAddrs ps) s.free).drawn.drawn)
      (heff.trans (congrArg Host.Outcome.next (State.retireAny_eq_retire ..))) (hside _).drawn.drawn
      (State.stored hm.1 _ _)⟩

/-- What the two forms of a checked AM* on `w` bits do, plain and `_DB`: INE with rd = rj; else `val` of the old bits to
rd and the low bytes of `new` of them to memory, or any values with rd = rk, not r0. -/
def AmoForms (s : State) (rd rj rk : Reg) (size : Nat) (ps : List Phys) {w : Nat} (val new : BitVec w → Word)
    (c d : Reg → Reg → Reg → Instr) : Prop :=
  ∀ i ∈ [c rd rj rk, d rd rj rk],
    (rd = rj → Raises i s .ine) ∧
    (rd ≠ rj → Accesses s (s.atomicAccess (s.x rj) size) ps →
      (rd ≠ rk ∨ rd = 0 → ∀ old : BitVec w, old = BitVec.ofNat w (s.valueAt (physAddrs ps)) →
        CompletesRmw i s rd (val old) (physAddrs ps) (new old)) ∧
      (rd = rk → rd ≠ 0 → ∃ v m, CompletesRmw i s rd v (physAddrs ps) m))

section
variable {c d : Reg → Reg → Reg → Instr}

theorem amoForms_of_amoChecked {w : Nat} {val new : BitVec w → Word} (hm : MemOk s)
    (hval : ∀ v, ext (BitVec.ofNat 64 v) = val (BitVec.ofNat w v))
    (hnew : ∀ v, (f (BitVec.ofNat 64 v) (s.x rk)).setWidth (8 * size) = (new (BitVec.ofNat w v)).setWidth (8 * size))
    (hc : exec (c rd rj rk) s = amoChecked size ext f rd rj rk s)
    (hd : exec (d rd rj rk) s = amoChecked size ext f rd rj rk s) :
    AmoForms s rd rj rk size ps val new c d := by
  intro i hi
  have h : exec i s = amoChecked size ext f rd rj rk s := by
    rcases List.mem_pair.1 hi with rfl | rfl
    · exact hc
    · exact hd
  refine ⟨fun heq => h.trans (if_pos heq), fun hne hps => ?_⟩
  refine (completesRmw_of_amo hm (h.trans (if_neg hne)) hps rfl (hval _) rfl).imp_left ?_
  rintro hdone hrk _ rfl
  exact (hdone hrk).congr (State.checkAccess_length hps.1) (hnew _)

/-- On words: an operation whose low word is `g` of the low words stores the result of `g`. -/
theorem amoForms_word {g : BitVec 32 → BitVec 32 → BitVec 32} (hm : MemOk s)
    (hf : ∀ x y, low32 (f x y) = g (low32 x) (low32 y))
    (hc : exec (c rd rj rk) s = amoChecked 4 sextW f rd rj rk s)
    (hd : exec (d rd rj rk) s = amoChecked 4 sextW f rd rj rk s) :
    AmoForms s rd rj rk 4 ps (·.signExtend 64) (fun old => (g old ((s.x rk).setWidth 32)).setWidth 64) c d := by
  refine amoForms_of_amoChecked hm sextW_ofNat (fun v => ?_) hc hd
  have hlow : low32 (BitVec.ofNat 64 v) = BitVec.ofNat 32 v := BitVec.setWidth_ofNat_of_le (by decide) v
  rw [BitVec.setWidth_setWidth_of_le _ (by decide), BitVec.setWidth_eq, ← hlow]
  exact hf _ _

/-- On doublewords: the operation itself. -/
theorem amoForms_double {g : Word → Word → Word} (hm : MemOk s) (hf : ∀ x y, f x y = g x y)
    (hc : exec (c rd rj rk) s = amoChecked 8 id f rd rj rk s)
    (hd : exec (d rd rj rk) s = amoChecked 8 id f rd rj rk s) :
    AmoForms s rd rj rk 8 ps (fun old : BitVec 64 => old) (g · (s.x rk)) c d :=
  amoForms_of_amoChecked hm (fun _ => rfl) (fun _ => congrArg _ (hf _ _)) hc hd

end

end

/-! ## The comparisons of the maximum and minimum operations (R557 to R564) -/

section
variable (x y a b : Word)

theorem low32_ite_slt : low32 (if (low32 x).slt (low32 y) then a else b) =
    if (low32 x).toInt < (low32 y).toInt then low32 a else low32 b :=
  (apply_ite low32 _ a b).trans (if_congr BitVec.slt_iff_toInt_lt rfl rfl)

theorem low32_ite_ult : low32 (if (low32 x).ult (low32 y) then a else b) =
    if (low32 x).toNat < (low32 y).toNat then low32 a else low32 b :=
  (apply_ite low32 _ a b).trans (if_congr BitVec.ult_iff_toNat_lt rfl rfl)

theorem ite_slt_eq : (if x.slt y then a else b) = if x.toInt < y.toInt then a else b :=
  if_congr BitVec.slt_iff_toInt_lt rfl rfl

theorem ite_ult_eq : (if x.ult y then a else b) = if x.toNat < y.toNat then a else b :=
  if_congr BitVec.ult_iff_toNat_lt rfl rfl

end

/-! ## AMCAS (R583) -/

/-- The sign extension of a doubleword is the doubleword as it is read. -/
theorem id_ofNat_signed (v : Nat) : id (BitVec.ofNat 64 v) = signedOf 64 v := (BitVec.signExtend_eq _).symm

section
variable {i : Instr} {s : State} {size : Nat} {ext trunc : Word → Word} {rd rj rk : Reg} {ps : List Phys}

/-- The comparison of AMCAS is one of numbers of `size` bytes. -/
theorem ofNat_eq_trunc_iff (hsize : size ≤ 8) (htrunc : ∀ n, trunc (BitVec.ofNat 64 n) = unsignedOf (8 * size) n)
    {v : Nat} (hv : v < 256 ^ size) (y : Word) : BitVec.ofNat 64 v = trunc y ↔ v = y.toNat % 2 ^ (8 * size) := by
  have hwide : 2 ^ (8 * size) ≤ 2 ^ 64 := Nat.pow_le_pow_right (by decide) (by omega)
  have hlow : y.toNat % 2 ^ (8 * size) < 2 ^ (8 * size) := Nat.mod_lt _ (by positivity)
  have hy : trunc y = unsignedOf (8 * size) y.toNat := by rw [← htrunc, BitVec.ofNat_toNat, BitVec.setWidth_eq]
  replace hv : v < 2 ^ (8 * size) := by rwa [pow_mul]
  rw [hy, unsignedOf, ← BitVec.toNat_inj, BitVec.toNat_setWidth, BitVec.toNat_ofNat, BitVec.toNat_ofNat,
    Nat.mod_eq_of_lt (hv.trans_le hwide), Nat.mod_eq_of_lt (hlow.trans_le hwide)]

/-- An AMCAS whose access completes: the bytes to rd, and rk to memory where they equal the low bytes of the old rd. -/
theorem completesRmw_of_amcas (hm : MemOk s) (hsize : size ≤ 8) (h : exec i s = amcas size ext trunc rd rj rk s)
    (hext : ∀ n, ext (BitVec.ofNat 64 n) = signedOf (8 * size) n)
    (htrunc : ∀ n, trunc (BitVec.ofNat 64 n) = unsignedOf (8 * size) n)
    (hps : Accesses s (s.atomicAccess (s.x rj) size) ps) :
    CompletesRmw i s rd (signedOf (8 * size) (s.valueAt (physAddrs ps)))
      (if s.valueAt (physAddrs ps) = (s.x rd).toNat % 2 ^ (8 * size) then physAddrs ps else []) (s.x rk) := by
  have heff : exec i s = .next (amcasEffect ext rd (trunc (s.x rd)) (s.x rk) ps s) := h.trans (access_ok hps)
  have hlen : (physAddrs ps).length = size := State.checkAccess_length hps.1
  have hv : s.valueAt (physAddrs ps) < 256 ^ size := hlen ▸ s.valueAt_lt _
  have hsame := ofNat_eq_trunc_iff hsize htrunc hv (s.x rd)
  rw [amcasEffect, s.loadBytes_eq, hext] at heff
  by_cases heq : s.valueAt (physAddrs ps) = (s.x rd).toNat % 2 ^ (8 * size)
  · rw [if_pos (hsame.2 heq)] at heff
    rw [if_pos heq]
    exact completesRmw_of_retire heff ((OnlyMemLL.refl s).storeBytes ..) (State.stored hm.1 _ _)
  · rw [if_neg (mt hsame.1 heq)] at heff
    rw [if_neg heq]
    exact completesRmw_of_retire heff (.refl s) fun _ => rfl

end

/-! ## LL and SC (R570 to R581) -/

theorem allCached_iff {ps : List Phys} : allCached ps = true ↔ ∀ q ∈ ps, q.mat = 1 := by
  simp [allCached, matCC]

theorem State.loadBytes_linked (s : State) (va : Word) (as : List Nat) :
    (s.linked va).loadBytes as = s.loadBytes as := by
  induction as with
  | nil => rfl
  | cons a as ih => rw [State.loadBytes, ih]; rfl

section
variable {i : Instr} {s : State} {rd : Reg} {ps : List Phys}

/-- An LL or LLACQ whose access completes: the bytes to rd of coherent cached memory, else a free value (R581;
log 16). -/
theorem completesLinked_of_loadLinked {va : Word} {size : Nat} {ext : Word → Word}
    (h : exec i s = loadLinked va size ext rd s) (hext : ∀ n, ext (BitVec.ofNat 64 n) = signedOf (8 * size) n)
    (hps : Accesses s (s.linkedLoad va size) ps) :
    if ∀ q ∈ ps, q.mat = 1 then CompletesLinked i s rd (signedOf (8 * size) (s.valueAt (physAddrs ps))) (s.effVa va)
    else ∃ w, CompletesLinked i s rd w (s.effVa va) := by
  have heff : exec i s = .next (linkedEffect (s.effVa va) ext rd ps s) := h.trans (access_ok hps)
  have hside := OnlyMemLL.linked s (s.effVa va)
  rw [linkedEffect, s.loadBytes_linked, s.loadBytes_eq, hext] at heff
  by_cases hcc : ∀ q ∈ ps, q.mat = 1
  · rw [if_pos (allCached_iff.2 hcc)] at heff
    rw [if_pos hcc]
    exact completesLinked_of_retire heff hside fun _ => rfl
  · rw [if_neg (mt allCached_iff.1 hcc)] at heff
    rw [if_neg hcc]
    exact ⟨_, completesLinked_of_retire heff hside.drawn fun _ => rfl⟩

/-- A store-conditional whose access completes, `M` saying what its store leaves in memory: on coherent cached memory
LLbit decides, on other memory one free bit decides the store and another the flag (R573, R581; log 16). -/
theorem completesCond_of_storeCond {a : Access} {put : List Nat → State → State} {M : State → Prop}
    (h : exec i s = storeCond a put rd s) (hput : OnlyMemLL s (put (physAddrs ps) s) s.llbit s.llAddr)
    (hM : ∀ t, SameMem (put (physAddrs ps) s) t → M t) (hps : Accesses s a ps) :
    if ∀ q ∈ ps, q.mat = 1 then
      (s.llbit = true → CompletesCond i s rd 1 M) ∧
      (s.llbit = false → CompletesCond i s rd 0 fun t => SameMem s t)
    else ∃ b, (b = 0 ∨ b = 1) ∧ CompletesCond i s rd b fun t => SameMem s t ∨ M t := by
  have heff := h.trans (access_ok hps)
  have hidle := (OnlyMemLL.refl s).setLL false
  by_cases hcc : ∀ q ∈ ps, q.mat = 1
  · rw [if_pos (allCached_iff.2 hcc)] at heff
    rw [if_pos hcc]
    refine ⟨fun hll => ?_, fun hll => ?_⟩
    · rw [hll, if_pos rfl] at heff
      exact completesCond_of_retire heff (hput.setLL false) hM
    · rw [hll, if_neg Bool.false_ne_true] at heff
      exact completesCond_of_retire heff hidle fun _ ht => ht
  · rw [if_neg (mt allCached_iff.1 hcc)] at heff
    rw [if_neg hcc]
    refine ⟨boolWord (s.free.getLsbD 0), ?_, ?_⟩
    · cases s.free.getLsbD 0
      · exact .inl rfl
      · exact .inr rfl
    · by_cases hstore : s.free.getLsbD 1 = true
      · rw [if_pos hstore] at heff
        exact completesCond_of_retire heff (hput.setLL false).drawn fun t ht => .inr (hM t ht)
      · rw [if_neg hstore] at heff
        exact completesCond_of_retire heff hidle.drawn fun _ ht => .inl ht

/-- SC and SCREL: the store puts the low bytes of the value at the bytes of the access (R573, R578). -/
theorem completesCond_of_storeBytes {a : Access} {v : Word} (hm : MemOk s)
    (h : exec i s = storeCond a (fun as t => t.storeBytes as v) rd s) (hps : Accesses s a ps) :
    if ∀ q ∈ ps, q.mat = 1 then
      (s.llbit = true → CompletesCond i s rd 1 fun t => Stored s t (physAddrs ps) v) ∧
      (s.llbit = false → CompletesCond i s rd 0 fun t => SameMem s t)
    else ∃ b, (b = 0 ∨ b = 1) ∧ CompletesCond i s rd b fun t => SameMem s t ∨ Stored s t (physAddrs ps) v :=
  completesCond_of_storeCond h ((OnlyMemLL.refl s).storeBytes _ _)
    (fun _ ht a => (ht a).trans (State.stored hm.1 _ _ a)) hps

/-- SC.Q: the low half goes to the first eight bytes of the access, and then the high half to the others (R575). -/
theorem completesCond_of_storeQuad {a : Access} {lo hi : Word} (hm : MemOk s)
    (h : exec i s = storeCond a (fun as t => (t.storeBytes (as.take 8) lo).storeBytes (as.drop 8) hi) rd s)
    (hps : Accesses s a ps) :
    if ∀ q ∈ ps, q.mat = 1 then
      (s.llbit = true → CompletesCond i s rd 1 fun t => StoredQ s t (physAddrs ps) lo hi) ∧
      (s.llbit = false → CompletesCond i s rd 0 fun t => SameMem s t)
    else ∃ b, (b = 0 ∨ b = 1) ∧ CompletesCond i s rd b fun t =>
      SameMem s t ∨ StoredQ s t (physAddrs ps) lo hi := by
  have hlow : MemOk (s.storeBytes ((physAddrs ps).take 8) lo) :=
    State.storeBytes_ok hm fun n hn => State.checkAccess_lt hps.1 n (List.mem_of_mem_take hn)
  exact completesCond_of_storeCond h (((OnlyMemLL.refl s).storeBytes _ _).storeBytes _ _)
    (fun _ ht => ⟨_, State.stored hm.1 _ _, fun a => (ht a).trans (State.stored hlow.1 _ _ a)⟩) hps

end

end Sys2Proof.Machine
end

section
/-! The obligations of the atomic instructions (44_atomic_barrier.md R540 to R587, R950 to R975). -/

namespace Sys2Proof.Machine

/-- Settles O20: each operation by its low words or its doublewords, all by the one rule of a checked AM*. -/
theorem atomicWordDouble : Obligations.AtomicWordDouble := by
  rintro s rd rj rk ps qs _ hm rfl
  refine ⟨fun p hp => ?_, fun p hp => ?_⟩ <;> simp only [List.mem_cons, List.not_mem_nil, or_false] at hp
  · rcases hp with rfl | rfl | rfl | rfl | rfl | rfl | rfl | rfl | rfl
    exacts [amoForms_word (f := amSwap) hm (fun _ _ => rfl) rfl rfl,
      amoForms_word hm (fun x y => BitVec.setWidth_add x y (by decide)) rfl rfl,
      amoForms_word hm (fun _ _ => BitVec.setWidth_and) rfl rfl,
      amoForms_word hm (fun _ _ => BitVec.setWidth_or) rfl rfl,
      amoForms_word hm (fun _ _ => BitVec.setWidth_xor) rfl rfl,
      amoForms_word hm (fun x y => low32_ite_slt x y y x) rfl rfl,
      amoForms_word hm (fun x y => low32_ite_slt y x y x) rfl rfl,
      amoForms_word hm (fun x y => low32_ite_ult x y y x) rfl rfl,
      amoForms_word hm (fun x y => low32_ite_ult y x y x) rfl rfl]
  · rcases hp with rfl | rfl | rfl | rfl | rfl | rfl | rfl | rfl | rfl
    exacts [amoForms_double (f := amSwap) hm (fun _ _ => rfl) rfl rfl,
      amoForms_double hm (fun _ _ => rfl) rfl rfl,
      amoForms_double hm (fun _ _ => rfl) rfl rfl,
      amoForms_double hm (fun _ _ => rfl) rfl rfl,
      amoForms_double hm (fun _ _ => rfl) rfl rfl,
      amoForms_double hm (fun x y => ite_slt_eq x y y x) rfl rfl,
      amoForms_double hm (fun x y => ite_slt_eq y x y x) rfl rfl,
      amoForms_double hm (fun x y => ite_ult_eq x y y x) rfl rfl,
      amoForms_double hm (fun x y => ite_ult_eq y x y x) rfl rfl]

/-- Settles O21: bytes and halfwords by the rule of an AM* without the check of rd against rj. -/
theorem atomicByteHalf : Obligations.AtomicByteHalf := by
  rintro s rd rj rk n ps v hm (rfl | rfl) hps hv
  · rw [if_pos rfl]
    simp only [List.forall_mem_cons]
    have hold := sextB_ofNat v
    exact ⟨completesRmw_of_amo hm rfl hps hv hold rfl, completesRmw_of_amo hm rfl hps hv hold rfl,
      completesRmw_of_amo hm rfl hps hv hold rfl, completesRmw_of_amo hm rfl hps hv hold rfl, List.forall_mem_nil _⟩
  · rw [if_neg (by decide)]
    simp only [List.forall_mem_cons]
    have hold := sextH_ofNat v
    exact ⟨completesRmw_of_amo hm rfl hps hv hold rfl, completesRmw_of_amo hm rfl hps hv hold rfl,
      completesRmw_of_amo hm rfl hps hv hold rfl, completesRmw_of_amo hm rfl hps hv hold rfl, List.forall_mem_nil _⟩

/-- Settles O22: each width by its two extensions. -/
theorem compareAndSwap : Obligations.CompareAndSwap := by
  rintro s rd rj rk ps _ hm rfl
  simp only [List.forall_mem_cons]
  exact ⟨completesRmw_of_amcas hm (by decide) rfl sextB_ofNat zextB_ofNat,
    completesRmw_of_amcas hm (by decide) rfl sextB_ofNat zextB_ofNat,
    completesRmw_of_amcas hm (by decide) rfl sextH_ofNat zextH_ofNat,
    completesRmw_of_amcas hm (by decide) rfl sextH_ofNat zextH_ofNat,
    completesRmw_of_amcas hm (by decide) rfl sextW_ofNat zextW_ofNat,
    completesRmw_of_amcas hm (by decide) rfl sextW_ofNat zextW_ofNat,
    completesRmw_of_amcas hm (by decide) rfl id_ofNat_signed id_ofNat,
    completesRmw_of_amcas hm (by decide) rfl id_ofNat_signed id_ofNat, List.forall_mem_nil _⟩

/-- Settles O23: each form by its address and its width.  (`loadLinked` names the model's operation.) -/
theorem loadLinked_holds : Obligations.LoadLinked := by
  rintro s rd rj si14 ps _ rfl
  simp only [List.forall_mem_cons]
  exact ⟨completesLinked_of_loadLinked rfl sextW_ofNat, completesLinked_of_loadLinked rfl sextW_ofNat,
    completesLinked_of_loadLinked rfl id_ofNat_signed, completesLinked_of_loadLinked rfl id_ofNat_signed,
    List.forall_mem_nil _⟩

/-- Settles O24: each form by what its store leaves in memory, SC.Q by its two halves. -/
theorem storeConditional : Obligations.StoreConditional := by
  intro s rd rj rk si14 ps hm
  simp only [List.forall_mem_cons]
  exact ⟨⟨completesCond_of_storeBytes hm rfl, completesCond_of_storeBytes hm rfl, completesCond_of_storeBytes hm rfl,
    completesCond_of_storeBytes hm rfl, List.forall_mem_nil _⟩, completesCond_of_storeQuad hm rfl⟩

end Sys2Proof.Machine
end

section
/-! SUPPORT. The checksum as a linear division, and the configuration words by their numbers (45_crc_misc.md R600,
R616). -/

namespace Sys2Proof.Machine

/-! ## The division (R600) -/

section
variable (poly x y c m : Word)

/-- Two runs of the division, one after the other. -/
theorem crcSteps_add (k n : Nat) : crcSteps poly (k + n) x = crcSteps poly n (crcSteps poly k x) := by
  induction k generalizing x with
  | zero => rw [Nat.zero_add]; rfl
  | succ k ih => rw [Nat.succ_add]; exact ih _

/-- A step only shifts what is added above bit 0. -/
theorem crcStep_xor (hy : y.getLsbD 0 = false) : crcStep poly (x ^^^ y) = crcStep poly x ^^^ y >>> 1 := by
  unfold crcStep
  rw [BitVec.getLsbD_xor, hy, Bool.xor_false, BitVec.ushiftRight_xor_distrib]
  split
  · rw [BitVec.xor_assoc, BitVec.xor_assoc, BitVec.xor_comm poly]
  · rfl

/-- The first `k` steps only shift what is added above the low `k` bits: the division meets it later. -/
theorem crcSteps_xor (k : Nat) (hy : ∀ i < k, y.getLsbD i = false) :
    crcSteps poly k (x ^^^ y) = crcSteps poly k x ^^^ y >>> k := by
  induction k generalizing x y with
  | zero => rw [BitVec.ushiftRight_zero]; rfl
  | succ k ih =>
    have hy1 : ∀ i < k, (y >>> 1).getLsbD i = false := fun i hi => by
      rw [BitVec.getLsbD_ushiftRight]; exact hy _ (by omega)
    calc crcSteps poly (k + 1) (x ^^^ y)
        = crcSteps poly k (crcStep poly x ^^^ y >>> 1) := congrArg _ (crcStep_xor poly x y (hy 0 (by omega)))
      _ = crcSteps poly k (crcStep poly x) ^^^ y >>> 1 >>> k := ih _ _ hy1
      _ = crcSteps poly (k + 1) x ^^^ y >>> (k + 1) := by rw [← BitVec.shiftRight_add, Nat.add_comm 1]; rfl

variable {poly x}

/-- A checksum of 32 bits stays one under a polynomial of 32 bits. -/
theorem crcStep_lt (hp : poly.toNat < 2 ^ 32) (hx : x.toNat < 2 ^ 32) : (crcStep poly x).toNat < 2 ^ 32 := by
  have hs : (x >>> 1).toNat < 2 ^ 32 := by
    rw [BitVec.toNat_ushiftRight]; exact (Nat.shiftRight_le ..).trans_lt hx
  unfold crcStep
  split
  · rw [BitVec.toNat_xor]; exact Nat.xor_lt_two_pow hs hp
  · exact hs

theorem crcSteps_lt (hp : poly.toNat < 2 ^ 32) (k : Nat) (hx : x.toNat < 2 ^ 32) :
    (crcSteps poly k x).toNat < 2 ^ 32 := by
  induction k generalizing x with
  | zero => exact hx
  | succ k ih => exact ih (crcStep_lt hp hx)

end

/-! ## The checksum (R600) -/

/-- Cutting to the low bits is a mask of ones. -/
theorem and_ones_eq_setWidth (x : Word) (k : Nat) : x &&& BitVec.ofNat 64 (2 ^ k - 1) = (x.setWidth k).setWidth 64 := by
  refine BitVec.eq_of_getLsbD_eq fun i hi => ?_
  rw [BitVec.getLsbD_and, BitVec.getLsbD_ofNat, Nat.testBit_two_pow_sub_one, BitVec.getLsbD_setWidth,
    BitVec.getLsbD_setWidth]
  simp [hi, Bool.and_comm]

theorem zextB_eq_and (x : Word) : zextB x = x &&& 0xFF := (and_ones_eq_setWidth x 8).symm

theorem zextH_eq_and (x : Word) : zextH x = x &&& 0xFFFF := (and_ones_eq_setWidth x 16).symm

theorem zextW_eq_and (x : Word) : zextW x = x &&& 0xFFFFFFFF := (and_ones_eq_setWidth x 32).symm

/-- A 32-bit value as a word is the word. -/
theorem zextW_of_lt {x : Word} (h : x.toNat < 2 ^ 32) : zextW x = x :=
  BitVec.eq_of_toNat_eq (by rw [zextW, BitVec.toNat_setWidth, BitVec.toNat_setWidth]; omega)

theorem toNat_zextW_lt (x : Word) : (zextW x).toNat < 2 ^ 32 := by
  rw [zextW, BitVec.toNat_setWidth, BitVec.toNat_setWidth]; omega

/-- The division that a checksum runs, begun from no checksum. -/
theorem crc32_zero (poly : Word) (n : Nat) (m : Word) : crc32 poly n 0 m = low32 (crcSteps poly n m) := by
  rw [crc32, show zextW 0 = 0#64 from rfl, BitVec.zero_xor]

/-- A message of no bits leaves the checksum and the message added. -/
theorem crc32_no_bits (poly c m : Word) : crc32 poly 0 c m = (c ^^^ m).setWidth 32 := by
  refine BitVec.eq_of_getLsbD_eq fun i hi => ?_
  have h64 : i < 64 := by omega
  simp [crc32, crcSteps, low32, zextW, hi, h64]

/-- One step of the division for the first bit of the message. -/
theorem crc32_succ (poly c m : Word) (n : Nat) :
    crc32 poly (n + 1) c m = crc32 poly n 0 (crcStep poly ((c &&& 0xFFFFFFFF) ^^^ m)) := by
  rw [crc32_zero, crc32, zextW_eq_and]; rfl

/-- The checksum of a byte is the word that eight steps of the division make. -/
theorem setWidth_crc32_byte {poly : Word} (hp : poly.toNat < 2 ^ 32) (c m : Word) :
    zextW ((crc32 poly 8 c (m &&& 0xFF)).setWidth 64) = crcSteps poly 8 (zextW c ^^^ (m &&& 0xFF)) := by
  have hb : (m &&& 0xFF).toNat < 2 ^ 32 := by
    rw [BitVec.toNat_and]; exact Nat.and_lt_two_pow _ (by decide)
  have hx : (zextW c ^^^ (m &&& 0xFF)).toNat < 2 ^ 32 := by
    rw [BitVec.toNat_xor]; exact Nat.xor_lt_two_pow (toNat_zextW_lt c) hb
  have hs := crcSteps_lt hp 8 hx
  have hw : (crc32 poly 8 c (m &&& 0xFF)).setWidth 64 = crcSteps poly 8 (zextW c ^^^ (m &&& 0xFF)) := zextW_of_lt hs
  rw [hw, zextW_of_lt hs]

/-- A message and its lowest byte, taken first: eight steps leave the rest of the message shifted down by a byte. -/
theorem crc32_byte_first {poly : Word} (hp : poly.toNat < 2 ^ 32) (c m : Word) (n : Nat) :
    crc32 poly (8 + n) c m = crc32 poly n ((crc32 poly 8 c (m &&& 0xFF)).setWidth 64) (m >>> 8) := by
  have hff (i : Nat) : (0xFF : Word).getLsbD i = decide (i < 8) := Nat.testBit_two_pow_sub_one 8 i
  have hsplit : m = (m &&& 0xFF) ^^^ (m &&& ~~~0xFF) := by
    refine BitVec.eq_of_getLsbD_eq fun i hi => ?_
    rw [BitVec.getLsbD_xor, BitVec.getLsbD_and, BitVec.getLsbD_and, BitVec.getLsbD_not]
    cases (0xFF : Word).getLsbD i <;> simp [hi]
  have hlow : ∀ i < 8, (m &&& ~~~0xFF).getLsbD i = false := fun i hi => by
    rw [BitVec.getLsbD_and, BitVec.getLsbD_not, hff]; simp [hi]
  have hrest : (m &&& ~~~0xFF) >>> 8 = m >>> 8 := by
    refine BitVec.eq_of_getLsbD_eq fun i hi => ?_
    rw [BitVec.getLsbD_ushiftRight, BitVec.getLsbD_ushiftRight, BitVec.getLsbD_and, BitVec.getLsbD_not, hff]
    by_cases h : 8 + i < 64
    · simp [h]
    · simp [BitVec.getLsbD_of_ge m (8 + i) (by omega)]
  have hsteps : crcSteps poly 8 (zextW c ^^^ m) = crcSteps poly 8 (zextW c ^^^ (m &&& 0xFF)) ^^^ m >>> 8 := by
    conv_lhs => rw [hsplit]
    rw [← BitVec.xor_assoc, crcSteps_xor _ _ _ 8 hlow, hrest]
  rw [crc32, crcSteps_add, hsteps, ← setWidth_crc32_byte hp]
  rfl

/-- A checksum instruction retires the checksum of the message cut to its width. -/
theorem completesX_of_crcOp {i : Instr} {s : State} {poly v : Word} {w : Nat} {trunc : Word → Word} {rd rj rk : Reg}
    (h : exec i s = crcOp poly w trunc rd rj rk s) (hv : trunc (s.x rj) = v) :
    CompletesX i s rd ((crc32 poly w (s.x rk) v).signExtend 64) :=
  completesX_of_retire_eq h (congrArg (fun m => sext32 (crc32 poly w (s.x rk) m)) hv)

/-! ## The configuration words (R616) -/

/-- The words 1, 2, 3 and 6 of the reference configuration (D1; log 1). -/
theorem cpucfg_words : ∀ p ∈ [(1#64, 0x03F2F2FE#32), (2, 0x7E60C00F), (3, 0xFC00), (6, 0x3F33)],
    Config.cpucfg p.1 = p.2 := by
  simp only [List.forall_mem_cons]
  exact ⟨rfl, rfl, rfl, rfl, List.forall_mem_nil _⟩

/-- A word whose number names none reads 0. -/
theorem cpucfg_undefined {n : Word} (h : 6 < n.toNat ∧ n.toNat < 16 ∨ 20 < n.toNat) : Config.cpucfg n = 0 := by
  have hne (k : Nat) (hk : k ≤ 6 ∨ k = 16) : n ≠ OfNat.ofNat k := by
    rintro rfl
    change 6 < (BitVec.ofNat 64 k).toNat ∧ (BitVec.ofNat 64 k).toNat < 16 ∨ 20 < (BitVec.ofNat 64 k).toNat at h
    rw [BitVec.toNat_ofNat] at h
    omega
  have hcache : ¬ (0x10 < n ∧ n ≤ 0x14) := by
    rw [BitVec.lt_def, BitVec.le_def]
    have h10 : (0x10 : Word).toNat = 16 := rfl
    have h14 : (0x14 : Word).toNat = 20 := rfl
    omega
  rw [Config.cpucfg, if_neg (hne 0 (by decide)), if_neg (hne 1 (by decide)), if_neg (hne 2 (by decide)),
    if_neg (hne 3 (by decide)), if_neg (hne 4 (by decide)), if_neg (hne 5 (by decide)), if_neg (hne 6 (by decide)),
    if_neg (hne 16 (by decide)), if_neg hcache]

/-- CPUCFG retires the word that the register numbers. -/
theorem completesX_cpucfg {s : State} {rj : Reg} {w : BitVec 32} (h : Config.cpucfg (s.x rj) = w) (rd : Reg) :
    CompletesX (.cpucfg rd rj) s rd (w.signExtend 64) := completesX_of_retire_eq rfl (congrArg sext32 h)

end Sys2Proof.Machine
end

section
/-! SUPPORT. The assertions and the reading of the Stable Counter (45_crc_misc.md R611 to R615, R617). -/

namespace Sys2Proof.Machine

section
variable {i : Instr} {s : State}

/-- An assertion does nothing where `p` holds, and raises BCE with some address where it fails (R611; log 21). -/
theorem asserts_of_assertTrue {c : Bool} {p : Prop} [Decidable p] (h : exec i s = assertTrue c s) (hc : c = true ↔ p) :
    if p then CompletesNothing i s else ∃ a, exec i s = .next (s.drawn.raise (.bce a)) := by
  by_cases hp : p
  · rw [if_pos hp]
    exact completesNothing_of_advance (h.trans (congrArg Host.Outcome.next (if_pos (hc.2 hp))))
  · rw [if_neg hp]
    exact ⟨_, h.trans (congrArg Host.Outcome.next (if_neg (mt hc.1 hp)))⟩

/-! ## The Stable Counter (R612 to R615) -/

theorem State.rdtimeDisabled_iff :
    s.rdtimeDisabled = true ↔ s.plv ≠ 0 ∧ s.csr.basic.misc.getLsbD (4 + s.plv.toNat) = true := by
  rw [State.rdtimeDisabled, Bool.and_eq_true, bne_iff_ne]

/-- The high half of the counter, sign-extended, is the counter shifted down (R613). -/
theorem sext32_bits_high (t : Word) : sext32 (bits t 32 32) = t.sshiftRight 32 := by
  refine BitVec.eq_of_getLsbD_eq fun i hi => ?_
  have hmsb : (bits t 32 32).msb = t.msb := by
    rw [BitVec.msb_eq_getLsbD_last, BitVec.msb_eq_getLsbD_last, getLsbD_bits]; rfl
  rw [BitVec.getLsbD_sshiftRight, sext32, BitVec.getLsbD_signExtend, hmsb, getLsbD_bits]
  by_cases h : i < 32
  · simp [h, hi, (by omega : 32 + i < 64)]
  · rw [if_neg h, if_neg (by omega : ¬ 32 + i < 64), decide_eq_true hi, decide_eq_false (Nat.not_le.2 hi)]; rfl

/-- What a reading of the counter does: a part `v` of it to rd and the Counter ID to rj, unless MISC.DRDTL forbids it;
with rd = rj one of the two (R615; log 28). -/
def ReadsTime (i : Instr) (s : State) (rd rj : Reg) (v id : Word) : Prop :=
  if s.plv ≠ 0 ∧ s.csr.basic.misc.getLsbD (4 + s.plv.toNat) = true then Raises i s .ipe
  else if rd = rj ∧ rd ≠ 0 then CompletesX i s rd v ∨ CompletesX i s rd id
  else ∃ u, exec i s = .next u ∧
    (∀ r, u.x r = if r = 0 then 0 else if r = rd then v else if r = rj then id else s.x r) ∧ NextPc s u ∧ SameButX s u

/-- A result in rd after a value in rj changes those two, rd's value last. -/
theorem State.setX_retire_x (s : State) (rd rj r : Reg) (v id : Word) :
    ((s.setX rj id).retire rd v).x r = if r = 0 then 0 else if r = rd then v else if r = rj then id else s.x r := by
  rw [((s.setX rj id).retire_onlyX rd v).1 r, State.x_setX]
  by_cases h0 : r = 0
  · subst h0
    rw [if_neg (fun h => h.2 h.1.symm), if_neg (fun h => h.2 h.1.symm), if_pos rfl, State.x_zero]
  · have hne {k : Reg} : (r = k ∧ k ≠ 0) ↔ r = k := ⟨And.left, fun h => ⟨h, h ▸ h0⟩⟩
    simp only [hne, if_neg h0]

/-- A result in rd leaves all but the registers as it was before rj was written. -/
theorem State.setX_retire_sameButX (s : State) (rd rj : Reg) (v id : Word) :
    NextPc s ((s.setX rj id).retire rd v) ∧ SameButX s ((s.setX rj id).retire rd v) := by
  obtain ⟨-, hpc, hsame⟩ := (s.setX rj id).retire_onlyX rd v
  have hs : ∃ g, s.setX rj id = { s with gpr := g } := by
    unfold State.setX
    split
    · exact ⟨s.gpr, rfl⟩
    · exact ⟨_, rfl⟩
  obtain ⟨g, hg⟩ := hs
  rw [hg] at hpc hsame ⊢
  exact ⟨hpc, hsame⟩

/-- An instruction that runs `rdtime` reads its part of the counter. -/
theorem readsTime_of_rdtime {part : Word → Word} {rd rj : Reg} {v : Word} (h : exec i s = rdtime part rd rj s)
    (hv : part (s.stable + s.csr.timer.cntc) = v) : ReadsTime i s rd rj v (s.csr.timer.tid.signExtend 64) := by
  subst hv
  unfold ReadsTime
  unfold rdtime at h
  split
  next hd => exact h.trans (if_pos (State.rdtimeDisabled_iff.2 hd))
  next hd =>
    rw [if_neg (mt State.rdtimeDisabled_iff.1 hd)] at h
    split
    next hr =>
      rw [if_pos hr] at h
      have hone (w : Word) (hw : exec i s = .next (s.drawn.retire rd w)) : CompletesX i s rd w :=
        ⟨_, hw, s.drawn.retire_onlyX rd w⟩
      cases hb : s.free.getLsbD 0 with
      | true => exact .inl (hone _ (by rw [h, hb]; rfl))
      | false => exact .inr (hone _ (by rw [h, hb]; rfl))
    next hr => exact ⟨_, h.trans (if_neg hr), fun r => s.setX_retire_x rd rj r _ _, s.setX_retire_sameButX rd rj _ _⟩

end

end Sys2Proof.Machine
end

section
/-! SUPPORT. The timer after some ticks: stopped, still counting, or expired (13_csr_timer_ras_perf_watch_debug.md R154,
R155). -/

namespace Sys2Proof.Machine

/-- The bit that is set in a value. -/
theorem getLsbD_withBit {n i : Nat} (x : BitVec n) (b : Bool) (hi : i < n) : (withBit x i b).getLsbD i = b := by
  rw [withBit, getLsbD_withBits, if_pos (by omega), Nat.sub_self]
  cases b <;> rfl

section
variable {s : State} {n : Nat}

/-- What the ticks make of the registers is what they make of the timer. -/
theorem State.tick_csr : (s.tick n).csr = (s.tickTimer n).csr := by
  unfold State.tick State.tickTimer
  dsimp only
  repeat' split
  all_goals rfl

/-- A timer that is not enabled, or has expired for good, stands still. -/
theorem State.tickTimer_of_stopped (h : s.csr.timer.tcfg.getLsbD 0 = false ∨ s.csr.timer.tval = 0) :
    s.tickTimer n = s := if_pos (by rwa [Bool.or_eq_true, Bool.not_eq_true', decide_eq_true_eq])

section
variable (hen : s.csr.timer.tcfg.getLsbD 0 = true) (hv : s.csr.timer.tval ≠ 0)
include hen hv

/-- A timer that counts: whether the ticks reach its end. -/
theorem State.tickTimer_of_counting : s.tickTimer n =
    if n < s.csr.timer.tval.toNat then s.setTimer { s.csr.timer with tval := s.csr.timer.tval - BitVec.ofNat 64 n }
    else (s.setTimer { s.csr.timer with tval := BitVec.ofNat 64 (timerExpired s.csr.timer n) }).setBasic
      { s.csr.basic with estat := withBit s.csr.basic.estat 11 true } := by
  refine if_neg ?_
  rw [Bool.or_eq_true, Bool.not_eq_true', decide_eq_true_eq, hen]
  exact fun h => h.elim nofun hv

/-- Before its end the timer counts down and sets no flag. -/
theorem State.tickTimer_of_lt (hn : n < s.csr.timer.tval.toNat) :
    (s.tickTimer n).csr.timer.tval.toNat = s.csr.timer.tval.toNat - n ∧ (s.tickTimer n).csr.basic = s.csr.basic := by
  have hlt : n < 2 ^ 64 := hn.trans s.csr.timer.tval.isLt
  have hle : BitVec.ofNat 64 n ≤ s.csr.timer.tval := by
    rw [BitVec.le_def, BitVec.toNat_ofNat, Nat.mod_eq_of_lt hlt]; exact hn.le
  have hsub : (s.csr.timer.tval - BitVec.ofNat 64 n).toNat = s.csr.timer.tval.toNat - n := by
    rw [BitVec.toNat_sub_of_le hle, BitVec.toNat_ofNat, Nat.mod_eq_of_lt hlt]
  rw [State.tickTimer_of_counting hen hv, if_pos hn]
  exact ⟨hsub, rfl⟩

/-- At its end TI is set, and the timer holds what it starts again from. -/
theorem State.tickTimer_of_le (hn : s.csr.timer.tval.toNat ≤ n) :
    (s.tickTimer n).csr.basic.estat.getLsbD 11 = true ∧
    (s.tickTimer n).csr.timer.tval = BitVec.ofNat 64 (timerExpired s.csr.timer n) := by
  rw [State.tickTimer_of_counting hen hv, if_neg (Nat.not_lt.2 hn)]
  exact ⟨getLsbD_withBit s.csr.basic.estat true (by decide), rfl⟩

end
end

/-- A one-shot timer stays at 0. -/
theorem timerExpired_of_oneShot {c : TimerCsrs} (h : c.tcfg.getLsbD 1 = false) (n : Nat) : timerExpired c n = 0 :=
  if_neg fun hp => Bool.eq_false_iff.1 h hp.1

/-- A periodic timer starts again at its end from its initial value. -/
theorem timerExpired_of_periodic {c : TimerCsrs} (h : c.tcfg.getLsbD 1 = true) :
    timerExpired c c.tval.toNat = timerInit c := by
  unfold timerExpired
  rw [Nat.sub_self, Nat.zero_mod, Nat.sub_zero]
  split
  · rfl
  next hn => exact (not_not.1 fun h0 => hn ⟨h, h0⟩).symm

/-- The initial value is TCFG without its two low bits (R151). -/
theorem ofNat_timerInit (c : TimerCsrs) : BitVec.ofNat 64 (timerInit c) = c.tcfg &&& ~~~3 := by
  have hm : ∀ i < 64, (~~~3 : Word).getLsbD i = decide (2 ≤ i) := by decide
  refine BitVec.eq_of_getLsbD_eq fun i hi => ?_
  rw [timerInit, BitVec.getLsbD_and, hm i hi, BitVec.getLsbD_ofNat, Nat.testBit_mul_two_pow (i := 2),
    Nat.testBit_div_two_pow (n := 2)]
  by_cases h : 2 ≤ i
  · simp [h, hi, BitVec.getLsbD]
  · simp [h]

/-- The timer interrupt that software sees is the flag of ESTAT (R78). -/
theorem State.getLsbD_is_timer (s : State) : s.is.getLsbD 11 = s.csr.basic.estat.getLsbD 11 := by
  rw [State.is, BitVec.getLsbD_append, if_neg (by decide), BitVec.getLsbD_append, if_neg (by decide),
    BitVec.getLsbD_append, if_neg (by decide), BitVec.getLsbD_append, if_pos (by decide), getLsbD_bits]
  rfl

/-- TICLR.CLR clears the flag (13 R154). -/
theorem State.csrWrite_ticlr_clears (s : State) : (s.csrWrite .ticlr 1).is.getLsbD 11 = false := by
  rw [State.getLsbD_is_timer]
  exact getLsbD_withBit s.csr.basic.estat false (by decide)

end Sys2Proof.Machine
end

section
/-! The obligations of the checksums, the calls, the assertions, the Stable Counter and the timer (45_crc_misc.md; 13
R154, R155). -/

namespace Sys2Proof.Machine

/-- Settles O11: the forms by their messages, a wide message by the linearity of the division, and the configuration
words by number. -/
theorem crcAndCpucfg : Obligations.CrcAndCpucfg := by
  intro s rd rj rk
  have hb := zextB_eq_and (s.x rj)
  have hh := zextH_eq_and (s.x rj)
  have hw := zextW_eq_and (s.x rj)
  refine ⟨completesX_of_crcOp rfl hb, completesX_of_crcOp rfl hh, completesX_of_crcOp rfl hw,
    completesX_of_crcOp rfl rfl, completesX_of_crcOp rfl hb, completesX_of_crcOp rfl hh, completesX_of_crcOp rfl hw,
    completesX_of_crcOp rfl rfl,
    completesX_cpucfg rfl rd, fun p hp hx => completesX_cpucfg (hx ▸ cpucfg_words p hp) rd,
    fun hx => completesX_cpucfg (cpucfg_undefined hx) rd, crc32_no_bits, ?_, ?_⟩
  · rintro poly c m v n rfl
    exact crc32_succ poly c m n
  · intro poly c m n hn hp _
    have h8 : n = 8 + (n - 8) := (by decide : ∀ n ∈ [16, 32, 64], n = 8 + (n - 8)) n hn
    exact (congrArg (crc32 poly · c m) h8).trans (crc32_byte_first hp c m (n - 8))

/-- Settles O54: the three readings by the part of the counter they take; the timer by the ticks to its end. -/
theorem timeAndTimer : Obligations.TimeAndTimer := by
  constructor
  · rintro s rd rj _ _ rfl rfl
    simp only [List.forall_mem_cons]
    exact ⟨readsTime_of_rdtime rfl rfl,
      readsTime_of_rdtime (part := fun t => sext32 (bits t 32 32)) rfl (sext32_bits_high _),
      readsTime_of_rdtime (part := id) rfl rfl, List.forall_mem_nil _⟩
  · rintro s _ n _ rfl rfl
    rw [State.tick_csr]
    refine ⟨congrArg State.stable (s.tick_eq n), fun h => congrArg State.csr (State.tickTimer_of_stopped h),
      fun hen hv => ⟨State.tickTimer_of_lt hen hv, fun hn => ?_⟩, s.csrWrite_ticlr_clears⟩
    obtain ⟨hti, htval⟩ := State.tickTimer_of_le hen hv hn
    refine ⟨hti, fun hone => ?_, fun hper hend => ?_⟩
    · rw [htval, timerExpired_of_oneShot hone]
      rfl
    · rw [htval, hend, timerExpired_of_periodic hper, ofNat_timerInit]

/-- Settles O12: the two calls raise their exceptions, and each assertion is the model's test on integers. -/
theorem callsAndAssertions : Obligations.CallsAndAssertions := fun _ _ _ _ =>
  ⟨rfl, rfl, asserts_of_assertTrue rfl not_slt_iff_toInt_le, asserts_of_assertTrue rfl BitVec.slt_iff_toInt_lt⟩

end Sys2Proof.Machine
end

section
/-! SUPPORT. Floating-point data by their fields: what inverting the sign leaves, what a datum packed from its sign and
magnitude reads back, and how the classes of data exclude each other (10_state.md R27). -/

namespace Sys2Proof.Machine

/-- What the two formats have in common: an Exponent and a Fraction of some length, data that fit a word, and exponents
that lie less than 4096 apart, so that they have few bits themselves and an amount of 5000 scales beyond them. -/
structure Fmt.Fits (F : Fmt) : Prop where
  frac_ge : 12 ≤ F.frac
  expBits_ge : 5 ≤ F.expBits
  signBit_lt : F.signBit < 64
  span_lt : 2 * F.bias + F.frac < 4096

theorem Fmt.single_fits : single.Fits := ⟨by decide, by decide, by decide, by decide⟩

theorem Fmt.double_fits : double.Fits := ⟨by decide, by decide, by decide, by decide⟩

theorem Fmt.fits_of_mem {F : Fmt} (h : F ∈ [single, double]) : F.Fits := by
  simp only [List.mem_cons, List.not_mem_nil, or_false] at h
  rcases h with rfl | rfl
  · exact single_fits
  · exact double_fits

/-- The two formats with their default QNaNs (R653). -/
theorem fits_qnan_of_mem {p : Fmt × Word} (h : p ∈ [(single, 0x7FC00000#64), (double, 0x7FF8000000000000#64)]) :
    p.1.Fits ∧ p.1.qnan = p.2 := by
  simp only [List.mem_cons, List.not_mem_nil, or_false] at h
  rcases h with rfl | rfl
  · exact ⟨Fmt.single_fits, rfl⟩
  · exact ⟨Fmt.double_fits, rfl⟩

section
variable {F : Fmt} {w : Word}

/-! ## The fields of a datum -/

theorem Fmt.mag_lt (F : Fmt) (w : Word) : F.mag w < 2 ^ F.signBit := Nat.mod_lt _ (Nat.two_pow_pos _)

theorem Fmt.fraction_lt (F : Fmt) (w : Word) : F.fraction w < 2 ^ F.frac := Nat.mod_lt _ (Nat.two_pow_pos _)

theorem Fmt.fraction_eq_mag_mod (F : Fmt) (w : Word) : F.fraction w = F.mag w % 2 ^ F.frac :=
  (Nat.mod_mod_of_dvd _ (pow_dvd_pow 2 (Nat.le_add_right F.frac F.expBits))).symm

/-- Exponent and Fraction make up the magnitude. -/
theorem Fmt.expo_mul_add_fraction (F : Fmt) (w : Word) : F.expo w * 2 ^ F.frac + F.fraction w = F.mag w := by
  rw [F.fraction_eq_mag_mod]
  exact Nat.div_add_mod' _ _

theorem Fmt.expo_lt (F : Fmt) (w : Word) : F.expo w < 2 ^ F.expBits :=
  Nat.div_lt_of_lt_mul (by rw [← Nat.pow_add]; exact F.mag_lt w)

/-- The largest Exponent is twice the bias and one more. -/
theorem Fmt.Fits.expMax_eq (h : F.Fits) : 2 ^ F.expBits - 1 = 2 * F.bias + 1 := by
  have hp := Nat.two_pow_pos (F.expBits - 1)
  have hs := Nat.pow_succ 2 (F.expBits - 1)
  rw [Nat.succ_eq_add_one, Nat.sub_add_cancel (by have := h.expBits_ge; omega)] at hs
  unfold Fmt.bias
  omega

theorem Fmt.Fits.bias_ge (h : F.Fits) : 15 ≤ F.bias :=
  Nat.le_sub_one_of_lt (Nat.pow_le_pow_right (n := 2) (i := 4) (by decide) (Nat.le_sub_one_of_lt h.expBits_ge))

/-! ## Classes of data -/

/-- A datum is an infinity, a NaN or finite. -/
theorem Fmt.class_cases (F : Fmt) (w : Word) : F.isInf w = true ∨ F.isNan w = true ∨ F.isFinite w = true := by
  unfold isInf isNan isFinite
  by_cases he : F.expo w = 2 ^ F.expBits - 1 <;> by_cases hf : F.fraction w = 0 <;> simp [he, hf]

theorem Fmt.isNan_of_isFinite (hf : F.isFinite w = true) : F.isNan w = false := (of_isFinite hf).2.1

theorem Fmt.isNan_of_isInf (hi : F.isInf w = true) : F.isNan w = false := (of_isInf hi).2.1

/-- A datum whose Exponent is 0 is finite. -/
theorem Fmt.Fits.isFinite_of_expo (h : F.Fits) (he : F.expo w = 0) : F.isFinite w = true := by
  have := h.expMax_eq
  simp [isFinite, he]
  omega

theorem Fmt.expo_of_isZero (hz : F.isZero w = true) : F.expo w = 0 := by
  rw [expo, beq_iff_eq.mp hz, Nat.zero_div]

/-- A zero is finite. -/
theorem Fmt.Fits.isFinite_of_isZero (h : F.Fits) (hz : F.isZero w = true) : F.isFinite w = true :=
  h.isFinite_of_expo (expo_of_isZero hz)

/-- An infinity is not a zero. -/
theorem Fmt.Fits.isZero_of_isInf (h : F.Fits) (hi : F.isInf w = true) : F.isZero w = false := by
  by_contra hz
  have := h.isFinite_of_isZero (Bool.not_eq_false _ ▸ hz)
  rw [(of_isInf hi).1] at this
  cases this

/-! ## The sign inverted -/

theorem Fmt.Fits.sign_negate (h : F.Fits) (w : Word) : F.sign (F.negate w) = !F.sign w := by
  simp [sign, negate, h.signBit_lt]

@[simp] theorem Fmt.mag_negate (F : Fmt) (w : Word) : F.mag (F.negate w) = F.mag w := by
  have hz : (1#64 <<< F.signBit).toNat % 2 ^ F.signBit = 0 := by
    rw [BitVec.toNat_shiftLeft, Nat.shiftLeft_eq]
    rcases Nat.lt_or_ge F.signBit 64 with hs | hs
    · rw [Nat.mod_mod_of_dvd _ (pow_dvd_pow 2 hs.le)]
      simp
    · rw [Nat.mod_eq_zero_of_dvd (Dvd.dvd.mul_left (pow_dvd_pow 2 hs) _), Nat.zero_mod]
  rw [mag, negate, BitVec.toNat_xor, Nat.xor_mod_two_pow, hz, Nat.xor_zero, mag]

@[simp] theorem Fmt.expo_negate (F : Fmt) (w : Word) : F.expo (F.negate w) = F.expo w := by simp [expo]

@[simp] theorem Fmt.fraction_negate (F : Fmt) (w : Word) : F.fraction (F.negate w) = F.fraction w := by
  simp [fraction_eq_mag_mod]

@[simp] theorem Fmt.isNan_negate (F : Fmt) (w : Word) : F.isNan (F.negate w) = F.isNan w := by simp [isNan]

@[simp] theorem Fmt.isInf_negate (F : Fmt) (w : Word) : F.isInf (F.negate w) = F.isInf w := by simp [isInf]

/-- The value of a datum with its sign inverted. -/
theorem Fmt.Fits.value_negate (h : F.Fits) (w : Word) :
    F.value (F.negate w) = { F.value w with neg := !F.sign w } := by
  unfold value
  rw [expo_negate, fraction_negate, h.sign_negate]
  split <;> rfl

/-- The number that a datum with its sign inverted is. -/
theorem Fmt.Fits.rat_value_negate (h : F.Fits) (w : Word) : (F.value (F.negate w)).rat = -F.num w := by
  rw [h.value_negate, num, Exact.rat, Exact.rat, value_neg]
  cases F.sign w <;> simp

/-! ## Data packed from a sign and a magnitude -/

theorem Fmt.Fits.toNat_pack (h : F.Fits) (b : Bool) {m : Nat} (hm : m < 2 ^ F.signBit) :
    (F.pack b m).toNat = (if b then 2 ^ F.signBit else 0) + m := by
  have hp : 2 ^ F.signBit * 2 ≤ 2 ^ 64 :=
    (Nat.pow_succ ..).symm.trans_le (Nat.pow_le_pow_right (by decide) h.signBit_lt)
  rw [pack, BitVec.toNat_ofNat, Nat.mod_eq_of_lt]
  split <;> omega

theorem Fmt.Fits.mag_pack (h : F.Fits) (b : Bool) {m : Nat} (hm : m < 2 ^ F.signBit) : F.mag (F.pack b m) = m := by
  rw [mag, h.toNat_pack b hm]
  cases b <;> simp [Nat.mod_eq_of_lt hm]

theorem Fmt.Fits.sign_pack (h : F.Fits) (b : Bool) {m : Nat} (hm : m < 2 ^ F.signBit) : F.sign (F.pack b m) = b := by
  rw [sign, ← BitVec.testBit_toNat, h.toNat_pack b hm]
  cases b
  · simpa using Nat.testBit_lt_two_pow hm
  · simpa [Nat.testBit_two_pow_add_eq] using Nat.testBit_lt_two_pow hm

/-- A datum of the format is its sign and its magnitude. -/
theorem Fmt.Fits.pack_sign_mag (h : F.Fits) (hw : w.toNat < 2 ^ (F.signBit + 1)) : F.pack (F.sign w) (F.mag w) = w := by
  refine BitVec.eq_of_toNat_eq ?_
  have hd := Nat.div_add_mod w.toNat (2 ^ F.signBit)
  have hb : w.toNat / 2 ^ F.signBit = (F.sign w).toNat := by
    rw [Nat.pow_succ] at hw
    have hlt : w.toNat / 2 ^ F.signBit < 2 := Nat.div_lt_of_lt_mul hw
    rw [sign, ← BitVec.testBit_toNat, Nat.testBit_eq_decide_div_mod_eq]
    rcases Nat.le_one_iff_eq_zero_or_eq_one.mp (Nat.le_of_lt_succ hlt) with h0 | h1
    · simp [h0]
    · simp [h1]
  rw [h.toNat_pack _ (F.mag_lt w), ← hd, hb, mag]
  cases F.sign w <;> simp

end

end Sys2Proof.Machine
end

section
/-! SUPPORT. The shapes of the floating-point arithmetic instructions (46_fp_arith.md R632, R633): a result that is
finished with its exceptions, and one that leaves fcsr0 alone. -/

namespace Sys2Proof.Machine

/-! ## fcsr0 (R633) -/

/-- Cause and Flags are apart. -/
theorem State.fpFlags_setCause (s : State) (e : FpExc) : (s.setCause e).fpFlags = s.fpFlags := by
  refine BitVec.eq_of_getLsbD_eq fun i hi => ?_
  have h24 : ¬24 ≤ 16 + i := by omega
  simp [State.fpFlags, State.setCause, bits, hi, getLsbD_withBits, h24]

/-- The exceptions of an operation that does not trap are recorded. -/
theorem State.fpRecorded_joinFlags (s : State) (e : FpExc) : FpRecorded s ((s.setCause e).joinFlags e) e := by
  have hj : ((s.setCause e).joinFlags e).fcsr0 =
      withBits (s.setCause e).fcsr0 16 ((s.setCause e).fpFlags ||| e) := rfl
  rw [FpRecorded, hj, State.fpFlags_setCause]
  rfl

section
variable {i : Instr} {s u : State} {fd : FReg} {o : FpOut}

/-! ## The state with one more floating-point register written -/

theorem State.setF_advance_onlyF (s : State) (fd : FReg) (v : Word) :
    OnlyF s (s.setF fd v).advance fd v ∧ NextPc s (s.setF fd v).advance ∧ SameFcsr s (s.setF fd v).advance ∧
      SameButF s (s.setF fd v).advance :=
  ⟨fun r => s.f_setF fd r v, rfl, rfl, fun _ => rfl, fun _ => rfl, fun _ => rfl, rfl, rfl, ⟨rfl, rfl⟩,
    ⟨rfl, rfl, rfl, rfl, rfl, rfl, rfl, rfl⟩⟩

theorem State.setFS_advance_onlyFs (s : State) (fd : FReg) (v : BitVec 32) :
    OnlyFs s (s.setFS fd v).advance fd v ∧ NextPc s (s.setFS fd v).advance ∧ SameFcsr s (s.setFS fd v).advance ∧
      SameButF s (s.setFS fd v).advance :=
  ⟨⟨s.fs_setFS fd v, fun _ => s.f_setFS_ne v⟩, rfl, rfl, fun _ => rfl, fun _ => rfl, fun _ => rfl, rfl, rfl, ⟨rfl, rfl⟩,
    ⟨rfl, rfl, rfl, rfl, rfl, rfl, rfl, rfl⟩⟩

/-! ## Results finished with their exceptions (R633) -/

/-- A trap leaves what the operation drew, and Cause. -/
theorem fpFinish_trap {e : FpExc} {w : State → State} (h : ¬NoTrap s e) :
    fpFinish s e w = .next ((s.setCause e).raise .fpe) :=
  if_pos (by simpa [NoTrap] using h)

/-- An operation that writes its destination as `P` says and leaves fcsr0 to the record of its exceptions: it completes
or traps (R633). -/
theorem finishes_of_fpFinish {e : FpExc} {w : State → State} {P : State → State → Prop} (hon : FpOn s)
    (hu : u = s ∨ u = s.drawn) (h : exec i s = floating s (fpFinish u e w))
    (hP : ∀ c t, c.fpr = s.fpr → P c t → P s t)
    (hw : ∀ c, P c (w c).advance ∧ NextPc c (w c).advance ∧ SameFcsr c (w c).advance ∧ SameButF c (w c).advance) :
    (NoTrap s e → ∃ t, exec i s = .next t ∧ P s t ∧ FpRecorded s t e ∧ NextPc s t ∧ SameButF s t) ∧
      (¬NoTrap s e → ∃ u, (u = s ∨ u = s.drawn) ∧ exec i s = .next ((u.setCause e).raise .fpe)) := by
  rw [floating_on hon] at h
  obtain ⟨hdest, hpc, hfcsr, hsame⟩ := hw ((u.setCause e).joinFlags e)
  have hn : NoTrap u e ↔ NoTrap s e := by rcases hu with rfl | rfl <;> rfl
  refine ⟨fun hq => ⟨_, h.trans (fpFinish_quiet (hn.2 hq)), hP _ _ ?_ hdest, ?_, ?_, ?_⟩,
    fun ht => ⟨u, hu, h.trans (fpFinish_trap (mt hn.1 ht))⟩⟩
  · rcases hu with rfl | rfl <;> rfl
  · rcases hu with rfl | rfl <;> exact hfcsr.trans (State.fpRecorded_joinFlags _ e)
  · rcases hu with rfl | rfl <;> exact hpc
  · rcases hu with rfl | rfl <;> exact hsame

theorem finishesD_of_fpD (hon : FpOn s) (hu : u = s ∨ u = s.drawn) (h : exec i s = floating s (fpD u fd o)) :
    FinishesD i s fd o :=
  finishes_of_fpFinish (P := fun c t => OnlyF c t fd o.val) hon hu h
    (fun _ _ hc hf r => (hf r).trans (by rw [State.f_congr hc])) fun c => c.setF_advance_onlyF fd o.val

theorem finishesS_of_fpS (hon : FpOn s) (hu : u = s ∨ u = s.drawn) (h : exec i s = floating s (fpS u fd o)) :
    FinishesS i s fd o :=
  finishes_of_fpFinish (P := fun c t => OnlyFs c t fd (low32 o.val)) hon hu h
    (fun _ _ hc ⟨hfd, hf⟩ => ⟨hfd, fun r hr => (hf r hr).trans (State.f_congr hc r)⟩)
    fun c => c.setFS_advance_onlyFs fd (low32 o.val)

/-! ## Results that leave fcsr0 alone (D38) -/

theorem completesF_of_fpQuietD {v w : Word} (hon : FpOn s) (h : exec i s = floating s (fpQuietD s fd v)) (hv : v = w) :
    CompletesF i s fd w :=
  hv ▸ ⟨_, h.trans (floating_on hon), s.setF_advance_onlyF fd v⟩

theorem completesFs_of_fpQuietS {v : Word} {w : BitVec 32} (hon : FpOn s) (h : exec i s = floating s (fpQuietS s fd v))
    (hv : low32 v = w) : CompletesFs i s fd w :=
  hv ▸ ⟨_, h.trans (floating_on hon), s.setFS_advance_onlyFs fd (low32 v)⟩

end

end Sys2Proof.Machine
end

section
/-! SUPPORT. Rounding (46_fp_arith.md R634): when the units kept go up by one, and the values short enough to be their
own rounding. -/

namespace Sys2Proof.Machine

section
variable {rm : BitVec 2} {neg : Bool} {n r d : Nat}

/-! ## Rounding up in magnitude -/

/-- Nothing left over rounds nothing up. -/
theorem roundsUp_of_exact : roundsUp rm neg n 0 d = false := by
  have := (Nat.two_pow_pos d).ne
  unfold roundsUp
  split_ifs <;> simp [this]

theorem roundsUp_nearest : roundsUp 0 neg n r d = true ↔ 2 ^ d < 2 * r ∨ 2 * r = 2 ^ d ∧ n % 2 = 1 := by simp [roundsUp]

/-- Toward zero in magnitude: by mode 1, and by the mode toward the infinity of the other sign. -/
theorem roundsUp_toward_zero (h : rm = 1 ∨ (rm = 2 ∧ neg = true) ∨ (rm = 3 ∧ neg = false)) :
    roundsUp rm neg n r d = false := by
  rcases h with rfl | ⟨rfl, rfl⟩ | ⟨rfl, rfl⟩ <;> simp [roundsUp]

/-- Away from zero: by the mode toward the infinity of the same sign. -/
theorem roundsUp_away (h : (rm = 2 ∧ neg = false) ∨ (rm = 3 ∧ neg = true)) :
    roundsUp rm neg n r d = true ↔ r ≠ 0 := by
  rcases h with ⟨rfl, rfl⟩ | ⟨rfl, rfl⟩ <;> simp [roundsUp]

end

section
variable {rm : BitVec 2} {v : Exact} {q : Int} {n d : Nat} {x : Bool}

/-! ## Whole units -/

/-- A unit no larger than that of the value cuts nothing off. -/
theorem roundUnits_of_le (rm : BitVec 2) (h : q ≤ v.e) : roundUnits rm v q = (v.m * 2 ^ (v.e - q).toNat, false) :=
  if_pos h

/-- A larger unit cuts `d` bits off: `k` units are kept and `r` is left over, and the units go up by one or not. -/
theorem roundUnits_of_lt (h : roundUnits rm v q = (n, x)) (hq : v.e < q) (hd : d = (q - v.e).toNat) :
    ∃ k r, v.m = k * 2 ^ d + r ∧ r < 2 ^ d ∧ (x = false ↔ r = 0) ∧
      (roundsUp rm v.neg k r d = true ∧ n = k + 1 ∨ roundsUp rm v.neg k r d = false ∧ n = k) := by
  unfold roundUnits at h
  rw [if_neg (not_le.2 hq), ← hd] at h
  obtain ⟨rfl, rfl⟩ := Prod.ext_iff.1 h
  refine ⟨v.m / 2 ^ d, v.m % 2 ^ d, (Nat.div_add_mod' ..).symm, Nat.mod_lt _ (Nat.two_pow_pos d), by simp, ?_⟩
  cases hu : roundsUp rm v.neg (v.m / 2 ^ d) (v.m % 2 ^ d) d <;> simp [hu]

end

section
variable {F : Fmt} {v : Exact}

/-! ## Values that need no rounding -/

/-- A magnitude of at most p bits brought to p bits. -/
theorem log2_leading {m f : Nat} (h0 : m ≠ 0) (hm : m < 2 ^ (f + 1)) :
    m.log2 ≤ f ∧ 2 ^ f ≤ m * 2 ^ (f - m.log2) ∧ m * 2 ^ (f - m.log2) < 2 ^ (f + 1) := by
  have hle : m.log2 ≤ f := Nat.le_of_lt_succ ((Nat.log2_lt h0).2 hm)
  refine ⟨hle, ?_, ?_⟩
  · calc 2 ^ f = 2 ^ m.log2 * 2 ^ (f - m.log2) := by rw [← Nat.pow_add, Nat.add_sub_cancel' hle]
      _ ≤ _ := Nat.mul_le_mul_right _ (Nat.log2_self_le h0)
  · calc m * 2 ^ (f - m.log2) < 2 ^ (m.log2 + 1) * 2 ^ (f - m.log2) :=
          Nat.mul_lt_mul_of_pos_right Nat.lt_log2_self (Nat.two_pow_pos _)
      _ = 2 ^ (f + 1) := by rw [← Nat.pow_add]; congr 1; omega

/-- A value of at most p bits overflows, is tiny, or is rounded to itself. -/
theorem Fmt.round_of_short (rm : BitVec 2) (ue : Bool) (h0 : v.m ≠ 0) (hm : v.m < 2 ^ (F.frac + 1)) :
    F.round rm ue v =
      if (F.bias : Int) < v.e + v.m.log2 then ⟨F.overflow rm v.neg, excO ||| excI⟩
      else if v.e + v.m.log2 < F.emin then F.roundTiny rm ue v
      else ⟨F.packUnits v.neg (v.m * 2 ^ (F.frac - v.m.log2)) (v.e + v.m.log2 - F.frac), 0⟩ := by
  obtain ⟨hle, hlo, hhi⟩ := log2_leading h0 hm
  have hn : (v.m * 2 ^ (F.frac - v.m.log2)).log2 = F.frac :=
    (Nat.log2_eq_iff (by have := Nat.two_pow_pos F.frac; omega)).2 ⟨hlo, hhi⟩
  have hr : roundUnits rm v (v.e + v.m.log2 - F.frac) = (v.m * 2 ^ (F.frac - v.m.log2), false) := by
    rw [roundUnits_of_le rm (by omega)]
    congr 3
    omega
  unfold round
  simp only [h0, if_false, hr, hn, sub_add_cancel, Bool.false_eq_true]

/-- The datum of units of `2^(qmin + t)`. -/
theorem Fmt.packUnits_qmin_add (F : Fmt) (neg : Bool) (n t : Nat) :
    F.packUnits neg n (F.qmin + t) = F.pack neg (t * 2 ^ F.frac + n) := by
  unfold packUnits
  congr 1
  rw [add_sub_cancel_left]
  exact_mod_cast Int.toNat_natCast _

/-- A datum is the sign and the units of its value. -/
theorem Fmt.packUnits_value (F : Fmt) (w : Word) :
    F.packUnits (F.value w).neg (F.value w).m (F.value w).e = F.pack (F.sign w) (F.mag w) := by
  have hmag := F.expo_mul_add_fraction w
  unfold value
  split
  · rename_i he
    rw [he, Nat.zero_mul, Nat.zero_add] at hmag
    have := F.packUnits_qmin_add (F.sign w) (F.fraction w) 0
    rw [Nat.zero_mul, Nat.zero_add, Nat.cast_zero, add_zero] at this
    exact hmag ▸ this
  · rename_i he
    have := F.packUnits_qmin_add (F.sign w) (2 ^ F.frac + F.fraction w) (F.expo w - 1)
    rw [← Nat.add_assoc, ← Nat.succ_mul, Nat.succ_eq_add_one, Nat.sub_add_cancel (Nat.pos_of_ne_zero he), hmag] at this
    rw [← this]
    congr 1
    simp only
    omega

/-- The units of a finite datum are p bits at most, and p bits above the quantum of the subnormals. -/
theorem Fmt.value_bounds (F : Fmt) (w : Word) :
    (F.value w).m < 2 ^ (F.frac + 1) ∧ F.qmin ≤ (F.value w).e ∧
      ((F.value w).e = F.qmin ∨ 2 ^ F.frac ≤ (F.value w).m) := by
  have hf := F.fraction_lt w
  have hp := Nat.pow_succ 2 F.frac
  unfold value
  split
  · exact ⟨by simp only; omega, le_refl _, .inl rfl⟩
  · exact ⟨by simp only; omega, by simp only; omega, .inr (Nat.le_add_right ..)⟩

/-- The value of a finite datum does not exceed the largest. -/
theorem Fmt.Fits.value_le (h : F.Fits) {w : Word} (hf : F.isFinite w = true) : (F.value w).e + F.frac ≤ F.bias := by
  have he := F.expo_lt w
  have hmax := h.expMax_eq
  have hbias := h.bias_ge
  have hne : F.expo w ≠ 2 ^ F.expBits - 1 := by simpa [isFinite] using hf
  unfold value qmin emin
  split <;> simp only <;> omega

/-- The datum of p bits of units within the exponents of the format: its value is those units. -/
theorem Fmt.Fits.value_packUnits (h : F.Fits) (neg : Bool) {n : Nat} {q : Int} (hlo : 2 ^ F.frac ≤ n)
    (hhi : n < 2 ^ (F.frac + 1)) (hq : F.qmin ≤ q) (hmax : q + F.frac ≤ F.bias) :
    F.isFinite (F.packUnits neg n q) = true ∧ F.value (F.packUnits neg n q) = ⟨neg, n, q⟩ := by
  obtain ⟨t, rfl⟩ := Int.le.dest hq
  obtain ⟨f, rfl⟩ := Nat.exists_eq_add_of_le hlo
  have hf : f < 2 ^ F.frac := by rw [Nat.pow_succ] at hhi; omega
  have hmaxq := h.expMax_eq
  have ht : t + 1 < 2 ^ F.expBits - 1 := by unfold qmin emin at hmax; omega
  have hm : t * 2 ^ F.frac + (2 ^ F.frac + f) = (t + 1) * 2 ^ F.frac + f := by ring
  have hlt : (t + 1) * 2 ^ F.frac + f < 2 ^ F.signBit := by
    calc (t + 1) * 2 ^ F.frac + f < (t + 1) * 2 ^ F.frac + 2 ^ F.frac := Nat.add_lt_add_left hf _
      _ = (t + 2) * 2 ^ F.frac := by ring
      _ ≤ 2 ^ F.expBits * 2 ^ F.frac := Nat.mul_le_mul_right _ (by omega)
      _ = 2 ^ F.signBit := by rw [← Nat.pow_add, Nat.add_comm]; rfl
  rw [F.packUnits_qmin_add, hm]
  have hexpo : F.expo (F.pack neg ((t + 1) * 2 ^ F.frac + f)) = t + 1 := by
    rw [expo, h.mag_pack neg hlt, Nat.mul_comm, Nat.mul_add_div (Nat.two_pow_pos _), Nat.div_eq_of_lt hf, Nat.add_zero]
  have hfrac : F.fraction (F.pack neg ((t + 1) * 2 ^ F.frac + f)) = f := by
    rw [F.fraction_eq_mag_mod, h.mag_pack neg hlt, Nat.mul_comm, Nat.mul_add_mod, Nat.mod_eq_of_lt hf]
  constructor
  · simpa [isFinite, hexpo] using ht.ne
  · rw [value, if_neg (by rw [hexpo]; exact Nat.succ_ne_zero t), h.sign_pack neg hlt, hexpo, hfrac]
    congr 1
    push_cast
    ring

end

end Sys2Proof.Machine
end

section
/-! SUPPORT. The arithmetic operations class by class of their operands: NaNs, numbers, infinities and zeros
(46_fp_arith.md R634 to R653). -/

namespace Sys2Proof.Machine

section
variable {F : Fmt} {rm : BitVec 2} {ue : Bool} {x y z : Word} {k : FpOut}

/-! ## Operands without a NaN -/

theorem Fmt.orNan_one (hx : F.isNan x = false) : F.orNan [x] k = k := orNan_of_none (by simp [hx])

theorem Fmt.orNan_two (hx : F.isNan x = false) (hy : F.isNan y = false) : F.orNan [x, y] k = k :=
  orNan_of_none (by simp [hx, hy])

/-- The NaN result of the operands, where there is none. -/
theorem Fmt.nanOf_three (hz : F.isNan z = false) (hx : F.isNan x = false) (hy : F.isNan y = false) :
    F.nanOf [z, x, y] = none := by
  simp [nanOf, isSnan, hx, hy, hz]

/-! ## Addition and subtraction (R636 to R639) -/

section
variable (hx : F.isNan x = false) (hy : F.isNan y = false)
include hx hy

/-- The sum of operands that are no NaNs. -/
theorem Fmt.add_eq : F.add rm ue x y =
    if F.isInf x then (if F.isInf y && F.sign x != F.sign y then F.invalid else .quiet x)
    else if F.isInf y then .quiet y
    else F.round rm ue (exactSum rm (F.value x) (F.value y)) := orNan_two hx hy

/-- The difference of operands that are no NaNs is the sum with the subtrahend's sign inverted. -/
theorem Fmt.sub_eq : F.sub rm ue x y = F.add rm ue x (F.negate y) := orNan_two hx hy

end

/-- The sum of numbers, rounded once (R634, R636). -/
theorem Fmt.add_rounds (hx : F.isFinite x = true) (hy : F.isFinite y = true) :
    F.Rounds rm ue (if F.sign x = F.sign y then F.sign x else rm == 3) (F.num x + F.num y) (F.add rm ue x y) := by
  obtain ⟨hxi, hxn, -⟩ := of_isFinite hx
  obtain ⟨hyi, hyn, -⟩ := of_isFinite hy
  rw [add_eq hxn hyn, hxi, hyi]
  refine rounds_self (exactSum_rat rm _ _) ?_
  have hs := exactSum_neg rm (F.value x) (F.value y)
  rwa [value_neg, value_neg] at hs

/-- The statements' name for a datum with its sign inverted, and the model's. -/
theorem Fmt.opposite_eq_negate (F : Fmt) (w : Word) : F.opposite w = F.negate w := rfl

/-- Addition and subtraction are as `SumsRight` says. -/
theorem Fmt.Fits.sumsRight (h : F.Fits) (rm : BitVec 2) (ue : Bool) (x y : Word) : F.SumsRight F.qnan rm ue x y := by
  have hsign := h.sign_negate y
  refine ⟨F.orNan_passes _ _, F.orNan_passes _ _, fun hx hy => ⟨add_rounds hx hy, ?_⟩, fun hx hy => ?_, fun hx hy => ?_,
    fun hx hy => ?_⟩
  · have hy' : F.isFinite (F.negate y) = true := by simpa [isFinite] using hy
    have hr := add_rounds (rm := rm) (ue := ue) hx hy'
    rw [sub_eq (isNan_of_isFinite hx) (isNan_of_isFinite hy), sub_eq_add_neg, ← h.rat_value_negate]
    have hz : (if F.sign x = F.sign y then rm == 3 else F.sign x) =
        if F.sign x = F.sign (F.negate y) then F.sign x else rm == 3 := by
      rw [hsign]
      cases F.sign x <;> cases F.sign y <;> rfl
    rw [hz]
    exact hr
  · obtain ⟨-, hxn, -⟩ := of_isInf hx
    obtain ⟨hyi, hyn, -⟩ := of_isFinite hy
    rw [sub_eq hxn hyn, add_eq hxn hyn, add_eq hxn (F.isNan_negate y ▸ hyn)]
    simp [hx, hyi, FpOut.quiet]
  · obtain ⟨hxi, hxn, -⟩ := of_isFinite hx
    obtain ⟨-, hyn, -⟩ := of_isInf hy
    rw [sub_eq hxn hyn, add_eq hxn hyn, add_eq hxn (F.isNan_negate y ▸ hyn)]
    simp [hxi, hy, FpOut.quiet, opposite_eq_negate]
  · obtain ⟨-, hxn, -⟩ := of_isInf hx
    obtain ⟨-, hyn, -⟩ := of_isInf hy
    rw [sub_eq hxn hyn, add_eq hxn hyn, add_eq hxn (F.isNan_negate y ▸ hyn), hsign]
    by_cases hs : F.sign x = F.sign y <;> simp [hx, hy, hs, FpOut.quiet, invalid]

/-! ## Multiplication and division (R640 to R643) -/

section
variable (hx : F.isNan x = false) (hy : F.isNan y = false)
include hx hy

/-- The product of operands that are no NaNs. -/
theorem Fmt.mul_eq : F.mul rm ue x y =
    if F.isInf x || F.isInf y then
      (if F.isZero x || F.isZero y then F.invalid else .quiet (F.inf (F.sign x != F.sign y)))
    else F.round rm ue (exactProduct (F.value x) (F.value y)) := orNan_two hx hy

/-- The quotient of operands that are no NaNs. -/
theorem Fmt.div_eq : F.div rm ue x y =
    if F.isInf x then (if F.isInf y then F.invalid else .quiet (F.inf (F.sign x != F.sign y)))
    else if F.isInf y then .quiet (F.pack (F.sign x != F.sign y) 0)
    else if F.isZero y then (if F.isZero x then F.invalid else ⟨F.inf (F.sign x != F.sign y), excZ⟩)
    else F.round rm ue (quotient F.prec (F.value x) (F.value y)) := orNan_two hx hy

end

/-- The quotient of numbers has the sign of their product, and is 0 where it is. -/
theorem div_sign_iff_mul (a b : ℚ) (p : Prop) :
    (if a / b = 0 then p else a / b < 0) ↔ if a * b = 0 then p else a * b < 0 := by
  simp only [div_eq_zero_iff, mul_eq_zero, div_neg_iff, mul_neg_iff]

section
variable (hx : F.isFinite x = true) (hy : F.isFinite y = true)
include hx hy

/-- The product of numbers, rounded once (R634, R640). -/
theorem Fmt.mul_rounds : F.Rounds rm ue (F.sign x != F.sign y) (F.num x * F.num y) (F.mul rm ue x y) := by
  obtain ⟨hxi, hxn, -⟩ := of_isFinite hx
  obtain ⟨hyi, hyn, -⟩ := of_isFinite hy
  have hs := exactProduct_neg (F.value x) (F.value y)
  rw [value_neg, value_neg] at hs
  rw [mul_eq hxn hyn, hxi, hyi]
  exact rounds_self (exactProduct_rat _ _) hs

/-- The quotient by a number other than 0, rounded once (R634, R642). -/
theorem Fmt.div_rounds (hz : F.isZero y = false) :
    F.Rounds rm ue (F.sign x != F.sign y) (F.num x / F.num y) (F.div rm ue x y) := by
  obtain ⟨hxi, hxn, -⟩ := of_isFinite hx
  obtain ⟨hyi, hyn, -⟩ := of_isFinite hy
  have hy0 : (F.value y).m ≠ 0 := by rw [Ne, value_eq_zero, hz]; exact Bool.false_ne_true
  have hs := exactProduct_neg (F.value x) (F.value y)
  rw [value_neg, value_neg] at hs
  rw [div_eq hxn hyn, hxi, hyi, hz]
  exact ⟨_, rfl, (hs.trans (div_sign_iff_mul ..).symm), fun n k hn => quotient_among F.prec _ _ hy0 hn⟩

end

/-- Multiplication and division are as `ProductsRight` says. -/
theorem Fmt.Fits.productsRight (h : F.Fits) (rm : BitVec 2) (ue : Bool) (x y : Word) :
    F.ProductsRight F.qnan rm ue x y := by
  refine ⟨F.orNan_passes _ _, F.orNan_passes _ _, ?_⟩
  rintro _ rfl
  refine ⟨fun hx hy => ⟨mul_rounds hx hy, div_rounds hx hy, fun hz => ?_⟩, fun hx hy => ?_, fun hx hy => ?_,
    fun hx hy => ?_⟩
  · obtain ⟨hxi, hxn, -⟩ := of_isFinite hx
    obtain ⟨hyi, hyn, -⟩ := of_isFinite hy
    rw [div_eq hxn hyn]
    simp [hxi, hyi, hz, invalid]
  · obtain ⟨-, hxn, -⟩ := of_isInf hx
    obtain ⟨hyi, hyn, -⟩ := of_isFinite hy
    rw [mul_eq hxn hyn, div_eq hxn hyn]
    simp [hx, hyi, h.isZero_of_isInf hx, invalid, FpOut.quiet]
  · obtain ⟨hxi, hxn, -⟩ := of_isFinite hx
    obtain ⟨-, hyn, -⟩ := of_isInf hy
    rw [mul_eq hxn hyn, div_eq hxn hyn]
    simp [hxi, hy, h.isZero_of_isInf hy, invalid, FpOut.quiet]
  · obtain ⟨-, hxn, -⟩ := of_isInf hx
    obtain ⟨-, hyn, -⟩ := of_isInf hy
    rw [mul_eq hxn hyn, div_eq hxn hyn]
    simp [hx, hy, h.isZero_of_isInf hx, h.isZero_of_isInf hy, invalid, FpOut.quiet]

/-! ## The fused operations (R644 to R652) -/

/-- The condition under which a product has no value, whatever the addend (R635; D39). -/
theorem Fmt.bad_iff {bad : Bool}
    (h : bad = true ↔ (F.isZero x = true ∧ F.isInf y = true) ∨ (F.isInf x = true ∧ F.isZero y = true)) :
    ((F.isInf x && F.isZero y) || (F.isZero x && F.isInf y)) = bad := by
  rw [Bool.eq_iff_iff, h, or_comm]
  simp

/-- The fused operation on operands of which one is a NaN: V is joined where the product has no value (D39). -/
theorem Fmt.fma_of_nan {r : FpOut} (hr : F.nanOf [z, x, y] = some r) : F.fma rm ue x y z =
    if (F.isInf x && F.isZero y) || (F.isZero x && F.isInf y) then ⟨r.val, r.exc ||| excV⟩ else r := by
  simp only [fma, hr]

/-- The fused operation on operands that are no NaNs. -/
theorem Fmt.fma_eq (hx : F.isNan x = false) (hy : F.isNan y = false) (hz : F.isNan z = false) : F.fma rm ue x y z =
    if (F.isInf x && F.isZero y) || (F.isZero x && F.isInf y) then F.invalid
    else if F.isInf x || F.isInf y then
      (if F.isInf z && F.sign z != (F.sign x != F.sign y) then F.invalid else .quiet (F.inf (F.sign x != F.sign y)))
    else if F.isInf z then .quiet z
    else F.round rm ue (exactSum rm (exactProduct (F.value x) (F.value y)) (F.value z)) := by
  simp only [fma, nanOf_three hz hx hy]

/-- The fused operation is as `FusesRight` says. -/
theorem Fmt.fusesRight (F : Fmt) (rm : BitVec 2) (ue : Bool) (x y z : Word) : F.FusesRight F.qnan rm ue x y z := by
  rintro _ bad rfl hbad
  have hb := bad_iff hbad
  refine ⟨⟨fun w hw => ?_, fun hs w hw => ?_⟩, fun hx hy hz => ?_⟩
  · rw [fma_of_nan (r := ⟨F.quieted w, excV⟩) (by simp only [nanOf, hw]), hb]
    cases bad <;> simp [quieted]
  · rw [fma_of_nan (r := .quiet w) (by simp only [nanOf, hs, hw, Option.map_some]), hb]
    cases bad <;> simp [FpOut.quiet]
  · rw [fma_eq hx hy hz, hb]
    refine ⟨fun ht => ?_, fun hf hi => ?_, fun hxf hyf => ?_⟩
    · rw [ht]
      rfl
    · rw [hf]
      simp [Bool.or_eq_true .. ▸ hi, invalid, FpOut.quiet]
    · obtain ⟨hxi, -⟩ := of_isFinite hxf
      obtain ⟨hyi, -⟩ := of_isFinite hyf
      have hf : bad = false := by rw [← hb, hxi, hyi, Bool.false_and, Bool.and_false, Bool.or_false]
      rw [hf, hxi, hyi]
      refine ⟨fun hzi => ?_, fun hzf => ?_⟩
      · rw [hzi]
        rfl
      · obtain ⟨hzi, -⟩ := of_isFinite hzf
        have hs := exactSum_neg rm (exactProduct (F.value x) (F.value y)) (F.value z)
        have hp : (exactProduct (F.value x) (F.value y)).neg = (F.sign x != F.sign y) := by simp [exactProduct]
        have hr := exactSum_rat rm (exactProduct (F.value x) (F.value y)) (F.value z)
        rw [exactProduct_rat] at hr hs
        rw [hp, value_neg] at hs
        rw [hzi]
        exact rounds_self hr hs

/-- A NaN result of either sign: its exceptions and its magnitude stay (R653; log 26). -/
theorem Fmt.Fits.freeNanSign_spec (h : F.Fits) (pick : Bool) (r : FpOut) :
    (F.freeNanSign pick r).exc = r.exc ∧
      if F.isNan r.val = true then F.mag (F.freeNanSign pick r).val = F.mag r.val
      else (F.freeNanSign pick r).val = r.val := by
  unfold freeNanSign
  split
  · exact ⟨rfl, h.mag_pack pick (F.mag_lt _)⟩
  · exact ⟨rfl, rfl⟩

/-- The negated forms are as `FusesNegated` says. -/
theorem Fmt.Fits.fusesNegated (h : F.Fits) (rm : BitVec 2) (ue pick : Bool) (x y z : Word) :
    F.FusesNegated rm ue pick x y z := by
  rintro o p rfl rfl
  have hneg := fun r : FpOut => h.freeNanSign_spec pick ⟨F.negate r.val, r.exc⟩
  simp only [isNan_negate, mag_negate] at hneg
  simp only [List.forall_mem_cons]
  exact ⟨h.freeNanSign_spec pick _, hneg _, hneg _, List.forall_mem_nil _⟩

end

end Sys2Proof.Machine
end

section
/-! SUPPORT. Maximum and minimum, the operations on the sign bit, and the class of a datum (46_fp_arith.md R654 to
R671). -/

namespace Sys2Proof.Machine

/-! ## Maximum and minimum (R654) -/

section
variable {F : Fmt} {x y : Word} {before : Word → Word → Prop} {f : Word → Word → Word}

/-- The function picks one of two data, the one that goes before where one does. -/
def PicksBefore (before : Word → Word → Prop) (f : Word → Word → Word) : Prop :=
  ∀ x y, (f x y = x ∨ f x y = y) ∧ (before x y → f x y = x) ∧ (before y x → f x y = y)

/-- Of equal operands either results (log 27). -/
theorem picksBefore_either (pick : Bool) : PicksBefore (fun _ _ => False) (either pick) := by
  intro x y
  cases pick
  · exact ⟨.inr rfl, False.elim, False.elim⟩
  · exact ⟨.inl rfl, False.elim, False.elim⟩

/-- A function that picks by a measure, and by `k` where the measures are equal. -/
theorem picksBefore_lex {α : Type} [LinearOrder α] {g : Word → α} {k : Word → Word → Word}
    {before after : Word → Word → Prop} (hk : PicksBefore after k)
    (hb : ∀ x y, before x y ↔ g x < g y ∨ g x = g y ∧ after x y)
    (hf : ∀ x y, f x y = if g x < g y then x else if g y < g x then y else k x y) : PicksBefore before f := by
  intro x y
  rw [hf, hb, hb]
  rcases lt_trichotomy (g x) (g y) with h | h | h
  · simp [h, h.not_gt, h.ne']
  · simpa [h] using hk x y
  · simp [h, h.not_gt, h.ne']

theorem Fmt.larger_picksBefore (F : Fmt) (pick : Bool) : PicksBefore (FpBefore true F) (F.larger pick) :=
  picksBefore_lex (g := fun w => OrderDual.toDual (F.order w)) (picksBefore_either pick) (by simp [FpBefore])
    fun _ _ => rfl

theorem Fmt.smaller_picksBefore (F : Fmt) (pick : Bool) : PicksBefore (FpBefore false F) (F.smaller pick) :=
  picksBefore_lex (g := F.order) (picksBefore_either pick) (by simp [FpBefore]) fun _ _ => rfl

theorem Fmt.largerMag_picksBefore (F : Fmt) (pick : Bool) : PicksBefore (FpBeforeMag true F) (F.largerMag pick) :=
  picksBefore_lex (g := fun w => OrderDual.toDual (F.mag w)) (F.larger_picksBefore pick) (by simp [FpBeforeMag])
    fun _ _ => rfl

theorem Fmt.smallerMag_picksBefore (F : Fmt) (pick : Bool) : PicksBefore (FpBeforeMag false F) (F.smallerMag pick) :=
  picksBefore_lex (g := F.mag) (F.smaller_picksBefore pick) (by simp [FpBeforeMag]) fun _ _ => rfl

/-- With an SNaN among the operands the NaN result is that SNaN quieted, with V (R653). -/
theorem Fmt.nanOf_of_isSnan {ws : List Word} (h : ∃ w ∈ ws, F.isSnan w = true) :
    ∃ w, F.nanOf ws = some ⟨w, excV⟩ := by
  obtain ⟨w, hw⟩ := Option.isSome_iff_exists.1 (List.find?_isSome.2 h)
  exact ⟨F.quieted w, by simp only [nanOf, hw]⟩

/-- The result of two operands is as R654 has it. -/
theorem PicksBefore.fpSelects (hf : PicksBefore before f) (F : Fmt) (x y : Word) :
    FpSelects F before x y (F.select f x y) := by
  obtain ⟨hone, hxy, hyx⟩ := hf x y
  unfold Fmt.select
  refine ⟨fun hs => ?_, fun hx hy => ?_⟩
  · obtain ⟨w, hw⟩ := Fmt.nanOf_of_isSnan (F := F) (ws := [x, y]) (by simpa using hs)
    refine ⟨w, hw, ?_⟩
    rw [if_pos (by rcases hs with h | h <;> simp [h]), Fmt.orNan, hw]
    rfl
  · cases hxn : F.isNan x <;> cases hyn : F.isNan y
    · simpa [hx, hy, FpOut.quiet] using ⟨hone, hxy, hyx⟩
    · simp [hx, hy, FpOut.quiet]
    · simp [hx, hy, FpOut.quiet]
    · simp [hx, hy, hxn, Fmt.orNan, Fmt.nanOf, FpOut.quiet]

end

/-! ## The sign bit (R663 to R668) -/

/-- A datum with its sign replaced, bit by bit. -/
theorem Fmt.Fits.getLsbD_pack_mag {F : Fmt} (h : F.Fits) (b : Bool) (w : Word) (i : Nat) :
    (F.pack b (F.mag w)).getLsbD i = if i = F.signBit then b else decide (i < F.signBit) && w.getLsbD i := by
  rw [← BitVec.testBit_toNat, h.toNat_pack b (F.mag_lt w)]
  have hm : (F.mag w).testBit i = (decide (i < F.signBit) && w.getLsbD i) := by
    rw [mag, Nat.testBit_mod_two_pow, BitVec.testBit_toNat]
  cases b
  · rw [if_neg Bool.false_ne_true, Nat.zero_add, hm]
    split
    · rename_i hi
      simp [hi]
    · rfl
  · have hor := Nat.two_pow_add_eq_or_of_lt (F.mag_lt w) 1
    rw [Nat.mul_one] at hor
    rw [if_pos rfl, hor, Nat.testBit_or, hm, Nat.testBit_two_pow]
    simp only [eq_comm (a := F.signBit)]
    by_cases hi : i = F.signBit <;> simp [hi]

/-- The bits of a datum's magnitude. -/
def Fmt.magMask (F : Fmt) : BitVec (F.signBit + 1) := (BitVec.allOnes F.signBit).setWidth _

/-- The bit of a datum's sign. -/
def Fmt.signMask (F : Fmt) : BitVec (F.signBit + 1) := 1#(F.signBit + 1) <<< F.signBit

section
variable {F : Fmt} {i : Nat} (hi : i < F.signBit + 1)
include hi

theorem Fmt.getLsbD_magMask : F.magMask.getLsbD i = decide (i < F.signBit) := by simp [magMask, hi]

theorem Fmt.getLsbD_signMask : F.signMask.getLsbD i = decide (i = F.signBit) := by
  simp only [signMask, BitVec.getLsbD_shiftLeft, BitVec.getLsbD_one, hi]
  by_cases he : i = F.signBit
  · simp [he]
  · have : i - F.signBit = 0 → i < F.signBit := by omega
    simp [he]
    omega

end

section
variable {F : Fmt}

/-- The magnitude under another sign, as masks (R663, R667). -/
theorem Fmt.Fits.setWidth_pack_mag (h : F.Fits) (b : Bool) (w : Word) :
    (F.pack b (F.mag w)).setWidth (F.signBit + 1) =
      (w.setWidth (F.signBit + 1) &&& F.magMask) ||| (if b then F.signMask else 0) := by
  refine BitVec.eq_of_getLsbD_eq fun i hi => ?_
  have hb : (if b then F.signMask else 0).getLsbD i = (decide (i = F.signBit) && b) := by
    cases b <;> simp [getLsbD_signMask hi]
  rw [BitVec.getLsbD_setWidth, h.getLsbD_pack_mag, BitVec.getLsbD_or, BitVec.getLsbD_and, getLsbD_magMask hi, hb,
    BitVec.getLsbD_setWidth]
  by_cases he : i = F.signBit <;> simp [he, hi, Bool.and_comm]

/-- The sign as a mask (R667). -/
theorem Fmt.ite_sign (F : Fmt) (w : Word) :
    (if F.sign w then F.signMask else 0) = w.setWidth (F.signBit + 1) &&& F.signMask := by
  refine BitVec.eq_of_getLsbD_eq fun i hi => ?_
  rw [BitVec.getLsbD_and, getLsbD_signMask hi, BitVec.getLsbD_setWidth]
  by_cases he : i = F.signBit
  · subst he
    cases hs : F.sign w <;> simp_all [sign, getLsbD_signMask hi]
  · cases F.sign w <;> simp [he, getLsbD_signMask hi]

/-- The sign inverted, as a mask (R665). -/
theorem Fmt.Fits.setWidth_negate (h : F.Fits) (w : Word) :
    (F.negate w).setWidth (F.signBit + 1) = w.setWidth (F.signBit + 1) ^^^ F.signMask := by
  refine BitVec.eq_of_getLsbD_eq fun i hi => ?_
  have hlt := h.signBit_lt
  rw [BitVec.getLsbD_xor, getLsbD_signMask hi]
  by_cases he : i = F.signBit
  · simp [negate, he, hlt]
  · simp [negate, hi, he, (by omega : i < F.signBit)]

end

/-! ### The two formats -/

section
variable (v w : BitVec 32) (x y : Word)

/-- A single within a word, read back. -/
theorem setWidth_single : (w.setWidth 64).setWidth (single.signBit + 1) = w :=
  BitVec.setWidth_setWidth_of_le w (by decide)

theorem low32_pack_mag (b : Bool) :
    low32 (single.pack b (single.mag (w.setWidth 64))) = (w &&& 0x7FFFFFFF) ||| (if b then 0x80000000 else 0) := by
  have h := Fmt.single_fits.setWidth_pack_mag b (w.setWidth 64)
  rw [setWidth_single] at h
  exact h

theorem low32_abs : low32 (single.pack false (single.mag (w.setWidth 64))) = w &&& 0x7FFFFFFF :=
  (low32_pack_mag w false).trans BitVec.or_zero

theorem low32_copysign : low32 (single.pack (single.sign (v.setWidth 64)) (single.mag (w.setWidth 64))) =
    (w &&& 0x7FFFFFFF) ||| (v &&& 0x80000000) := by
  have h := single.ite_sign (v.setWidth 64)
  rw [setWidth_single] at h
  exact (low32_pack_mag w _).trans (congrArg ((w &&& 0x7FFFFFFF) ||| ·) h)

theorem low32_negate : low32 (single.negate (w.setWidth 64)) = w ^^^ 0x80000000 := by
  have h := Fmt.single_fits.setWidth_negate (w.setWidth 64)
  rw [setWidth_single] at h
  exact h

theorem pack_mag_double (b : Bool) :
    double.pack b (double.mag y) = (y &&& 0x7FFFFFFFFFFFFFFF) ||| (if b then 0x8000000000000000 else 0) :=
  Fmt.double_fits.setWidth_pack_mag b y

theorem abs_double : double.pack false (double.mag y) = y &&& 0x7FFFFFFFFFFFFFFF :=
  (pack_mag_double y false).trans BitVec.or_zero

theorem copysign_double : double.pack (double.sign x) (double.mag y) =
    (y &&& 0x7FFFFFFFFFFFFFFF) ||| (x &&& 0x8000000000000000) :=
  (pack_mag_double y _).trans (congrArg ((y &&& 0x7FFFFFFFFFFFFFFF) ||| ·) (double.ite_sign x))

theorem negate_double : double.negate y = y ^^^ 0x8000000000000000 := Fmt.double_fits.setWidth_negate y

end

/-! ## The class of a datum (R669) -/

/-- A datum is a NaN, an infinity, a zero, a subnormal or a normal number. -/
theorem Fmt.Fits.classes {F : Fmt} (h : F.Fits) (w : Word) :
    (F.isNan w = true ∧ F.isInf w = false ∧ F.isFinite w = false ∧ F.isZero w = false ∧ F.expo w ≠ 0) ∨
    (F.isSnan w = false ∧ F.isNan w = false ∧
      ((F.isInf w = true ∧ F.isFinite w = false ∧ F.isZero w = false ∧ F.expo w ≠ 0) ∨
      (F.isInf w = false ∧ F.isFinite w = true ∧
        ((F.isZero w = true ∧ F.expo w = 0) ∨ F.isZero w = false)))) := by
  have hexpo : F.isFinite w = false → F.isZero w = false ∧ F.expo w ≠ 0 := fun hf =>
    ⟨Bool.eq_false_iff.2 fun hz => Bool.false_ne_true (hf.symm.trans (h.isFinite_of_isZero hz)),
      fun he => Bool.false_ne_true (hf.symm.trans (h.isFinite_of_expo he))⟩
  rcases F.class_cases w with hi | hn | hf
  · obtain ⟨hf, hn, hs⟩ := of_isInf hi
    obtain ⟨hz, he⟩ := hexpo hf
    exact .inr ⟨hs, hn, .inl ⟨hi, hf, hz, he⟩⟩
  · have hf : F.isFinite w = false := Bool.eq_false_iff.2 fun hf => by simp [of_isFinite hf] at hn
    have hi : F.isInf w = false := Bool.eq_false_iff.2 fun hi => by simp [of_isInf hi] at hn
    obtain ⟨hz, he⟩ := hexpo hf
    exact .inl ⟨hn, hi, hf, hz, he⟩
  · obtain ⟨hi, hn, hs⟩ := of_isFinite hf
    refine .inr ⟨hs, hn, .inr ⟨hi, hf, ?_⟩⟩
    cases hz : F.isZero w
    · exact .inr rfl
    · exact .inl ⟨rfl, expo_of_isZero hz⟩

/-- Each class of data has its own bit (R669). -/
theorem Fmt.Fits.classOf_bits {F : Fmt} (h : F.Fits) (w : Word) :
    (F.classOf w).toNat < 1024 ∧
      ∀ q ∈ [(0, F.isSnan w), (1, F.isNan w && !F.isSnan w), (2, F.isInf w && F.sign w),
          (3, F.isFinite w && F.expo w != 0 && F.sign w), (4, F.expo w == 0 && !F.isZero w && F.sign w),
          (5, F.isZero w && F.sign w), (6, F.isInf w && !F.sign w),
          (7, F.isFinite w && F.expo w != 0 && !F.sign w), (8, F.expo w == 0 && !F.isZero w && !F.sign w),
          (9, F.isZero w && !F.sign w)],
        (F.classOf w).getLsbD q.1 = q.2 := by
  simp only [List.forall_mem_cons, classOf]
  rcases h.classes w with ⟨hn, hi, hf, hz, he⟩ | ⟨hs, hn, ⟨hi, hf, hz, he⟩ | ⟨hi, hf, ⟨hz, he⟩ | hz⟩⟩
  · cases F.isSnan w <;> simp [hn, hi, hf, hz, he]
  · cases F.sign w <;> simp [hs, hn, hi, hf, hz, he]
  · cases F.sign w <;> simp [hs, hn, hi, hf, hz, he]
  · by_cases he : F.expo w = 0 <;> cases F.sign w <;> simp [hs, hn, hi, hf, hz, he]

end Sys2Proof.Machine
end

section
/-! SUPPORT. Square roots, scaling by a power of 2, exponents and estimates (46_fp_arith.md R672 to R688). -/

namespace Sys2Proof.Machine

section
variable {F : Fmt} {v : Exact} {x : Word}

theorem Fmt.value_ne_zero (hz : F.isZero x = false) : (F.value x).m ≠ 0 := by
  rw [Ne, value_eq_zero, hz]
  exact Bool.false_ne_true

/-! ## Square roots (R672) -/

/-- The square root of an operand that is no NaN. -/
theorem Fmt.sqrt_eq (rm : BitVec 2) (ue : Bool) (hx : F.isNan x = false) : F.sqrt rm ue x =
    if F.isZero x then .quiet x
    else if F.sign x then F.invalid
    else if F.isInf x then .quiet x
    else F.round rm ue (root F.prec (F.value x)) := orNan_one hx

/-- The square root is as `RootsRight` says. -/
theorem Fmt.Fits.rootsRight (h : F.Fits) (rm : BitVec 2) (ue : Bool) (x : Word) : F.RootsRight F.qnan rm ue x := by
  refine ⟨F.orNan_passes _ _, fun hz => ?_, fun hn hz hs => ?_, fun hi hs => ?_, fun hf hz hs => ?_⟩
  · rw [sqrt_eq rm ue (isNan_of_isFinite (h.isFinite_of_isZero hz)), hz]
    rfl
  · rw [sqrt_eq rm ue hn, hz, hs]
    rfl
  · rw [sqrt_eq rm ue (isNan_of_isInf hi), h.isZero_of_isInf hi, hs, hi]
    rfl
  · obtain ⟨hi, hn, -⟩ := of_isFinite hf
    refine ⟨root F.prec (F.value x), ?_, rfl,
      fun n k hlt => root_among F.prec _ (value_ne_zero hz) ((F.value_neg x).trans hs) hlt⟩
    rw [sqrt_eq rm ue hn, hz, hs, hi]
    rfl

/-! ## Scaling (R685) -/

/-- An exact value times a power of 2. -/
def Exact.scaled (v : Exact) (k : Int) : Exact := { v with e := v.e + k }

@[simp] theorem Exact.scaled_neg (v : Exact) (k : Int) : (v.scaled k).neg = v.neg := rfl
@[simp] theorem Exact.scaled_m (v : Exact) (k : Int) : (v.scaled k).m = v.m := rfl
@[simp] theorem Exact.scaled_e (v : Exact) (k : Int) : (v.scaled k).e = v.e + k := rfl

theorem Exact.scaled_rat (v : Exact) (k : Int) : (v.scaled k).rat = v.rat * 2 ^ k := by
  have hs : (v.scaled k).rat = (if v.neg then -1 else 1) * (v.m : ℚ) * 2 ^ (v.e + k) := rfl
  rw [hs, zpow_add₀ two_ne_zero, ← mul_assoc, rat]

/-- What is left over of less than half a unit rounds up alike whatever the unit. -/
theorem roundsUp_of_small {rm : BitVec 2} {neg : Bool} {n r d d' : Nat} (hd : 2 * r < 2 ^ d) (hd' : 2 * r < 2 ^ d') :
    roundsUp rm neg n r d = roundsUp rm neg n r d' := by
  simp [roundsUp, hd.not_gt, hd.ne, hd'.not_gt, hd'.ne]

/-- A value of less than half a unit keeps no unit, and is not exact. -/
theorem roundUnits_of_small {rm : BitVec 2} {q : Int} {d : Nat} (h0 : v.m ≠ 0) (hm : 2 * v.m < 2 ^ d)
    (hq : v.e + d ≤ q) : roundUnits rm v q = (if roundsUp rm v.neg 0 v.m d then 1 else 0, true) := by
  have hd : 2 ^ d ≤ 2 ^ (q - v.e).toNat := Nat.pow_le_pow_right (by decide) (by omega)
  have hlt : v.m < 2 ^ (q - v.e).toNat := by omega
  have hpos : d ≠ 0 := by
    rintro rfl
    omega
  unfold roundUnits
  rw [if_neg (by omega)]
  simp [Nat.div_eq_of_lt hlt, Nat.mod_eq_of_lt hlt, h0, roundsUp_of_small (hm.trans_le hd) hm]

section
variable (rm : BitVec 2) (ue : Bool) (h0 : v.m ≠ 0) (hm : v.m < 2 ^ (F.frac + 1))
include h0 hm

/-- Scaled above the exponents of the format a value overflows, whatever the amount. -/
theorem Fmt.round_scaled_above {k : Int} (hk : (F.bias : Int) < v.e + k) :
    F.round rm ue (v.scaled k) = ⟨F.overflow rm v.neg, excO ||| excI⟩ := by
  have he : (F.bias : Int) < (v.scaled k).e + (v.scaled k).m.log2 := by rw [Exact.scaled_e]; omega
  rw [round_of_short (v := v.scaled k) rm ue h0 hm, if_pos he, Exact.scaled_neg]

/-- Scaled below half the quantum of the subnormals a value is tiny, and is rounded alike whatever the amount. -/
theorem Fmt.round_scaled_below {k : Int} (hk : v.e + k + (F.frac + 2 : Nat) ≤ F.qmin) (hb : F.qmin ≤ F.bias) :
    F.round rm ue (v.scaled k) =
      ⟨F.packUnits v.neg (if roundsUp rm v.neg 0 v.m (F.frac + 2) then 1 else 0) F.qmin, excU ||| excI⟩ := by
  have hlog := (log2_leading h0 hm).1
  have hsmall : 2 * v.m < 2 ^ (F.frac + 2) := by rw [Nat.pow_succ]; omega
  have htiny : (v.scaled k).e + (v.scaled k).m.log2 < F.emin := by
    rw [Exact.scaled_e, Exact.scaled_m]
    unfold qmin at hk
    omega
  have hmax : ¬(F.bias : Int) < (v.scaled k).e + (v.scaled k).m.log2 := by
    rw [Exact.scaled_e, Exact.scaled_m]
    omega
  rw [round_of_short (v := v.scaled k) rm ue h0 hm, if_neg hmax, if_pos htiny, roundTiny,
    roundUnits_of_small (v := v.scaled k) h0 hsmall hk]
  rfl

end

/-- Scaling of a number other than 0: the model cuts the amount off at 5000 (R685). -/
theorem Fmt.scaleB_eq (rm : BitVec 2) (ue : Bool) (hf : F.isFinite x = true) (hz : F.isZero x = false) (n : Int) :
    F.scaleB rm ue x n = F.round rm ue ((F.value x).scaled (max (-5000) (min 5000 n))) := by
  obtain ⟨hi, hn, -⟩ := of_isFinite hf
  rw [scaleB, orNan_one hn, hi, hz]
  rfl

/-- Where the model cuts the amount of a scaling off, the result has overflowed or is tiny already (R685). -/
theorem Fmt.Fits.round_scaled (h : F.Fits) (rm : BitVec 2) (ue : Bool) (hf : F.isFinite x = true)
    (h0 : (F.value x).m ≠ 0) (n : Int) :
    F.round rm ue ((F.value x).scaled (max (-5000) (min 5000 n))) = F.round rm ue ((F.value x).scaled n) := by
  obtain ⟨hlt, hmin, -⟩ := F.value_bounds x
  have hmax := h.value_le hf
  have hspan := h.span_lt
  have hq : F.qmin = 1 - F.bias - F.frac := rfl
  rcases lt_or_ge 5000 n with hn | hn
  · rw [round_scaled_above rm ue h0 hlt (by omega), round_scaled_above rm ue h0 hlt (by omega)]
  · rcases lt_or_ge n (-5000) with hn' | hn'
    · rw [round_scaled_below rm ue h0 hlt (by omega) (by omega), round_scaled_below rm ue h0 hlt (by omega) (by omega)]
    · rw [min_eq_right hn, max_eq_right hn']

/-- Scaling is as `ScalesRight` says. -/
theorem Fmt.Fits.scalesRight (h : F.Fits) (rm : BitVec 2) (ue : Bool) (x : Word) (n : Int) :
    F.ScalesRight rm ue x n := by
  refine ⟨F.orNan_passes _ _, fun hx => ?_, fun hf hz => ?_⟩
  · have hn : F.isNan x = false :=
      hx.elim isNan_of_isInf fun hz => isNan_of_isFinite (h.isFinite_of_isZero hz)
    rw [scaleB, orNan_one hn, if_pos (by simpa using hx)]
    rfl
  · have h0 := value_ne_zero hz
    rw [scaleB_eq rm ue hf hz, h.round_scaled rm ue hf h0]
    have hq : F.num x * 2 ^ n ≠ 0 := (Exact.scaled_rat .. ▸ Exact.rat_eq_zero _).not.2 h0
    refine rounds_self (Exact.scaled_rat _ n) ?_
    rw [if_neg hq, num, ← Exact.scaled_rat, Exact.rat_neg]
    exact (and_iff_left h0).symm

/-! ## The exponent of a number (R687) -/

/-- An integer as the exact value that is rounded. -/
theorem Exact.rat_int (n : Int) : Exact.rat ⟨decide (n < 0), n.natAbs, 0⟩ = n := by
  have hs : Exact.signed ⟨decide (n < 0), n.natAbs, 0⟩ = n := by
    simp only [signed, decide_eq_true_eq]
    split <;> omega
  rw [rat_eq, hs, zpow_zero, mul_one]

/-- An integer of few bits is exactly a datum. -/
theorem Fmt.Fits.ofInt_short (h : F.Fits) (rm : BitVec 2) {n : Int} (hn : n.natAbs < 4096) :
    (F.ofInt rm n).exc = 0 ∧ F.isFinite (F.ofInt rm n).val = true ∧ F.num (F.ofInt rm n).val = n := by
  by_cases h0 : n = 0
  · subst h0
    have hz : F.isZero (0 : Word) = true := by simp [isZero, mag]
    exact ⟨rfl, h.isFinite_of_isZero hz, ((F.num_eq_zero 0).2 hz).trans Int.cast_zero.symm⟩
  have h0' : n.natAbs ≠ 0 := Int.natAbs_ne_zero.2 h0
  have hlog : n.natAbs.log2 < 12 := (Nat.log2_lt h0').2 hn
  have hbias := h.bias_ge
  have hfrac := h.frac_ge
  have hm : n.natAbs < 2 ^ (F.frac + 1) := hn.trans_le (Nat.pow_le_pow_right (n := 2) (i := 12) (by decide) (by omega))
  obtain ⟨hle, hlo, hhi⟩ := log2_leading h0' hm
  have hround : F.ofInt rm n = ⟨F.packUnits (decide (n < 0)) (n.natAbs * 2 ^ (F.frac - n.natAbs.log2))
      (n.natAbs.log2 - F.frac), 0⟩ := by
    have hq : F.emin = 1 - F.bias := rfl
    rw [ofInt, round_of_short rm false h0' hm, if_neg (by simp only; omega), if_neg (by simp only; omega), zero_add]
  have hq : F.qmin = 1 - F.bias - F.frac := rfl
  obtain ⟨hfin, hval⟩ := h.value_packUnits (decide (n < 0)) hlo hhi (q := n.natAbs.log2 - F.frac) (by omega) (by omega)
  rw [hround]
  refine ⟨rfl, hfin, ?_⟩
  have hscaled := Exact.rat_scaled ⟨decide (n < 0), n.natAbs, 0⟩ (e := n.natAbs.log2 - F.frac) (by simp only; omega)
  rw [show ((0 : Int) - (n.natAbs.log2 - F.frac)).toNat = F.frac - n.natAbs.log2 by omega] at hscaled
  rw [num, hval, ← Exact.rat_int n, hscaled, Exact.rat_eq]
  rfl

/-- The exponent of a number other than 0 is that of the power of 2 below it. -/
theorem Exact.exponent_eq (h0 : v.m ≠ 0) {l : Int} (hlo : (2 : ℚ) ^ l ≤ |v.rat|) (hhi : |v.rat| < 2 ^ (l + 1)) :
    l = v.m.log2 + v.e := by
  have h1 : (2 : ℚ) ^ (v.m.log2 : Int) ≤ v.m := by exact_mod_cast Nat.log2_self_le h0
  have h2 : (v.m : ℚ) < 2 ^ (v.m.log2 + 1 : Int) := by exact_mod_cast Nat.lt_log2_self
  have hp : (0 : ℚ) < 2 ^ v.e := by positivity
  rw [v.abs_rat] at hlo hhi
  have h3 : (2 : ℚ) ^ l < 2 ^ (v.m.log2 + 1 + v.e : Int) := by
    rw [zpow_add₀ (by norm_num)]
    exact hlo.trans_lt ((mul_lt_mul_iff_left₀ hp).2 h2)
  have h4 : (2 : ℚ) ^ (v.m.log2 + v.e : Int) < 2 ^ (l + 1) := by
    rw [zpow_add₀ (by norm_num)]
    exact ((mul_le_mul_iff_left₀ hp).2 h1).trans_lt hhi
  rw [zpow_lt_zpow_iff_right₀ (by norm_num)] at h3 h4
  omega

/-- The exponent is as `LogsRight` says. -/
theorem Fmt.Fits.logsRight (h : F.Fits) (x : Word) : F.LogsRight x := by
  refine ⟨F.orNan_passes _ _, fun hi => ?_, fun hz => ?_, fun hf hz l hlo hhi => ?_⟩
  · rw [logB, orNan_one (isNan_of_isInf hi), if_pos hi]
    rfl
  · obtain ⟨hi, hn, -⟩ := of_isFinite (h.isFinite_of_isZero hz)
    rw [logB, orNan_one hn, hi, if_neg Bool.false_ne_true, if_pos hz]
  · obtain ⟨hi, hn, -⟩ := of_isFinite hf
    have h0 := value_ne_zero hz
    obtain ⟨hlt, hmin, -⟩ := F.value_bounds x
    have hlog := (log2_leading h0 hlt).1
    have hmax := h.value_le hf
    have hspan := h.span_lt
    have hq : F.qmin = 1 - F.bias - F.frac := rfl
    have hl := Exact.exponent_eq h0 hlo hhi
    rw [logB, orNan_one hn, hi, hz, if_neg Bool.false_ne_true, if_neg Bool.false_ne_true, ← hl]
    obtain ⟨hexc, hfin, hnum⟩ := h.ofInt_short 0 (n := l) (by omega)
    exact ⟨hexc, hfin, hnum, fun hl0 => by rw [hl0]; rfl⟩

/-! ## Estimates (R680) -/

/-- The value of an estimate instruction: the exact function's, or one within the bound for a number other than 0 and
the guaranteed points. -/
def Fmt.EstimateRight (F : Fmt) (x : Word) (point : Bool) (bound : Word → Bool) (exact : FpOut) (a : Word) : Prop :=
  a = exact.val ∨ (FpEstimated F x ∧ point = false ∧ bound a = true)

/-- An estimate has the exceptions of the exact function, and its value or one within the bound. -/
theorem Fmt.estimate_right (F : Fmt) (x : Word) (point : Bool) (bound : Word → Bool) (exact : FpOut) (r : Word) :
    ∃ a, F.EstimateRight x point bound exact a ∧ F.estimate x point (bound r) exact r = ⟨a, exact.exc⟩ := by
  rcases F.estimate_cases x point (bound r) exact r with he | ⟨hx, hp, hb, he⟩
  · exact ⟨exact.val, .inl rfl, he⟩
  · exact ⟨r, .inr ⟨hx, hp, hb⟩, he⟩

end

end Sys2Proof.Machine
end

section
/-! The obligations of rounding (46_fp_arith.md R634). -/

namespace Sys2Proof.Machine

/-- Settles O25: nothing is cut off, or the units kept go up by one or not, as the mode says of what is left over. -/
theorem roundingOfUnits : Obligations.RoundingOfUnits := by
  intro rm v q n d x h
  refine ⟨fun hq => ?_, fun hq hd => ?_⟩
  · rw [roundUnits_of_le rm hq] at h
    exact ⟨(congrArg Prod.fst h).symm, (congrArg Prod.snd h).symm⟩
  obtain ⟨k, r, hm, hr, hx, hn⟩ := roundUnits_of_lt h hq hd
  have hr0 : roundsUp rm v.neg k r d = true → r ≠ 0 := by
    rintro hup rfl
    rw [roundsUp_of_exact] at hup
    cases hup
  rw [hm, hx]
  refine ⟨?_, ?_, fun hrm => ?_, fun hrm => ?_⟩
  · rcases hn with ⟨hup, rfl⟩ | ⟨-, rfl⟩
    · have := hr0 hup
      rw [Nat.succ_mul]
      omega
    · omega
  · rintro rfl
    simp only [Nat.add_mul, Nat.mul_assoc, Nat.one_mul]
    rcases hn with ⟨hup, rfl⟩ | ⟨hup, rfl⟩
    · rw [roundsUp_nearest] at hup
      simp only [Nat.add_mul, Nat.one_mul]
      omega
    · rw [← Bool.not_eq_true, roundsUp_nearest] at hup
      omega
  · rcases hn with ⟨hup, -⟩ | ⟨-, rfl⟩
    · rw [roundsUp_toward_zero hrm] at hup
      cases hup
    · rw [Nat.succ_mul]
      omega
  · rcases hn with ⟨hup, rfl⟩ | ⟨hup, rfl⟩
    · have := hr0 hup
      rw [Nat.succ_mul]
      omega
    · rw [← Bool.not_eq_true, roundsUp_away hrm, not_not] at hup
      omega

/-- Settles O26: the value of a datum has p bits at most, and its units packed again are the datum. -/
theorem roundingIsExact : Obligations.RoundingIsExact := by
  intro F hF w rm hw hf
  have h := Fmt.fits_of_mem hF
  have hpack := (F.packUnits_value w).trans (h.pack_sign_mag hw)
  obtain ⟨hlt, hmin, hnorm⟩ := F.value_bounds w
  have hmax := h.value_le hf
  by_cases h0 : (F.value w).m = 0
  · have hz : F.mag w = 0 := beq_iff_eq.1 ((F.value_eq_zero w).1 h0)
    rw [Fmt.round, if_pos h0, F.value_neg, ← hz, h.pack_sign_mag hw]
    rfl
  have hle := (log2_leading h0 hlt).1
  have hfull : 2 ^ F.frac ≤ (F.value w).m ↔ F.frac ≤ (F.value w).m.log2 := (Nat.le_log2 h0).symm
  unfold Fmt.qmin at hmin hnorm
  rw [Fmt.round_of_short rm false h0 hlt, if_neg (by omega)]
  split
  · have he : (F.value w).e = F.qmin := by unfold Fmt.qmin; omega
    rw [Fmt.roundTiny, roundUnits_of_le rm he.symm.le, ← he]
    simp only [sub_self, Int.toNat_zero, Nat.pow_zero, Nat.mul_one, Bool.false_eq_true, if_false]
    rw [hpack]
  · have hlog : (F.value w).m.log2 = F.frac := by omega
    rw [hlog, Nat.sub_self, Nat.pow_zero, Nat.mul_one, add_sub_cancel_right, hpack]

end Sys2Proof.Machine
end

section
/-! The obligations of the floating-point arithmetic instructions (46_fp_arith.md R636 to R688). -/

namespace Sys2Proof.Machine

/-- Settles O27: the ten forms finish with the model's operations, and these are right class by class of their
operands. -/
theorem fpArithmetic : Obligations.FpArithmetic := by
  rintro s fd fj fk fa _ _ _ _ _ hon rfl rfl rfl rfl rfl
  have hS {i : Instr} {o : FpOut} (h : exec i s = floating s (fpS s fd o)) := finishesS_of_fpS hon (.inl rfl) h
  have hD {i : Instr} {o : FpOut} (h : exec i s = floating s (fpD s fd o)) := finishesD_of_fpD hon (.inl rfl) h
  refine ⟨hS rfl, hS rfl, hS rfl, hS rfl, hS rfl, hD rfl, hD rfl, hD rfl, hD rfl, hD rfl, ?_⟩
  intro p hp m e a b c
  obtain ⟨hF, hq⟩ := fits_qnan_of_mem hp
  exact hq ▸ ⟨hF.sumsRight m e a b, hF.productsRight m e a b, p.1.fusesRight m e a b c⟩

/-- Settles O28: the six forms finish with the model's operations, a NaN's sign drawn from the free values. -/
theorem fpNegatedFused : Obligations.FpNegatedFused := by
  rintro s fd fj fk fa _ _ _ _ _ hon rfl rfl rfl rfl rfl
  have hS {i : Instr} {o : FpOut} (h : exec i s = floating s (fpS s.drawn fd o)) := finishesS_of_fpS hon (.inr rfl) h
  have hD {i : Instr} {o : FpOut} (h : exec i s = floating s (fpD s.drawn fd o)) := finishesD_of_fpD hon (.inr rfl) h
  exact ⟨s.pick, hS rfl, hS rfl, hS rfl, hD rfl, hD rfl, hD rfl,
    fun F hF m e p a b c => (Fmt.fits_of_mem hF).fusesNegated m e p a b c⟩

/-- Settles O29: each of the four picks, of two numbers, the one that goes before in its order. -/
theorem fpMaxMin : Obligations.FpMaxMin := by
  rintro s fd fj fk _ _ hon rfl rfl
  have hS {i : Instr} {o : FpOut} (h : exec i s = floating s (fpS s.drawn fd o)) := finishesS_of_fpS hon (.inr rfl) h
  have hD {i : Instr} {o : FpOut} (h : exec i s = floating s (fpD s.drawn fd o)) := finishesD_of_fpD hon (.inr rfl) h
  simp only [List.forall_mem_cons]
  refine ⟨?_, ?_, List.forall_mem_nil _⟩
  · exact ⟨⟨_, (single.larger_picksBefore s.pick).fpSelects single _ _, hS rfl⟩,
      ⟨_, (single.largerMag_picksBefore s.pick).fpSelects single _ _, hS rfl⟩,
      ⟨_, (double.larger_picksBefore s.pick).fpSelects double _ _, hD rfl⟩,
      ⟨_, (double.largerMag_picksBefore s.pick).fpSelects double _ _, hD rfl⟩⟩
  · exact ⟨⟨_, (single.smaller_picksBefore s.pick).fpSelects single _ _, hS rfl⟩,
      ⟨_, (single.smallerMag_picksBefore s.pick).fpSelects single _ _, hS rfl⟩,
      ⟨_, (double.smaller_picksBefore s.pick).fpSelects double _ _, hD rfl⟩,
      ⟨_, (double.smallerMag_picksBefore s.pick).fpSelects double _ _, hD rfl⟩⟩

/-- Settles O30: the sign operations as masks, and the class by the bit that its class of data has. -/
theorem fpSignAndClass : Obligations.FpSignAndClass := by
  intro s fd fj fk hon
  refine ⟨completesFs_of_fpQuietS hon rfl (low32_abs _), completesFs_of_fpQuietS hon rfl (low32_negate _),
    completesFs_of_fpQuietS hon rfl (low32_copysign _ _), completesF_of_fpQuietD hon rfl (abs_double _),
    completesF_of_fpQuietD hon rfl (negate_double _), completesF_of_fpQuietD hon rfl (copysign_double _ _), ?_⟩
  rw [List.forall_mem_cons, List.forall_mem_singleton]
  constructor
  · obtain ⟨hlt, hbits⟩ := Fmt.single_fits.classOf_bits ((s.fs fj).setWidth 64)
    exact ⟨_, hlt, (if_pos rfl).mpr (completesFs_of_fpQuietS hon rfl rfl), hbits⟩
  · obtain ⟨hlt, hbits⟩ := Fmt.double_fits.classOf_bits (s.f fj)
    exact ⟨_, hlt, (if_neg (by decide : double ≠ single)).mpr (completesF_of_fpQuietD hon rfl rfl), hbits⟩

/-- Settles O31: the forms finish with the model's operations, the roots, scales and exponents are right class by class
of the operand, and each estimate is one of those that R680 admits. -/
theorem fpRootsAndScales : Obligations.FpRootsAndScales := by
  rintro s fd fj fk _ _ _ hon rfl rfl rfl
  have hS {i : Instr} {o : FpOut} (h : exec i s = floating s (fpS s fd o)) := finishesS_of_fpS hon (.inl rfl) h
  have hD {i : Instr} {o : FpOut} (h : exec i s = floating s (fpD s fd o)) := finishesD_of_fpD hon (.inl rfl) h
  refine ⟨hS rfl, hS rfl, hS rfl, hS rfl, hS rfl, hD rfl, hD rfl, hD rfl, hD rfl, hD rfl, fun p hp m e w n => ?_, ?_⟩
  · obtain ⟨hF, hq⟩ := fits_qnan_of_mem hp
    exact ⟨hq ▸ hF.rootsRight m e w, hF.scalesRight m e w n, hF.logsRight w⟩
  · obtain ⟨a, ha, hae⟩ := single.estimate_right (s.fsw fj) (single.isPow2 (s.fsw fj)) (single.recipBound (s.fsw fj))
      (single.recip s.fpRm s.fpUe (s.fsw fj)) ((Config.recipEstimateS (s.fs fj)).setWidth 64)
    obtain ⟨b, hb, hbe⟩ := single.estimate_right (s.fsw fj) (single.isPow4 (s.fsw fj)) (single.rsqrtBound (s.fsw fj))
      (single.rsqrt s.fpRm s.fpUe (s.fsw fj)) ((Config.rsqrtEstimateS (s.fs fj)).setWidth 64)
    obtain ⟨c, hc, hce⟩ := double.estimate_right (s.f fj) (double.isPow2 (s.f fj)) (double.recipBound (s.f fj))
      (double.recip s.fpRm s.fpUe (s.f fj)) (Config.recipEstimateD (s.f fj))
    obtain ⟨d, hd, hde⟩ := double.estimate_right (s.f fj) (double.isPow4 (s.f fj)) (double.rsqrtBound (s.f fj))
      (double.rsqrt s.fpRm s.fpUe (s.f fj)) (Config.rsqrtEstimateD (s.f fj))
    exact ⟨a, b, c, d, ha, hb, hc, hd, hae ▸ hS rfl, hbe ▸ hS rfl, hce ▸ hD rfl, hde ▸ hD rfl⟩

end Sys2Proof.Machine
end

section
/-! SUPPORT. What no instruction below PLV0 changes, by the shared operations of the instructions (49_privileged.md R810;
13_csr_timer_ras_perf_watch_debug.md R181; 60_exceptions.md R876). -/

namespace Sys2Proof.Machine

/-! ## The guarded part of the state -/

/-- The control and status registers, the TLB, the IOCSR registers, the wait state, the Stable Counter and the interrupt
lines: what a program below PLV0 does not write (R810). -/
def State.guarded (s : State) :
    Csrs × List (Nat × TlbEntry) × List Host.Cell × Bool × Word × BitVec 8 × Bool :=
  (s.csr, s.tlb, s.iocsr, s.waiting, s.stable, s.hwi, s.ipi)

section
variable (s : State)

@[simp] theorem State.guarded_setX (r : Reg) (v : Word) : (s.setX r v).guarded = s.guarded := by
  unfold State.setX
  split <;> rfl

@[simp] theorem State.guarded_setF (r : FReg) (v : Word) : (s.setF r v).guarded = s.guarded := rfl
@[simp] theorem State.guarded_setFS (r : FReg) (v : BitVec 32) : (s.setFS r v).guarded = s.guarded := rfl
@[simp] theorem State.guarded_setCc (c : CReg) (b : Bool) : (s.setCc c b).guarded = s.guarded := rfl
@[simp] theorem State.guarded_setPc (a : Word) : (s.setPc a).guarded = s.guarded := rfl
@[simp] theorem State.guarded_advance : s.advance.guarded = s.guarded := rfl
@[simp] theorem State.guarded_drawn : s.drawn.guarded = s.guarded := rfl
@[simp] theorem State.guarded_setLL (b : Bool) : (s.setLL b).guarded = s.guarded := rfl
@[simp] theorem State.guarded_linked (va : Word) : (s.linked va).guarded = s.guarded := rfl

@[simp] theorem State.guarded_retire (rd : Reg) (v : Word) : (s.retire rd v).guarded = s.guarded := s.guarded_setX rd v

@[simp] theorem State.guarded_retireAny (rd : Reg) : (s.retireAny rd).guarded = s.guarded := s.guarded_setX rd s.free

@[simp] theorem State.guarded_storeBytes (as : List Nat) (v : Word) : (s.storeBytes as v).guarded = s.guarded := by
  obtain ⟨m, l, h⟩ := State.storeBytes_eq as s v
  rw [h]
  rfl

theorem State.guarded_writeFcsr (n : BitVec 5) (v : BitVec 32) : (s.writeFcsr n v).guarded = s.guarded := by
  unfold State.writeFcsr
  split <;> rfl

end

/-! ## The exceptions of an access -/

/-- No debug call comes of the computation. -/
def Res.NoDebugCall {α : Type} (r : Res α) : Prop := ∀ e, r = .exc e → e ≠ .dbcl

section
variable {α β : Type}

theorem Res.noDebugCall_ok (a : α) : (Res.ok a).NoDebugCall := nofun

theorem Res.noDebugCall_stop (r : Stop) : (Res.stop r : Res α).NoDebugCall := nofun

theorem Res.noDebugCall_exc {e : Exc} (h : e ≠ .dbcl) : (Res.exc e : Res α).NoDebugCall := by
  rintro _ ⟨⟩
  exact h

theorem Res.NoDebugCall.bind {r : Res α} {k : α → Res β} (hr : r.NoDebugCall) (hk : ∀ a, (k a).NoDebugCall) :
    (r.bind k).NoDebugCall := by
  cases r with
  | ok a => exact hk a
  | exc e => exact noDebugCall_exc (hr e rfl)
  | stop r => exact noDebugCall_stop r

end

theorem checkMat_noDebugCall (p : Phys) : (checkMat p).NoDebugCall := by
  unfold checkMat
  split
  · exact Res.noDebugCall_stop _
  · exact Res.noDebugCall_ok _

section
variable {s : State} {k : AccKind} {first va : Word}

/-- The checks of a page raise page exceptions alone (R266). -/
theorem State.pageFault_ne_dbcl {p : TlbPage} {e : Exc} (h : s.pageFault k first p = some e) : e ≠ .dbcl := by
  rintro rfl
  unfold State.pageFault at h
  split_ifs at h
  · cases k <;> cases h
  all_goals cases h

theorem State.tlbFind_noDebugCall : (s.tlbFind va).NoDebugCall := by
  unfold State.tlbFind
  split
  · exact Res.noDebugCall_stop _
  · split
    · exact Res.noDebugCall_ok _
    · exact Res.noDebugCall_ok _
    · exact Res.noDebugCall_stop _

theorem State.translatePage_noDebugCall : (s.translatePage k first va).NoDebugCall := by
  refine State.tlbFind_noDebugCall.bind fun o => ?_
  cases o with
  | none => exact Res.noDebugCall_exc nofun
  | some e =>
    dsimp only
    split
    · exact Res.noDebugCall_exc (State.pageFault_ne_dbcl ‹_›)
    · exact checkMat_noDebugCall _

theorem State.translate_noDebugCall : (s.translate k first va).NoDebugCall := by
  unfold State.translate
  split
  · exact Res.noDebugCall_stop _
  · split
    · exact checkMat_noDebugCall _
    · split
      · exact checkMat_noDebugCall _
      · exact State.translatePage_noDebugCall

theorem State.translateAll_noDebugCall : ∀ vas : List Word, (s.translateAll k first vas).NoDebugCall
  | [] => Res.noDebugCall_ok _
  | _ :: vas => State.translate_noDebugCall.bind fun _ =>
      (State.translateAll_noDebugCall vas).bind fun _ => Res.noDebugCall_ok _

/-- No check of an access raises a debug call (R215). -/
theorem State.checkAccess_noDebugCall (a : Access) : (s.checkAccess a).NoDebugCall := by
  unfold State.checkAccess
  split
  · exact Res.noDebugCall_stop _
  · split_ifs
    · exact Res.noDebugCall_exc nofun
    · exact Res.noDebugCall_exc nofun
    · exact Res.noDebugCall_exc nofun
    · refine (State.translateAll_noDebugCall _).bind fun ps => ?_
      split
      · exact Res.noDebugCall_ok _
      · exact Res.noDebugCall_exc nofun

end

/-! ## What an instruction below PLV0 does -/

/-- The registers after a watchpoint matched the access `a` with Skip set: Skip cleared (13 R181). -/
def SkipCleared (s : State) (o : Option Access) (t : State) : Prop :=
  ∃ a, o = some a ∧ hitMask (s.mwpHits a) s.csr.watch.mwp ≠ 0 ∧ s.csr.watch.mwps.getLsbD 16 = true ∧
    t.csr = (s.setMwps (withBit s.csr.watch.mwps 16 false)).csr

/-- The registers as a watchpoint that matched the access `a` raises WPEM: its Status bits set (13 R181, R876). -/
def StatusSet (s : State) (o : Option Access) (e : Exc) (u : State) : Prop :=
  ∃ a, o = some a ∧ hitMask (s.mwpHits a) s.csr.watch.mwp ≠ 0 ∧ s.csr.watch.mwps.getLsbD 16 = false ∧
    e = .wpem (debugOnlyHit (s.mwpHits a) s.csr.watch.mwp) ∧
    u.csr = (s.setMwps (s.csr.watch.mwps ||| hitMask (s.mwpHits a) s.csr.watch.mwp)).csr

/-- What the guarded part of the state has become where `o` is the access that the instruction makes: it is as it was, but
for Skip, or for an exception taken at the pc and with the word of `s`. -/
def UserStep (s : State) (o : Option Access) (t : State) : Prop :=
  t.tlb = s.tlb ∧ t.iocsr = s.iocsr ∧ t.waiting = s.waiting ∧ t.stable = s.stable ∧ t.hwi = s.hwi ∧ t.ipi = s.ipi ∧
    (t.csr = s.csr ∨ SkipCleared s o t ∨
      ∃ u e, t = State.raise u e ∧ u.pc = s.pc ∧ u.ir = s.ir ∧ e ≠ .dbcl ∧ (u.csr = s.csr ∨ StatusSet s o e u))

/-- Whatever next state the outcome is, it is a step below PLV0. -/
def UserOut (s : State) (o : Option Access) (p : Out) : Prop := ∀ t, p = .next t → UserStep s o t

section
variable {s t u : State} {o : Option Access} {e : Exc} {p q : Out}

theorem userStep_of_guarded (h : t.guarded = s.guarded) : UserStep s o t := by
  simp only [State.guarded, Prod.mk.injEq] at h
  obtain ⟨hcsr, htlb, hiocsr, hwait, hstable, hhwi, hipi⟩ := h
  exact ⟨htlb, hiocsr, hwait, hstable, hhwi, hipi, .inl hcsr⟩

theorem userStep_raise (h : u.guarded = s.guarded) (hpc : u.pc = s.pc) (hir : u.ir = s.ir) (he : e ≠ .dbcl) :
    UserStep s o (u.raise e) := by
  simp only [State.guarded, Prod.mk.injEq] at h
  obtain ⟨hcsr, htlb, hiocsr, hwait, hstable, hhwi, hipi⟩ := h
  refine ⟨?_, ?_, ?_, ?_, ?_, ?_, .inr (.inr ⟨u, e, rfl, hpc, hir, he, .inl hcsr⟩)⟩ <;> simpa

theorem userOut_next (h : t.guarded = s.guarded) : UserOut s o (.next t) := fun _ ht =>
  Host.Outcome.next.inj ht ▸ userStep_of_guarded h

theorem userOut_raise (he : e ≠ .dbcl) : UserOut s o (.next (s.raise e)) := fun _ ht =>
  Host.Outcome.next.inj ht ▸ userStep_raise rfl rfl rfl he

theorem userOut_ite {c : Prop} [Decidable c] (hp : UserOut s o p) (hq : UserOut s o q) :
    UserOut s o (if c then p else q) := by
  split
  · exact hp
  · exact hq

theorem userOut_privileged (h : s.plv ≠ 0) : UserOut s o (privileged s p) := by
  rw [privileged_user h]
  exact userOut_raise nofun

theorem userOut_floating (h : UserOut s o p) : UserOut s o (floating s p) :=
  userOut_ite h (userOut_raise nofun)

/-- An access and an effect that leaves the guarded part alone: beyond that effect, an exception of the checks, WPEM, or
Skip cleared. -/
theorem userOut_access {a : Access} {k : List Phys → State → State} (hk : ∀ ps u, (k ps u).guarded = u.guarded) :
    UserOut s (some a) (access s a fun ps u => .next (k ps u)) := by
  intro t ht
  cases hc : s.checkAccess a with
  | exc e =>
    rw [access_exc hc] at ht
    exact Host.Outcome.next.inj ht ▸ userStep_raise rfl rfl rfl (State.checkAccess_noDebugCall a e hc)
  | stop r =>
    rw [access_stop hc] at ht
    cases r <;> cases ht
  | ok ps =>
    by_cases hit : hitMask (s.mwpHits a) s.csr.watch.mwp = 0
    · rw [access_ok ⟨hc, hit⟩] at ht
      exact Host.Outcome.next.inj ht ▸ userStep_of_guarded (hk ps s)
    cases hskip : s.csr.watch.mwps.getLsbD 16 with
    | true =>
      rw [access_skip hc hit hskip] at ht
      obtain rfl := Host.Outcome.next.inj ht
      have hg := hk ps (s.setMwps (withBit s.csr.watch.mwps 16 false))
      simp only [State.guarded, Prod.mk.injEq] at hg
      obtain ⟨hcsr, htlb, hiocsr, hwait, hstable, hhwi, hipi⟩ := hg
      exact ⟨htlb, hiocsr, hwait, hstable, hhwi, hipi, .inr (.inl ⟨a, rfl, hit, hskip, hcsr⟩)⟩
    | false =>
      rw [access_hit hc hit hskip] at ht
      obtain rfl := Host.Outcome.next.inj ht
      refine ⟨?_, ?_, ?_, ?_, ?_, ?_,
        .inr (.inr ⟨_, _, rfl, rfl, rfl, nofun, .inr ⟨a, rfl, hit, hskip, rfl, rfl⟩⟩)⟩ <;> simp <;> rfl

/-! ### Integer results and branches -/

theorem userOut_advance : UserOut s o (.next s.advance) := userOut_next rfl

theorem userOut_retire (rd : Reg) (v : Word) : UserOut s o (.next (s.retire rd v)) := userOut_next (by simp)

theorem userOut_opDiv (z : Word → Bool) (f : Word → Word → Word) (rd rj rk : Reg) :
    UserOut s o (opDiv z f rd rj rk s) := userOut_next (by split <;> simp)

theorem userOut_opDivW (z : Word → Bool) (f : Word → Word → Word) (rd rj rk : Reg) :
    UserOut s o (opDivW z f rd rj rk s) := opDivW_eq ▸ userOut_opDiv z f rd rj rk

theorem userOut_branchIf {n : Nat} (c : Bool) (b : BitVec n) : UserOut s o (branchIf c b s) :=
  userOut_next (by split <;> rfl)

theorem userOut_branchUnless (c : Bool) (a : Word) : UserOut s o (.next (if c then s.advance else s.setPc a)) :=
  userOut_next (by split <;> rfl)

theorem userOut_link (rd : Reg) (v a : Word) : UserOut s o (.next ((s.setX rd v).setPc a)) := userOut_next (by simp)

theorem userOut_rdtime (part : Word → Word) (rd rj : Reg) : UserOut s o (rdtime part rd rj s) :=
  userOut_ite (userOut_raise nofun) (userOut_ite (userOut_next (by simp)) (userOut_next (by simp)))

theorem userOut_assertTrue (c : Bool) : UserOut s o (assertTrue c s) := by
  rintro _ ⟨⟩
  cases c
  · exact userStep_raise (u := s.drawn) (e := .bce s.free) rfl rfl rfl nofun
  · exact userStep_of_guarded rfl

/-! ### Accesses (20_memory.md R215) -/

variable {a : Access}

theorem userOut_loadX (rd : Reg) (ext : Word → Word) : UserOut s (some a) (loadX s a rd ext) :=
  userOut_access fun _ _ => by simp

theorem userOut_storeX (v : Word) : UserOut s (some a) (storeX s a v) := userOut_access fun _ _ => by simp

theorem userOut_loadFS (fd : FReg) : UserOut s (some a) (loadFS s a fd) := userOut_access fun _ _ => by simp

theorem userOut_loadFD (fd : FReg) : UserOut s (some a) (loadFD s a fd) := userOut_access fun _ _ => by simp

theorem userOut_amo (size : Nat) (ext : Word → Word) (f : Word → Word → Word) (rd rj rk : Reg) :
    UserOut s (some (s.atomicAccess (s.x rj) size)) (amo size ext f rd rj rk s) :=
  userOut_access fun _ _ => by split <;> simp

/-- AM* on words and doublewords makes an access unless rd = rj (44_atomic_barrier.md R541). -/
theorem userOut_amoChecked (size : Nat) (ext : Word → Word) (f : Word → Word → Word) (rd rj rk : Reg) :
    UserOut s (if rd = rj then none else some (s.atomicAccess (s.x rj) size)) (amoChecked size ext f rd rj rk s) := by
  unfold amoChecked
  split
  · exact userOut_raise nofun
  · exact userOut_amo size ext f rd rj rk

theorem userOut_amcas (size : Nat) (ext trunc : Word → Word) (rd rj rk : Reg) :
    UserOut s (some (s.atomicAccess (s.x rj) size)) (amcas size ext trunc rd rj rk s) :=
  userOut_access fun _ _ => by split <;> simp

theorem userOut_loadLinked (va : Word) (size : Nat) (ext : Word → Word) (rd : Reg) :
    UserOut s (some (s.linkedLoad va size)) (loadLinked va size ext rd s) :=
  userOut_access (k := linkedEffect (s.effVa va) ext rd) fun _ _ => by unfold linkedEffect; split <;> simp

theorem userOut_storeCond {put : List Nat → State → State} (hput : ∀ as u, (put as u).guarded = u.guarded) (rd : Reg) :
    UserOut s (some a) (storeCond a put rd s) := by
  have hite : ∀ (b : Bool) as u, (if b then put as u else u).guarded = u.guarded := fun b as u => by
    cases b
    · rfl
    · exact hput as u
  exact userOut_access fun _ _ => by split <;> simp [hite]

/-! ### Floating-point results (46_fp_arith.md R633) -/

theorem userOut_fpFinish {c : FpExc} {w : State → State} (hu : u = s ∨ u = s.drawn)
    (hw : ∀ u, (w u).guarded = u.guarded) : UserOut s o (fpFinish u c w) := by
  intro t ht
  rcases fpFinish_next ht with ⟨-, rfl⟩ | ⟨-, rfl⟩
  · rcases hu with rfl | rfl <;> exact userStep_raise rfl rfl rfl nofun
  · refine userStep_of_guarded ((hw _).trans ?_)
    rcases hu with rfl | rfl <;> rfl

theorem userOut_fpS (hu : u = s ∨ u = s.drawn) (fd : FReg) (r : FpOut) : UserOut s o (fpS u fd r) :=
  userOut_fpFinish hu fun _ => rfl

theorem userOut_fpD (hu : u = s ∨ u = s.drawn) (fd : FReg) (r : FpOut) : UserOut s o (fpD u fd r) :=
  userOut_fpFinish hu fun _ => rfl

theorem userOut_fpCompare (cd : CReg) (F : Fmt) (cond : BitVec 5) (x y : Word) :
    UserOut s o (fpCompare s cd F cond x y) := userOut_fpFinish (.inl rfl) fun _ => rfl

theorem userOut_fpQuietS (fd : FReg) (v : Word) : UserOut s o (fpQuietS s fd v) := userOut_next rfl

theorem userOut_fpQuietD (fd : FReg) (v : Word) : UserOut s o (fpQuietD s fd v) := userOut_next rfl

/-! ### The performance counters (49_privileged.md R811) -/

/-- Reading a register has no effect, since no message interrupts are implemented (R813, R886; log 38). -/
@[simp] theorem State.csrReadEffect_eq (s : State) (c : CsrId) : s.csrReadEffect c = s := by
  have hno : s.msgSel = none := rfl
  unfold State.csrReadEffect
  rw [hno]
  split
  · cases ‹none = some _›
  · rfl

/-- Below PLV0 CSRRD reads a counter, which has no effect, or raises IPE. -/
theorem userOut_csrrd (rd : Reg) (csr : BitVec 14) : UserOut s o (execCsrrd rd csr s) := by
  have hread : (s.afterCsrRead csr).guarded = s.guarded := by
    unfold State.afterCsrRead
    split
    · rw [State.csrReadEffect_eq]
    · rfl
  refine userOut_ite (userOut_next ?_) (userOut_raise nofun)
  rw [State.guarded_retire, hread]

end

end Sys2Proof.Machine
end

section
/-! SUPPORT. Every instruction below PLV0, family by family; and the statement of it. -/

namespace Sys2Proof.Machine

section
variable {s : State} (h : s.plv ≠ 0)
include h

/-- An instruction below PLV0 leaves the guarded part of the state, but for the watchpoint status and for exceptions. -/
theorem userOut_exec (i : Instr) : UserOut s (s.accessOf i) (exec i s) := by
  cases i with
  | alslW | alslWu | bytepickW | bytepickD | addW | addD | subW | subD | slt | sltu | maskeqz | masknez | nor | and
  | or | xor | orn | andn | sllW | srlW | sraW | sllD | srlD | sraD | rotrW | rotrD | mulW | mulhW | mulhWu | mulD
  | mulhD | mulhDu | mulwDW | mulwDWu | crcWBW | crcWHW | crcWWW | crcWDW | crccWBW | crccWHW | crccWWW | crccWDW
  | alslD | cloW | clzW | ctoW | ctzW | cloD | clzD | ctoD | ctzD | revb2H | revb4H | revb2W | revbD | revh2W | revhD
  | bitrev4B | bitrev8B | bitrevW | bitrevD | extWH | extWB | cpucfg | slliW | slliD | srliW | srliD | sraiW | sraiD
  | rotriW | rotriD | slti | sltui | addiW | addiD | lu52iD | andi | ori | xori | addu16iD | lu12iW | lu32iD | pcaddi
  | pcalau12i | pcaddu12i | pcaddu18i => exact userOut_retire _ _
  | divD | modD | divDu | modDu => exact userOut_opDiv _ _ _ _ _
  | divW | modW | divWu | modWu => exact userOut_opDivW _ _ _ _ _
  | bstrinsW | bstrpickW | bstrinsD | bstrpickD => exact userOut_ite (userOut_raise nofun) (userOut_retire _ _)
  | beqz | bnez | beq | bne | blt | bge | bltu | bgeu => exact userOut_branchIf _ _
  | b => exact userOut_next rfl
  | jirl | bl => exact userOut_link _ _ _
  | preld | preldx | dbar => exact userOut_advance
  | ibar => exact userOut_next rfl
  | brk | syscall => exact userOut_raise nofun
  | rdtimelW | rdtimeD => exact userOut_rdtime _ _ _
  | rdtimehW rd rj => exact userOut_rdtime (fun t => sext32 (bits t 32 32)) rd rj
  | asrtleD | asrtgtD => exact userOut_assertTrue _
  | ldptrW | ldptrD | ldB | ldH | ldW | ldD | ldBu | ldHu | ldWu | ldxB | ldxH | ldxW | ldxD | ldxBu | ldxHu | ldxWu
  | ldgtB | ldgtH | ldgtW | ldgtD | ldleB | ldleH | ldleW | ldleD => exact userOut_loadX _ _
  | stptrW | stptrD | stB | stH | stW | stD | stxB | stxH | stxW | stxD | stgtB | stgtH | stgtW | stgtD | stleB
  | stleH | stleW | stleD => exact userOut_storeX _
  | amswapW | amswapD | amaddW | amaddD | amandW | amandD | amorW | amorD | amxorW | amxorD | ammaxW | ammaxD
  | amminW | amminD | ammaxWu | ammaxDu | amminWu | amminDu | amswapDbW | amswapDbD | amaddDbW | amaddDbD | amandDbW
  | amandDbD | amorDbW | amorDbD | amxorDbW | amxorDbD | ammaxDbW | ammaxDbD | amminDbW | amminDbD | ammaxDbWu
  | ammaxDbDu | amminDbWu | amminDbDu => exact userOut_amoChecked _ _ _ _ _ _
  | amswapB | amswapH | amaddB | amaddH | amswapDbB | amswapDbH | amaddDbB | amaddDbH =>
    exact userOut_amo _ _ _ _ _ _
  | amcasB | amcasH | amcasW | amcasD | amcasDbB | amcasDbH | amcasDbW | amcasDbD =>
    exact userOut_amcas _ _ _ _ _ _
  | llW | llD | llacqW | llacqD => exact userOut_loadLinked _ _ _ _
  | scW rd | scD rd | screlW rd | screlD rd =>
    exact userOut_storeCond (put := fun as u => u.storeBytes as (s.x rd)) (fun _ _ => by simp) rd
  | scQ rd rj rk =>
    exact userOut_storeCond (put := fun as u => (u.storeBytes (as.take 8) (s.x rd)).storeBytes (as.drop 8) (s.x rk))
      (fun _ _ => by simp) rd
  | faddS | fsubS | fmulS | fdivS | fscalebS | flogbS | fsqrtS | frecipS | frsqrtS | frecipeS | frsqrteS | fcvtSD
  | ffintSW | ffintSL | fmaddS => exact userOut_floating (userOut_fpS (.inl rfl) _ _)
  | faddD | fsubD | fmulD | fdivD | fscalebD | flogbD | fsqrtD | frecipD | frsqrtD | frecipeD | frsqrteD | fcvtDS
  | ffintDW | ffintDL | fmaddD => exact userOut_floating (userOut_fpD (.inl rfl) _ _)
  | fmaxS | fminS | fmaxaS | fminaS | ftintrmWS | ftintrmWD | ftintrpWS | ftintrpWD | ftintrzWS | ftintrzWD
  | ftintrneWS | ftintrneWD | ftintWS | ftintWD | frintS | fmsubS | fnmaddS | fnmsubS =>
    exact userOut_floating (userOut_fpS (.inr rfl) _ _)
  | fmaxD | fminD | fmaxaD | fminaD | ftintrmLS | ftintrmLD | ftintrpLS | ftintrpLD | ftintrzLS | ftintrzLD
  | ftintrneLS | ftintrneLD | ftintLS | ftintLD | frintD | fmsubD | fnmaddD | fnmsubD =>
    exact userOut_floating (userOut_fpD (.inr rfl) _ _)
  | fcmpCafS | fcmpSafS | fcmpCltS | fcmpSltS | fcmpCeqS | fcmpSeqS | fcmpCleS | fcmpSleS | fcmpCunS | fcmpSunS
  | fcmpCultS | fcmpSultS | fcmpCueqS | fcmpSueqS | fcmpCuleS | fcmpSuleS | fcmpCneS | fcmpSneS | fcmpCorS | fcmpSorS
  | fcmpCuneS | fcmpSuneS | fcmpCafD | fcmpSafD | fcmpCltD | fcmpSltD | fcmpCeqD | fcmpSeqD | fcmpCleD | fcmpSleD
  | fcmpCunD | fcmpSunD | fcmpCultD | fcmpSultD | fcmpCueqD | fcmpSueqD | fcmpCuleD | fcmpSuleD | fcmpCneD | fcmpSneD
  | fcmpCorD | fcmpSorD | fcmpCuneD | fcmpSuneD => exact userOut_floating (userOut_fpCompare _ _ _ _ _)
  | fcopysignS | fabsS | fnegS | fclassS | fmovS | movgr2frW => exact userOut_floating (userOut_fpQuietS _ _)
  | fcopysignD | fabsD | fnegD | fclassD | fmovD | movgr2frD | movgr2frhW | fsel =>
    exact userOut_floating (userOut_fpQuietD _ _)
  | movfr2grS | movfr2grD | movfrh2grS | movcf2gr => exact userOut_floating (userOut_retire _ _)
  | movfr2cf | movgr2cf | movcf2fr => exact userOut_floating (userOut_next rfl)
  | movgr2fcsr => exact userOut_floating (userOut_next (State.guarded_writeFcsr s _ _))
  | movfcsr2gr => exact userOut_floating (userOut_next (by split <;> simp))
  | bceqz => exact userOut_floating (userOut_branchUnless _ _)
  | bcnez => exact userOut_floating (userOut_branchIf _ _)
  | fldS | fldxS | fldgtS | fldleS => exact userOut_floating (userOut_loadFS _)
  | fldD | fldxD | fldgtD | fldleD => exact userOut_floating (userOut_loadFD _)
  | fstS | fstD | fstxS | fstxD | fstgtS | fstgtD | fstleS | fstleD => exact userOut_floating (userOut_storeX _)
  | csrrd => exact userOut_csrrd _ _
  | csrwr | csrxchg | iocsrrdB | iocsrrdH | iocsrrdW | iocsrrdD | iocsrwrB | iocsrwrH | iocsrwrW | iocsrwrD | cacop
  | tlbsrch | tlbrd | tlbwr | tlbfill | tlbclr | tlbflush | invtlb | lddir | ldpte | ertn | dbcl | idle =>
    exact userOut_privileged h

end

/-- Settles O53: each family of instructions leaves the guarded part alone, and what a watchpoint or an exception does
besides is done by the access or the exception itself. -/
theorem userModeKeepsPrivilege : Obligations.UserModeKeepsPrivilege := fun _ t i hp he => userOut_exec hp i t he

end Sys2Proof.Machine
end

section
/-! SUPPORT. The shapes of the floating-point comparisons, moves, branches, loads and stores (47_fp_cmp_cvt.md R700,
R701; 48_fp_move_branch_mem.md R760, R783). -/

namespace Sys2Proof.Machine

/-! ## Comparisons (R700, R701) -/

section
variable {i j : Instr} {s : State} {cd : CReg} {F : Fmt} {cond : BitVec 5} {x y : Word}

/-- The truth of a condition by the four relations that its bits name (R700). -/
theorem Fmt.holds_eq (F : Fmt) (cond : BitVec 5) (x y : Word) : F.holds cond x y =
    (((!(F.isNan x || F.isNan y)) && decide (F.order x < F.order y)) && (cond.getLsbD 1 || cond.getLsbD 4) ||
      ((!(F.isNan x || F.isNan y)) && decide (F.order x = F.order y)) && cond.getLsbD 2 ||
      ((!(F.isNan x || F.isNan y)) && decide (F.order y < F.order x)) && cond.getLsbD 4 ||
      (F.isNan x || F.isNan y) && cond.getLsbD 3) := by
  cases hun : F.isNan x || F.isNan y
  case true => simp [Fmt.holds, hun]
  case false =>
    rcases lt_trichotomy (F.order x) (F.order y) with h | h | h
    · simp [Fmt.holds, hun, h, h.ne, h.not_gt]
    · simp [Fmt.holds, hun, h]
    · simp [Fmt.holds, hun, h, h.ne', h.not_gt]

/-- A comparison writes its truth into `cfr[cd]` and records its exceptions, or traps (R633, R701). -/
theorem finishesCc_of_fpCompare (hon : FpOn s) (h : exec i s = floating s (fpCompare s cd F cond x y)) :
    FinishesCc i s cd (F.holds cond x y) (F.compareExc cond x y) := by
  rw [floating_on hon] at h
  refine ⟨fun hq => ⟨_, h.trans (fpFinish_quiet hq), fun c => State.cc_setCc _ cd c _,
    State.fpRecorded_joinFlags s _, rfl, fun _ => rfl, fun _ => rfl, fun _ => rfl, rfl, ⟨rfl, rfl⟩,
    ⟨rfl, rfl, rfl, rfl, rfl, rfl, rfl, rfl⟩⟩, fun ht => h.trans (fpFinish_trap ht)⟩

/-- A quiet comparison generates V on an SNaN (R701). -/
theorem Fmt.compareExc_quiet (h : cond.getLsbD 0 = false) :
    F.compareExc cond x y = if F.isSnan x || F.isSnan y then excV else 0 := by
  rw [Fmt.compareExc, h, Bool.false_and, Bool.or_false]

/-- An SNaN is a NaN. -/
theorem Fmt.isNan_of_isSnan {w : Word} (h : F.isSnan w = true) : F.isNan w = true := by
  rw [Fmt.isSnan, Bool.and_eq_true] at h
  exact h.1

/-- A signaling comparison generates V on any NaN (R701). -/
theorem Fmt.compareExc_signaling (h : cond.getLsbD 0 = true) :
    F.compareExc cond x y = if F.isNan x || F.isNan y then excV else 0 := by
  have hx := F.isNan_of_isSnan (w := x)
  have hy := F.isNan_of_isSnan (w := y)
  rw [Fmt.compareExc, h]
  refine if_congr ?_ rfl rfl
  simp only [Bool.true_and, Bool.or_eq_true]
  tauto

/-- `p` is the condition that bits 1 to 4 of `cond` name: LT, EQ, UN, and LT with GT (R700). -/
abbrev NamesCondition (cond : BitVec 5) (p : Bool → Bool → Bool → Bool → Bool) : Prop :=
  ∀ lt eq gt un, (lt && (cond.getLsbD 1 || cond.getLsbD 4) || eq && cond.getLsbD 2 || gt && cond.getLsbD 4 ||
    un && cond.getLsbD 3) = p lt eq gt un

/-- A quiet comparison and the signaling one of the same condition (R700, R701). -/
theorem finishesCc_pair {sig : BitVec 5} {p : Bool → Bool → Bool → Bool → Bool} (hon : FpOn s)
    (hp : NamesCondition cond p) (hps : NamesCondition sig p) (hq : cond.getLsbD 0 = false)
    (hs : sig.getLsbD 0 = true) (hi : exec i s = floating s (fpCompare s cd F cond x y))
    (hj : exec j s = floating s (fpCompare s cd F sig x y)) (un b : Bool) (hun : un = (F.isNan x || F.isNan y))
    (hb : b = p (!un && decide (F.order x < F.order y)) (!un && decide (F.order x = F.order y))
      (!un && decide (F.order y < F.order x)) un) :
    FinishesCc i s cd b (if F.isSnan x || F.isSnan y then excV else 0) ∧
      FinishesCc j s cd b (if un then excV else 0) := by
  subst hun
  have hcond : F.holds cond x y = b := by rw [Fmt.holds_eq, hp, hb]
  have hsig : F.holds sig x y = b := by rw [Fmt.holds_eq, hps, hb]
  exact ⟨hcond ▸ Fmt.compareExc_quiet hq ▸ finishesCc_of_fpCompare hon hi,
    hsig ▸ Fmt.compareExc_signaling hs ▸ finishesCc_of_fpCompare hon hj⟩

/-- The four comparisons of one condition: quiet and signaling, single and double. -/
theorem finishesCc_row {sig : BitVec 5} {p : Bool → Bool → Bool → Bool → Bool} {fj fk : FReg}
    {qs ss qd sd : CReg → FReg → FReg → Instr} (hon : FpOn s)
    (hp : NamesCondition cond p) (hps : NamesCondition sig p) (hq : cond.getLsbD 0 = false)
    (hs : sig.getLsbD 0 = true)
    (hqs : exec (qs cd fj fk) s = floating s (fpCompare s cd single cond (s.fsw fj) (s.fsw fk)))
    (hss : exec (ss cd fj fk) s = floating s (fpCompare s cd single sig (s.fsw fj) (s.fsw fk)))
    (hqd : exec (qd cd fj fk) s = floating s (fpCompare s cd double cond (s.f fj) (s.f fk)))
    (hsd : exec (sd cd fj fk) s = floating s (fpCompare s cd double sig (s.f fj) (s.f fk))) :
    ∀ q ∈ [(single, (s.fs fj).setWidth 64, (s.fs fk).setWidth 64, qs cd fj fk, ss cd fj fk),
        (double, s.f fj, s.f fk, qd cd fj fk, sd cd fj fk)],
      ∀ un : Bool, ∀ b : Bool, un = (q.1.isNan q.2.1 || q.1.isNan q.2.2.1) →
        b = p (!un && decide (q.1.order q.2.1 < q.1.order q.2.2.1))
          (!un && decide (q.1.order q.2.1 = q.1.order q.2.2.1))
          (!un && decide (q.1.order q.2.2.1 < q.1.order q.2.1)) un →
        FinishesCc q.2.2.2.1 s cd b (if q.1.isSnan q.2.1 || q.1.isSnan q.2.2.1 then excV else 0) ∧
        FinishesCc q.2.2.2.2 s cd b (if un then excV else 0) := by
  rw [List.forall_mem_cons, List.forall_mem_singleton]
  exact ⟨finishesCc_pair hon hp hps hq hs hqs hss, finishesCc_pair hon hp hps hq hs hqd hsd⟩

end

/-! ## Moves and branches that leave the rest of the state alone (R775 to R782) -/

section
variable {i : Instr} {s u : State} {v : BitVec 32}

/-- A write of fcsr0 changes it and the pc. -/
theorem movesFcsr_of_setFcsr0 (h : exec i s = .next u.advance) (hu : u = s.setFcsr0 v ∨ u = (s.setFcsr0 v).drawn) :
    MovesFcsr i s v := by
  rcases hu with rfl | rfl <;>
    exact ⟨_, h, rfl, rfl, fun _ => rfl, fun _ => rfl, fun _ => rfl, fun _ => rfl, rfl, ⟨rfl, rfl⟩,
      ⟨rfl, rfl, rfl, rfl, rfl, rfl, rfl, rfl⟩⟩

theorem movesCc_of_setCc {cd : CReg} {b : Bool} (h : exec i s = .next (s.setCc cd b).advance) : MovesCc i s cd b :=
  ⟨_, h, fun c => s.cc_setCc cd c b, rfl, fun _ => rfl, fun _ => rfl, rfl, fun _ => rfl, rfl, ⟨rfl, rfl⟩,
    ⟨rfl, rfl, rfl, rfl, rfl, rfl, rfl, rfl⟩⟩

/-- The bits that fcsr0 to fcsr3 show (R29, R30). -/
theorem fcsrView_eq {n : BitVec 5} (h : n.toNat < 4) : fcsrView n =
    if n = 0 then 0x1F1F031F else if n = 1 then 0x1F else if n = 2 then 0x1F1F0000 else 0x300 := by
  have hn : n = 0 ∨ n = 1 ∨ n = 2 ∨ n = 3 := by bv_omega
  rcases hn with rfl | rfl | rfl | rfl <;> rfl

/-- Of fcsr0 to fcsr3 the field that the number names changes (R775). -/
theorem State.writeFcsr_of_lt {n : BitVec 5} (h : n.toNat < 4) (s : State) (v : BitVec 32) :
    s.writeFcsr n v = s.setFcsr0 ((s.fcsr0 &&& ~~~(fcsrView n)) ||| (v &&& fcsrView n)) := if_pos h

/-- For a number that does not exist the defined bits become any value (R775; log 17). -/
theorem State.writeFcsr_of_not_lt {n : BitVec 5} (h : ¬n.toNat < 4) (s : State) (v : BitVec 32) :
    s.writeFcsr n v = (s.setFcsr0 ((s.fcsr0 &&& ~~~fcsrDefined) ||| (low32 s.free &&& fcsrDefined))).drawn := if_neg h

end

/-! ## Loads and stores (R783) -/

section
variable {i : Instr} {s : State} {a : Access} {fd : FReg} {ps : List Phys}

theorem completesFs_of_loadFS (hon : FpOn s) (h : exec i s = floating s (loadFS s a fd)) (hps : Accesses s a ps) :
    CompletesFs i s fd (BitVec.ofNat 32 (s.valueAt (physAddrs ps))) := by
  have hv : low32 (s.loadBytes (physAddrs ps)) = BitVec.ofNat 32 (s.valueAt (physAddrs ps)) :=
    (congrArg low32 (s.loadBytes_eq _)).trans (BitVec.setWidth_ofNat_of_le (by decide) _)
  exact ⟨_, (h.trans (floating_on hon)).trans (access_ok hps), hv ▸ s.setFS_advance_onlyFs fd _⟩

theorem completesF_of_loadFD (hon : FpOn s) (h : exec i s = floating s (loadFD s a fd)) (hps : Accesses s a ps) :
    CompletesF i s fd (BitVec.ofNat 64 (s.valueAt (physAddrs ps))) :=
  ⟨_, (h.trans (floating_on hon)).trans (access_ok hps), s.loadBytes_eq _ ▸ s.setF_advance_onlyF fd _⟩

theorem completesStore_of_floating_storeX {v : Word} (hon : FpOn s) (hm : MemOk s)
    (h : exec i s = floating s (storeX s a v)) (hps : Accesses s a ps) : CompletesStore i s (physAddrs ps) v :=
  storesX_of_storeX hm (h.trans (floating_on hon)) ps hps

end

end Sys2Proof.Machine
end

section
/-! The obligations of the floating-point comparisons, moves, branches, loads and stores (47_fp_cmp_cvt.md R700 to R723;
48_fp_move_branch_mem.md). -/

namespace Sys2Proof.Machine

/-- Settles O35: the moves into floating-point registers are quiet results, those out of them retire a value. -/
theorem fpMoves : Obligations.FpMoves := by
  intro s fd fj fk rd rj ca hon
  exact ⟨completesFs_of_fpQuietS hon rfl rfl, completesF_of_fpQuietD hon rfl rfl, completesF_of_fpQuietD hon rfl rfl,
    completesFs_of_fpQuietS hon rfl rfl, completesF_of_fpQuietD hon rfl rfl, completesF_of_fpQuietD hon rfl rfl,
    completesX_of_retire (floating_on hon), completesX_of_retire (floating_on hon),
    completesX_of_retire_eq (floating_on hon) (sext32_bits_high _)⟩

/-- Settles O36: fcsr1 to fcsr3 as views of fcsr0, a number above 3 apart; the flag moves and the branches by their
rules. -/
theorem fcsrAndFlagMoves : Obligations.FcsrAndFlagMoves := by
  rintro s n o rd rj fd fj c _ hon rfl
  have hmove : exec (.movgr2fcsr n rj) s = .next (s.writeFcsr n (low32 (s.x rj))).advance := floating_on hon
  have hread : exec (.movfcsr2gr rd n) s =
      .next (if n.toNat < 4 then s.retire rd (sext32 (s.fcsr0 &&& fcsrView n)) else s.retireAny rd) := floating_on hon
  have hzero : exec (.bceqz c o) s = .next (if s.cc c then s.advance else s.setPc (s.target o)) := floating_on hon
  have hone : exec (.bcnez c o) s = .next (if s.cc c then s.setPc (s.target o) else s.advance) := floating_on hon
  refine ⟨?_, movesCc_of_setCc (floating_on hon), movesCc_of_setCc (floating_on hon),
    completesX_of_retire (floating_on hon), ?_, ?_, ?_⟩
  · split
    case isTrue h =>
      rw [← fcsrView_eq h]
      rw [State.writeFcsr_of_lt h] at hmove
      rw [if_pos h] at hread
      exact ⟨movesFcsr_of_setFcsr0 hmove (.inl rfl), completesX_of_retire hread⟩
    case isFalse h =>
      rw [State.writeFcsr_of_not_lt h] at hmove
      rw [if_neg h] at hread
      exact ⟨⟨_, movesFcsr_of_setFcsr0 hmove (.inr rfl)⟩, _, completesX_of_retireAny hread⟩
  · cases hc : s.cc c <;> rw [hc] at hzero <;> exact completesAt_of_setPc hzero
  · cases hc : s.cc c <;> rw [hc] at hone <;> exact completesAt_of_setPc hone
  · refine ⟨withBit s.free 0 (s.cc c), ?_, _, floating_on hon, s.setF_advance_onlyF fd _⟩
    exact getLsbD_withBit _ _ (by decide)

/-- Settles O37: each load and store as its width and its destination say, with the bound checks read as comparisons of
numbers. -/
theorem fpLoadsAndStores : Obligations.FpLoadsAndStores := by
  rintro s fd rj rk si12 _ _ ps hon hm rfl rfl
  rw [← s.boundGt_eq_decide rj rk, ← s.boundLe_eq_decide rj rk]
  simp only [List.forall_mem_cons]
  refine ⟨⟨?_, ?_, ?_, ?_, List.forall_mem_nil _⟩, ⟨?_, ?_, ?_, ?_, List.forall_mem_nil _⟩,
    ⟨?_, ?_, ?_, ?_, ?_, ?_, ?_, ?_, List.forall_mem_nil _⟩⟩
  iterate 4 exact completesFs_of_loadFS hon rfl
  iterate 4 exact completesF_of_loadFD hon rfl
  iterate 8 exact completesStore_of_floating_storeX hon hm rfl

/-- Settles O32: each row names its condition by bits 1 to 4, and bit 0 tells the signaling comparison. -/
theorem fpComparisons : Obligations.FpComparisons := by
  intro s cd fj fk hon
  refine List.forall_mem_cons.2 ⟨?_, List.forall_mem_cons.2 ⟨?_, List.forall_mem_cons.2 ⟨?_, List.forall_mem_cons.2 ⟨?_,
    List.forall_mem_cons.2 ⟨?_, List.forall_mem_cons.2 ⟨?_, List.forall_mem_cons.2 ⟨?_, List.forall_mem_cons.2 ⟨?_,
    List.forall_mem_cons.2 ⟨?_, List.forall_mem_cons.2 ⟨?_, List.forall_mem_singleton.2 ?_⟩⟩⟩⟩⟩⟩⟩⟩⟩⟩
  · exact finishesCc_row (cond := 0x0) hon (by decide) (by decide) rfl rfl rfl rfl rfl rfl
  · exact finishesCc_row (cond := 0x8) hon (by decide) (by decide) rfl rfl rfl rfl rfl rfl
  · exact finishesCc_row (cond := 0x4) hon (by decide) (by decide) rfl rfl rfl rfl rfl rfl
  · exact finishesCc_row (cond := 0xC) hon (by decide) (by decide) rfl rfl rfl rfl rfl rfl
  · exact finishesCc_row (cond := 0x2) hon (by decide) (by decide) rfl rfl rfl rfl rfl rfl
  · exact finishesCc_row (cond := 0xA) hon (by decide) (by decide) rfl rfl rfl rfl rfl rfl
  · exact finishesCc_row (cond := 0x6) hon (by decide) (by decide) rfl rfl rfl rfl rfl rfl
  · exact finishesCc_row (cond := 0xE) hon (by decide) (by decide) rfl rfl rfl rfl rfl rfl
  · exact finishesCc_row (cond := 0x10) hon (by decide) (by decide) rfl rfl rfl rfl rfl rfl
  · exact finishesCc_row (cond := 0x14) hon (by decide) (by decide) rfl rfl rfl rfl rfl rfl
  · exact finishesCc_row (cond := 0x18) hon (by decide) (by decide) rfl rfl rfl rfl rfl rfl

end Sys2Proof.Machine
end

section
/-! SUPPORT. The fields of a register: what a field written reads, and what the other fields keep. -/

namespace Sys2Proof.Machine

section
variable {n k m : Nat} (x : BitVec n) (v : BitVec k) (b : Bool) {lo l i j : Nat}

/-- A field reads what was written to it. -/
theorem bits_withBits_same (h : lo + k ≤ n) : bits (withBits x lo v) lo k = v := by
  refine BitVec.eq_of_getLsbD_eq fun i hi => ?_
  rw [getLsbD_bits, decide_eq_true hi, getLsbD_withBits, if_pos (by omega), Nat.add_sub_cancel_left, Bool.true_and]

/-- A field apart from the written one keeps its bits. -/
theorem bits_withBits_apart (h : lo + m ≤ l ∨ l + k ≤ lo) : bits (withBits x l v) lo m = bits x lo m := by
  refine BitVec.eq_of_getLsbD_eq fun i hi => ?_
  rw [getLsbD_bits, getLsbD_bits, getLsbD_withBits, if_neg (by omega)]

theorem getLsbD_withBits_apart (h : i < l ∨ l + k ≤ i) : (withBits x l v).getLsbD i = x.getLsbD i := by
  rw [getLsbD_withBits, if_neg (by omega)]

theorem bits_withBit_apart (h : lo + m ≤ i ∨ i < lo) : bits (withBit x i b) lo m = bits x lo m :=
  bits_withBits_apart x _ (by omega)

theorem getLsbD_withBit_ne (h : i ≠ j) : (withBit x j b).getLsbD i = x.getLsbD i :=
  getLsbD_withBits_apart x _ (by omega)

/-- A bit of the written field. -/
theorem getLsbD_withBits_add (h : lo + k ≤ n) (hi : i < k) : (withBits x lo v).getLsbD (lo + i) = v.getLsbD i := by
  rw [getLsbD_withBits, if_pos (by omega), Nat.add_sub_cancel_left]

/-- A field of the written field. -/
theorem bits_withBits_add (h : lo + k ≤ n) (hi : i + m ≤ k) : bits (withBits x lo v) (lo + i) m = bits v i m := by
  refine BitVec.eq_of_getLsbD_eq fun j hj => ?_
  rw [getLsbD_bits, getLsbD_bits, decide_eq_true hj, Nat.add_assoc, getLsbD_withBits_add x v h (by omega)]

/-- The bits of a one-bit field. -/
theorem bits_one (i : Nat) : bits x i 1 = BitVec.ofBool (x.getLsbD i) := by
  refine BitVec.eq_of_getLsbD_eq fun j hj => ?_
  obtain rfl : j = 0 := by omega
  rw [getLsbD_bits]
  cases x.getLsbD i <;> rfl

/-- A field of a field. -/
theorem bits_bits (h : i + m ≤ k) : bits (bits x lo k) i m = bits x (lo + i) m := by
  refine BitVec.eq_of_getLsbD_eq fun j hj => ?_
  simp only [getLsbD_bits, decide_eq_true hj, decide_eq_true (by omega : i + j < k), Bool.true_and, Nat.add_assoc]

end

/-! ## Fields side by side -/

section
variable {n k m lo i : Nat} (x : BitVec n) (y : BitVec k)

theorem getLsbD_append_low (h : i < k) : (x ++ y).getLsbD i = y.getLsbD i := by
  rw [BitVec.getLsbD_append, if_pos h]

theorem getLsbD_append_high (h : k ≤ i) : (x ++ y).getLsbD i = x.getLsbD (i - k) := by
  rw [BitVec.getLsbD_append, if_neg (by omega)]

theorem bits_append_low (h : lo + m ≤ k) : bits (x ++ y) lo m = bits y lo m := by
  refine BitVec.eq_of_getLsbD_eq fun i hi => ?_
  rw [getLsbD_bits, getLsbD_bits, getLsbD_append_low x y (by omega)]

theorem bits_append_high (h : k ≤ lo) : bits (x ++ y) lo m = bits x (lo - k) m := by
  refine BitVec.eq_of_getLsbD_eq fun i hi => ?_
  rw [getLsbD_bits, getLsbD_bits, getLsbD_append_high x y (by omega), Nat.sub_add_comm h]

theorem bits_whole : bits x 0 n = x := by
  refine BitVec.eq_of_getLsbD_eq fun i hi => ?_
  rw [getLsbD_bits, decide_eq_true hi, Nat.zero_add, Bool.true_and]

end

/-! ## Saved and restored modes (11_csr_basic.md R71) -/

section
variable (crmd saved : BitVec 32)

/-- Exception entry clears PLV, IE and WE and leaves the rest of CRMD. -/
theorem crmdEntered_fields : bits (crmdEntered crmd) 0 2 = 0 ∧ (crmdEntered crmd).getLsbD 2 = false ∧
    (crmdEntered crmd).getLsbD 9 = false ∧ (crmdEntered crmd).getLsbD 3 = crmd.getLsbD 3 ∧
    (crmdEntered crmd).getLsbD 4 = crmd.getLsbD 4 ∧ bits (crmdEntered crmd) 5 4 = bits crmd 5 4 := by
  unfold crmdEntered
  refine ⟨?_, ?_, getLsbD_withBit _ _ (by decide), ?_, ?_, ?_⟩
  · rw [bits_withBit_apart _ _ (by decide), bits_withBit_apart _ _ (by decide), bits_withBits_same _ _ (by decide)]
    rfl
  · rw [getLsbD_withBit_ne _ _ (by decide), getLsbD_withBit _ _ (by decide)]
  · rw [getLsbD_withBit_ne _ _ (by decide), getLsbD_withBit_ne _ _ (by decide), getLsbD_withBits_apart _ _ (by decide)]
  · rw [getLsbD_withBit_ne _ _ (by decide), getLsbD_withBit_ne _ _ (by decide), getLsbD_withBits_apart _ _ (by decide)]
  · rw [bits_withBit_apart _ _ (by decide), bits_withBit_apart _ _ (by decide), bits_withBits_apart _ _ (by decide)]

/-- The mode saved on entry, PWE at bit `we`. -/
theorem savedMode_fields {we : Nat} (h : 2 < we) (hw : we < 32) : bits (savedMode crmd we) 0 2 = bits crmd 0 2 ∧
    (savedMode crmd we).getLsbD 2 = crmd.getLsbD 2 ∧ (savedMode crmd we).getLsbD we = crmd.getLsbD 9 := by
  unfold savedMode
  refine ⟨?_, ?_, getLsbD_withBit _ _ hw⟩
  · rw [bits_withBit_apart _ _ (by omega), bits_withBit_apart _ _ (by decide), bits_withBits_same _ _ (by decide)]
  · rw [getLsbD_withBit_ne _ _ (by omega), getLsbD_withBit _ _ (by decide)]

/-- PLV, IE and WE restored from a saved mode; the rest of CRMD stays. -/
theorem restoredMode_fields (we : Nat) : bits (restoredMode crmd saved we) 0 2 = bits saved 0 2 ∧
    (restoredMode crmd saved we).getLsbD 2 = saved.getLsbD 2 ∧
    (restoredMode crmd saved we).getLsbD 9 = saved.getLsbD we ∧
    (restoredMode crmd saved we).getLsbD 3 = crmd.getLsbD 3 ∧
    (restoredMode crmd saved we).getLsbD 4 = crmd.getLsbD 4 ∧
    bits (restoredMode crmd saved we) 5 4 = bits crmd 5 4 := by
  unfold restoredMode
  refine ⟨?_, ?_, getLsbD_withBit _ _ (by decide), ?_, ?_, ?_⟩
  · rw [bits_withBit_apart _ _ (by decide), bits_withBit_apart _ _ (by decide), bits_withBits_same _ _ (by decide)]
  · rw [getLsbD_withBit_ne _ _ (by decide), getLsbD_withBit _ _ (by decide)]
  · rw [getLsbD_withBit_ne _ _ (by decide), getLsbD_withBit_ne _ _ (by decide), getLsbD_withBits_apart _ _ (by decide)]
  · rw [getLsbD_withBit_ne _ _ (by decide), getLsbD_withBit_ne _ _ (by decide), getLsbD_withBits_apart _ _ (by decide)]
  · rw [bits_withBit_apart _ _ (by decide), bits_withBit_apart _ _ (by decide), bits_withBits_apart _ _ (by decide)]

/-- CRMD as the refill context restores it: mapped mode besides (R845). -/
theorem refillMode_fields : bits (withBit (withBit (restoredMode crmd saved 4) 3 false) 4 true) 0 2 = bits saved 0 2 ∧
    (withBit (withBit (restoredMode crmd saved 4) 3 false) 4 true).getLsbD 2 = saved.getLsbD 2 ∧
    (withBit (withBit (restoredMode crmd saved 4) 3 false) 4 true).getLsbD 9 = saved.getLsbD 4 ∧
    (withBit (withBit (restoredMode crmd saved 4) 3 false) 4 true).getLsbD 3 = false ∧
    (withBit (withBit (restoredMode crmd saved 4) 3 false) 4 true).getLsbD 4 = true ∧
    bits (withBit (withBit (restoredMode crmd saved 4) 3 false) 4 true) 5 4 = bits crmd 5 4 := by
  obtain ⟨hplv, hie, hwe, -, -, hmem⟩ := restoredMode_fields crmd saved 4
  refine ⟨?_, ?_, ?_, ?_, getLsbD_withBit _ _ (by decide), ?_⟩
  · rw [bits_withBit_apart _ _ (by decide), bits_withBit_apart _ _ (by decide), hplv]
  · rw [getLsbD_withBit_ne _ _ (by decide), getLsbD_withBit_ne _ _ (by decide), hie]
  · rw [getLsbD_withBit_ne _ _ (by decide), getLsbD_withBit_ne _ _ (by decide), hwe]
  · rw [getLsbD_withBit_ne _ _ (by decide), getLsbD_withBit _ _ (by decide)]
  · rw [bits_withBit_apart _ _ (by decide), bits_withBit_apart _ _ (by decide), hmem]

/-- CRMD as MERRCTL saved it (R845). -/
theorem restoredFromMerr_fields (ctl : BitVec 32) : bits (restoredFromMerr crmd ctl) 0 2 = bits ctl 2 2 ∧
    (restoredFromMerr crmd ctl).getLsbD 2 = ctl.getLsbD 4 ∧ (restoredFromMerr crmd ctl).getLsbD 9 = ctl.getLsbD 6 ∧
    (restoredFromMerr crmd ctl).getLsbD 3 = ctl.getLsbD 7 ∧ (restoredFromMerr crmd ctl).getLsbD 4 = ctl.getLsbD 8 ∧
    bits (restoredFromMerr crmd ctl) 5 2 = bits ctl 9 2 ∧ bits (restoredFromMerr crmd ctl) 7 2 = bits ctl 11 2 := by
  unfold restoredFromMerr
  refine ⟨?_, ?_, ?_, ?_, ?_, ?_, ?_⟩
  · rw [bits_withBits_apart _ _ (by decide), bits_withBits_apart _ _ (by decide), bits_withBits_apart _ _ (by decide),
      bits_withBits_same _ _ (by decide)]
  · rw [getLsbD_withBits_apart _ _ (by decide), getLsbD_withBits_apart _ _ (by decide), bits_one]
    exact getLsbD_withBit _ _ (by decide)
  · rw [getLsbD_withBits_apart _ _ (by decide), bits_one ctl 6]
    exact getLsbD_withBit _ _ (by decide)
  · exact (getLsbD_withBits_add (i := 0) _ _ (by decide) (by decide)).trans (getLsbD_bits ctl 7 6 0)
  · exact (getLsbD_withBits_add (i := 1) _ _ (by decide) (by decide)).trans (getLsbD_bits ctl 7 6 1)
  · exact (bits_withBits_add (i := 2) _ _ (by decide) (by decide)).trans (bits_bits ctl (by decide))
  · exact (bits_withBits_add (i := 4) _ _ (by decide) (by decide)).trans (bits_bits ctl (by decide))

end

/-! ## The registers that the refill and machine error entries make (R866, R868) -/

section
variable (crmd : BitVec 32)

/-- TLB refill entry begins direct mode besides (R866). -/
theorem refillCrmd_fields : bits (withBit (withBit (crmdEntered crmd) 3 true) 4 false) 0 2 = 0 ∧
    (withBit (withBit (crmdEntered crmd) 3 true) 4 false).getLsbD 2 = false ∧
    (withBit (withBit (crmdEntered crmd) 3 true) 4 false).getLsbD 9 = false ∧
    (withBit (withBit (crmdEntered crmd) 3 true) 4 false).getLsbD 3 = true ∧
    (withBit (withBit (crmdEntered crmd) 3 true) 4 false).getLsbD 4 = false ∧
    bits (withBit (withBit (crmdEntered crmd) 3 true) 4 false) 5 4 = bits crmd 5 4 := by
  obtain ⟨hplv, hie, hwe, -, -, hmem⟩ := crmdEntered_fields crmd
  refine ⟨?_, ?_, ?_, ?_, getLsbD_withBit _ _ (by decide), ?_⟩
  · rw [bits_withBit_apart _ _ (by decide), bits_withBit_apart _ _ (by decide), hplv]
  · rw [getLsbD_withBit_ne _ _ (by decide), getLsbD_withBit_ne _ _ (by decide), hie]
  · rw [getLsbD_withBit_ne _ _ (by decide), getLsbD_withBit_ne _ _ (by decide), hwe]
  · rw [getLsbD_withBit_ne _ _ (by decide), getLsbD_withBit _ _ (by decide)]
  · rw [bits_withBit_apart _ _ (by decide), bits_withBit_apart _ _ (by decide), hmem]

/-- TLBREHI after a refill exception: the page number of the bad address, the page size as it was (R866). -/
theorem refillEhi_fields (va ehi : Word) : bits (withBits (vppnImage va) 0 (bits ehi 0 6)) 13 35 = bits va 13 35 ∧
    bits (withBits (vppnImage va) 0 (bits ehi 0 6)) 0 6 = bits ehi 0 6 :=
  ⟨(bits_withBits_apart _ _ (by decide)).trans (bits_pageImage _), bits_withBits_same _ _ (by decide)⟩

/-- MERRCTL as a machine error makes it of CRMD and the report (R868). -/
def merrCtlEntered (r : MerrReport) : BitVec 32 :=
  0#8 ++ r.cause ++ 0#3 ++ bits crmd 7 2 ++ bits crmd 5 2 ++ bits crmd 4 1 ++ bits crmd 3 1 ++ bits crmd 9 1 ++ 0#1 ++
    bits crmd 2 1 ++ bits crmd 0 2 ++ BitVec.ofBool r.repairable ++ 1#1

theorem State.enterMachineError_eq (s : State) (r : MerrReport) : s.enterMachineError r =
    ((s.setCrmd 8).setMerr { s.csr.merr with
      ctl := merrCtlEntered s.csr.basic.crmd r, info1 := r.info1, info2 := r.info2, era := s.pc }).setPc
      s.csr.merr.entry := rfl

theorem merrCtlEntered_fields (r : MerrReport) :
    bits (merrCtlEntered crmd r) 16 8 = r.cause ∧ bits (merrCtlEntered crmd r) 2 2 = bits crmd 0 2 ∧
    bits (merrCtlEntered crmd r) 9 2 = bits crmd 5 2 ∧ bits (merrCtlEntered crmd r) 11 2 = bits crmd 7 2 := by
  unfold merrCtlEntered
  refine ⟨?_, ?_, ?_, ?_⟩ <;> simp (disch := omega) only [bits_append_high, bits_append_low] <;> exact bits_whole _

theorem merrCtlEntered_bits (r : MerrReport) : (merrCtlEntered crmd r).getLsbD 0 = true ∧
    (merrCtlEntered crmd r).getLsbD 1 = r.repairable ∧ (merrCtlEntered crmd r).getLsbD 4 = crmd.getLsbD 2 ∧
    (merrCtlEntered crmd r).getLsbD 6 = crmd.getLsbD 9 ∧ (merrCtlEntered crmd r).getLsbD 7 = crmd.getLsbD 3 ∧
    (merrCtlEntered crmd r).getLsbD 8 = crmd.getLsbD 4 := by
  unfold merrCtlEntered
  refine ⟨?_, ?_, ?_, ?_, ?_, ?_⟩ <;> simp (disch := omega) only [getLsbD_append_high, getLsbD_append_low]
  · rfl
  · cases r.repairable <;> rfl
  · exact getLsbD_bits crmd 2 1 0
  · exact getLsbD_bits crmd 9 1 0
  · exact getLsbD_bits crmd 3 1 0
  · exact getLsbD_bits crmd 4 1 0

end

/-! ## The context that ERTN returns from (49_privileged.md R845) -/

section
variable (s : State)

/-- The returned state is the context's but for KLO, which is cleared, and LLbit, which stays only where KLO was set. -/
theorem State.returnFrom_eq : ∃ l : BitVec 32, l.getLsbD 2 = false ∧ s.returnFrom =
    (s.returnContext.setBasic { s.returnContext.csr.basic with llbctl := l }).setLL (s.klo && s.llbit) := by
  have hbit : s.returnContext.llbit = s.llbit := s.returnContext_llbit
  have hctl : s.returnContext.csr.basic.llbctl = s.csr.basic.llbctl := by
    unfold State.returnContext
    split_ifs <;> rfl
  unfold State.returnFrom
  cases hk : s.klo
  case true =>
    refine ⟨_, getLsbD_withBit s.returnContext.csr.basic.llbctl false (by decide : 2 < 32), ?_⟩
    rw [Bool.true_and, ← hbit]
    rfl
  case false => exact ⟨_, hctl ▸ hk, rfl⟩

variable {s}

theorem State.returnContext_debug (h : s.inDebug = true) : s.returnContext =
    (s.setDebug { s.csr.dbgRegs with dbg := withBit s.csr.dbgRegs.dbg 0 false }).setPc s.csr.dbgRegs.dera := if_pos h

theorem State.returnContext_merr (hd : s.inDebug = false) (h : s.isMerr = true) : s.returnContext =
    ((s.setCrmd (restoredFromMerr s.csr.basic.crmd s.csr.merr.ctl)).setMerr
      { s.csr.merr with ctl := withBit s.csr.merr.ctl 0 false }).setPc s.csr.merr.era := by
  rw [State.returnContext, if_neg (Bool.eq_false_iff.1 hd), if_pos h]

theorem State.returnContext_refill (hd : s.inDebug = false) (hm : s.isMerr = false) (h : s.isTlbr = true) :
    s.returnContext =
      ((s.setCrmd (withBit (withBit (restoredMode s.csr.basic.crmd s.csr.refill.prmd 4) 3 false) 4 true)).setRefill
        { s.csr.refill with era := withBit s.csr.refill.era 0 false }).setPc (bits s.csr.refill.era 2 62 ++ 0#2) := by
  rw [State.returnContext, if_neg (Bool.eq_false_iff.1 hd), if_neg (Bool.eq_false_iff.1 hm), if_pos h]

theorem State.returnContext_general (hd : s.inDebug = false) (hm : s.isMerr = false) (h : s.isTlbr = false) :
    s.returnContext = (s.setCrmd (restoredMode s.csr.basic.crmd s.csr.basic.prmd 3)).setPc s.csr.basic.era := by
  rw [State.returnContext, if_neg (Bool.eq_false_iff.1 hd), if_neg (Bool.eq_false_iff.1 hm), if_neg (Bool.eq_false_iff.1 h)]

/-- The registers that no return changes. -/
theorem State.returnContext_same : s.returnContext.csr.basic.prmd = s.csr.basic.prmd ∧
    s.returnContext.csr.basic.era = s.csr.basic.era ∧ s.returnContext.csr.refill.prmd = s.csr.refill.prmd ∧
    s.returnContext.csr.basic.estat = s.csr.basic.estat := by
  unfold State.returnContext
  split_ifs <;> exact ⟨rfl, rfl, rfl, rfl⟩

/-- Only the refill context ends IsTLBR. -/
theorem State.returnContext_isTlbr (h : s.inDebug = true ∨ s.isMerr = true) :
    s.returnContext.isTlbr = s.isTlbr := by
  cases hd : s.inDebug
  case true => rw [State.returnContext_debug hd]; rfl
  case false => rw [State.returnContext_merr hd (h.resolve_left (Bool.eq_false_iff.1 hd))]; rfl

end

/-! ## Entering debug mode by a debug call (R848) -/

/-- Outside debug mode a debug call sets DST and DCL. -/
theorem State.enterDebug_dbg (s : State) :
    s.enterDebug.inDebug = true ∧ s.enterDebug.csr.dbgRegs.dbg.getLsbD 9 = true :=
  ⟨getLsbD_withBit _ _ (by decide),
    (getLsbD_withBit_ne _ _ (by decide)).trans (getLsbD_withBit _ _ (by decide))⟩

/-! ## Entering an exception (R863, R866, R868) -/

section
variable {s : State} (hd : s.inDebug = false)
include hd

theorem State.raise_refill (va : Word) : s.raise (.tlbr va) = s.enterRefill va :=
  if_neg (Bool.eq_false_iff.1 hd)

theorem State.raise_dbcl : s.raise .dbcl = s.enterDebug :=
  if_neg (Bool.eq_false_iff.1 hd)

theorem State.raiseMachineError_eq (r : MerrReport) : s.raiseMachineError r = s.enterMachineError r :=
  if_neg (Bool.eq_false_iff.1 hd)

end

/-- The general exceptions: all but the TLB refill exception and the debug call. -/
def Exc.IsGeneral : Exc → Prop
  | .tlbr _ | .dbcl => False
  | _ => True

theorem State.raise_general {s : State} {e : Exc} (hd : s.inDebug = false) (he : e.IsGeneral) :
    s.raise e = s.enterGeneral e := by
  unfold State.raise
  rw [if_neg (Bool.eq_false_iff.1 hd)]
  cases e with
  | tlbr _ => exact he.elim
  | dbcl => exact he.elim
  | _ => rfl

/-- The registers after a general exception (R863, R867). -/
theorem State.enterGeneral_basic (s : State) (e : Exc) : (s.enterGeneral e).csr.basic =
    { s.csr.basic with
      prmd := savedMode s.csr.basic.crmd 3
      crmd := crmdEntered s.csr.basic.crmd
      era := s.effVa s.pc
      estat := withBits (withBits s.csr.basic.estat 16 e.ecode) 22 e.esubcode
      badv := e.badv.getD s.csr.basic.badv
      badi := if e.recordsBadi then s.ir else s.csr.basic.badi } := by
  unfold State.enterGeneral
  cases e <;> rfl

theorem State.enterGeneral_tlbehi (s : State) (e : Exc) :
    (s.enterGeneral e).csr.mmu.tlbehi = (e.pageVa.map vppnImage).getD s.csr.mmu.tlbehi := by
  unfold State.enterGeneral
  cases e <;> rfl

/-- What every general exception saves, changes and leaves (R863). -/
theorem State.enterGeneral_entered (s : State) (e : Exc) :
    EnteredGeneral s (s.enterGeneral e) e.ecode e.esubcode (s.entryAddr e.number) := by
  obtain ⟨hplv, hie, hwe, hda, hpg, hmem⟩ := crmdEntered_fields s.csr.basic.crmd
  obtain ⟨hpplv, hpie, hpwe⟩ := savedMode_fields s.csr.basic.crmd (we := 3) (by decide) (by decide)
  have hb := s.enterGeneral_basic e
  have hcrmd : (s.enterGeneral e).csr.basic.crmd = crmdEntered s.csr.basic.crmd := congrArg BasicCsrs.crmd hb
  have hprmd : (s.enterGeneral e).csr.basic.prmd = savedMode s.csr.basic.crmd 3 := congrArg BasicCsrs.prmd hb
  have hestat : (s.enterGeneral e).csr.basic.estat =
      withBits (withBits s.csr.basic.estat 16 e.ecode) 22 e.esubcode := congrArg BasicCsrs.estat hb
  simp only [EnteredGeneral, State.plv, State.ie, State.we, State.da, State.pg, hcrmd, hprmd, hestat]
  refine ⟨rfl, congrArg BasicCsrs.era hb, hpplv, hpie, hpwe, hplv, hie, hwe, hda, hpg, hmem, ?_,
    bits_withBits_same _ _ (by decide), ?_, fun r => State.x_congr (s.enterGeneral_gpr e) r,
    fun r => State.f_congr (s.enterGeneral_fpr e) r, fun c => State.cc_congr (s.enterGeneral_fcc e) c,
    s.enterGeneral_fcsr0 e, fun a => congrArg (Memory.read · a) (s.enterGeneral_mem e),
    ⟨s.enterGeneral_llbit e, s.enterGeneral_llAddr e⟩, by simp [SameUnits]⟩
  · rw [bits_withBits_apart _ _ (by decide), bits_withBits_same _ _ (by decide)]
  · rw [bits_withBits_apart _ _ (by decide), bits_withBits_apart _ _ (by decide)]

theorem State.entryAddr_eq (s : State) (n : Nat) : s.entryAddr n = s.csr.basic.eentry |||
    if (bits s.csr.basic.ecfg 16 3).toNat = 0 then 0
    else BitVec.ofNat 64 (2 ^ ((bits s.csr.basic.ecfg 16 3).toNat + 2) * n) := by
  unfold State.entryAddr
  exact congrArg _ (if_congr BitVec.toNat_eq rfl rfl)

/-! ## CACOP (49_privileged.md R823) -/

/-- CPUCFG word 0x10 says that no cache is present. -/
theorem cacheNamed_eq_false (c : BitVec 3) : Config.cacheNamed c = false :=
  decide_eq_false (Nat.not_lt_zero _)

theorem hitBits_eq_zero {hit : Watchpoint → Bool} (h : ∀ w, hit w = false) : ∀ ws, hitBits hit ws = 0
  | [] => rfl
  | w :: ws => by rw [hitBits, hitBits_eq_zero h ws, h w]; rfl

/-- The query of a CACOP is neither a load nor a store to a watchpoint (D41). -/
theorem State.cacopQuery_unwatched (s : State) (va : Word) : Unwatched s (s.cacopQuery va) :=
  hitBits_eq_zero (fun w => by simp [State.mwpHits, State.cacopQuery, State.ordLoad]) _

/-! ## The check of the floating-point instructions (46_fp_arith.md R630) -/

/-- Every instruction of the floating-point unit checks EUEN.FPE before it does anything else (D27). -/
theorem exec_eq_floating {i : Instr} (s : State) (h : Feature.fp ∈ features i) : ∃ k, exec i s = floating s k := by
  rw [← List.contains_iff_mem] at h
  cases i <;> first | contradiction | exact ⟨_, rfl⟩

end Sys2Proof.Machine
end

section
/-! The obligations of exception entry and return, CACOP, DBCL, the privilege traps and reset (49_privileged.md;
60_exceptions.md; 70_reset_and_hazards.md). -/

namespace Sys2Proof.Machine

/-- Settles O47: the four contexts, each by what it restores, under the one rule for KLO and LLbit. -/
theorem exceptionReturn : Obligations.ExceptionReturn := by
  rintro s _ _ _ hp rfl rfl rfl
  obtain ⟨l, hl, hret⟩ := s.returnFrom_eq
  obtain ⟨hprmd, hera, hrprmd, hestat⟩ := s.returnContext_same
  refine ⟨_, privileged_zero hp, ?_, ?_⟩
  · rw [hret]
    cases hd : s.inDebug
    case true =>
      rw [if_pos rfl, State.returnContext_debug hd]
      exact ⟨rfl, getLsbD_withBit _ _ (by decide), rfl⟩
    rw [if_neg Bool.false_ne_true]
    cases hm : s.isMerr
    case true =>
      rw [if_pos rfl, State.returnContext_merr hd hm]
      exact ⟨rfl, getLsbD_withBit _ _ (by decide), restoredFromMerr_fields _ _⟩
    rw [if_neg Bool.false_ne_true]
    cases ht : s.isTlbr
    case true =>
      rw [if_pos rfl, State.returnContext_refill hd hm ht]
      exact ⟨rfl, getLsbD_withBit _ _ (by decide), refillMode_fields _ _⟩
    case false =>
      rw [if_neg Bool.false_ne_true, if_neg Bool.false_ne_true, State.returnContext_general hd hm ht]
      exact ⟨rfl, restoredMode_fields _ _ _⟩
  · have hfields : s.returnFrom.llbit = (s.klo && s.llbit) ∧ s.returnFrom.klo = false ∧
        s.returnFrom.isTlbr = s.returnContext.isTlbr ∧ s.returnFrom.isMerr = s.returnContext.isMerr ∧
        s.returnFrom.csr.basic.prmd = s.csr.basic.prmd ∧ s.returnFrom.csr.basic.era = s.csr.basic.era ∧
        s.returnFrom.csr.refill.prmd = s.csr.refill.prmd ∧ s.returnFrom.csr.basic.estat = s.csr.basic.estat :=
      hret ▸ ⟨rfl, hl, rfl, rfl, hprmd, hera, hrprmd, hestat⟩
    obtain ⟨hll, hklo, htlbr, hmerr, hprmd, hera, hrprmd, hestat⟩ := hfields
    exact ⟨hll, hklo, s.returnFrom_llAddr, fun h => htlbr.trans (State.returnContext_isTlbr h),
      fun h => hmerr.trans (by rw [State.returnContext_debug h]; rfl), hprmd, hera, hrprmd, hestat,
      fun r => State.x_congr s.returnFrom_gpr r, fun r => State.f_congr s.returnFrom_fpr r,
      fun c => State.cc_congr s.returnFrom_fcc c, s.returnFrom_fcsr0,
      fun a => congrArg (Memory.read · a) s.returnFrom_mem, by simp [SameUnits]⟩

/-- Settles O48: each of the exceptions is a general one; its codes and records are read off the entry. -/
theorem generalEntry : Obligations.GeneralEntry := by
  rintro s va d n _ hd rfl p hp
  have hgen : p.1.IsGeneral ∧ p.1.ecode = p.2.1 ∧ p.1.esubcode = p.2.2 ∧
      (p.1.number = if p.1 = .int n then n else p.2.1.toNat) ∧
      (∀ w, p.1.badv.getD w = if p.1 ∈ [.pil va, .pis va, .pif va, .pme va, .pnr va, .pnx va, .ppi va, .adef va, .adem va,
        .ale va, .bce va] then va else w) ∧
      (∀ w, (p.1.pageVa.map vppnImage).getD w = if p.1 ∈ [.pil va, .pis va, .pif va, .pme va, .pnr va, .pnx va, .ppi va]
        then vppnImage va else w) ∧
      (p.1.recordsBadi = true ↔ p.1 ≠ .int n) := by
    fin_cases hp <;>
      exact ⟨trivial, rfl, rfl, by simp [Exc.number, Exc.ecode], by simp [Exc.badv], by simp [Exc.pageVa],
        by simp [Exc.recordsBadi]⟩
  obtain ⟨hgen, hec, hes, hnum, hbadv, hpage, hbadi⟩ := hgen
  rw [State.raise_general hd hgen, ← hec, ← hes]
  refine ⟨?_, ?_, ?_, ?_⟩
  · have h := s.enterGeneral_entered p.1
    rwa [State.entryAddr_eq, hnum, ← hec] at h
  · rw [State.enterGeneral_basic, hbadv]
  · exact (s.enterGeneral_tlbehi p.1).trans (hpage _)
  · rw [State.enterGeneral_basic, if_congr hbadi rfl rfl, ite_not]

/-- Settles O49: each field of the two entries by the fields it is put together from. -/
theorem refillAndErrorEntry : Obligations.RefillAndErrorEntry := by
  rintro s _ _ va r hd rfl rfl
  rw [State.raise_refill hd, State.raiseMachineError_eq hd]
  constructor
  · obtain ⟨hplv, hie, hwe, hda, hpg, hmem⟩ := refillCrmd_fields s.csr.basic.crmd
    obtain ⟨hpplv, hpie, hpwe⟩ := savedMode_fields s.csr.basic.crmd (we := 4) (by decide) (by decide)
    obtain ⟨hvppn, hps⟩ := refillEhi_fields va s.csr.refill.ehi
    have hera : bits (bits s.pc 2 62 ++ 1#2) 2 62 = bits s.pc 2 62 :=
      (bits_append_high _ _ (by decide)).trans (bits_whole _)
    exact ⟨rfl, hera, getLsbD_append_low _ _ (by decide), rfl, hvppn, hps, hpplv, hpie, hpwe, hplv, hie, hwe, hda, hpg,
      hmem, rfl⟩
  · obtain ⟨hcause, hplv, hdatf, hdatm⟩ := merrCtlEntered_fields s.csr.basic.crmd r
    obtain ⟨hmerr, hrep, hie, hwe, hda, hpg⟩ := merrCtlEntered_bits s.csr.basic.crmd r
    rw [State.enterMachineError_eq]
    exact ⟨rfl, rfl, hmerr, hcause, hrep, hplv, hie, hwe, hda, hpg, hdatf, hdatm, rfl, rfl, rfl, rfl⟩

/-- Settles O51: the privileged instructions check PLV first, the floating-point ones EUEN.FPE. -/
theorem privilegeAndEnableTraps : Obligations.PrivilegeAndEnableTraps := by
  intro s i rd rj rk num op si12 n code
  refine ⟨fun hp hi => ?_, fun hoff hf => ?_⟩
  · fin_cases hi <;> exact privileged_user hp
  · obtain ⟨k, hk⟩ := exec_eq_floating s hf
    exact hk.trans (if_neg (Bool.eq_false_iff.1 hoff))

/-- Settles O41: no cache is named, so that CACOP only goes on; DBCL sets DST and DCL alone, and ERTN clears DST. -/
theorem cacheOpsAndDebugCall : Obligations.CacheOpsAndDebugCall := by
  refine ⟨fun s op rj si12 a hp ha => ?_, fun s code hp hd => ?_⟩
  · subst ha
    have hexec : exec (.cacop op rj si12) s = cacheOp (Config.cacheNamed (bits op 0 3)) op
        (s.cacopQuery (s.x rj + si12.signExtend 64)) s := privileged_zero hp
    refine ⟨completesNothing_of_advance (hexec.trans (cacheOp_nothing (.inl (cacheNamed_eq_false _)))), hexec,
      fun _ => cacheOp_nothing, fun hhit => ⟨fun ps hps => ?_, fun e he => ?_⟩⟩
    · rw [cacheOp_hit hhit, access_ok ⟨hps, s.cacopQuery_unwatched _⟩]
    · rw [cacheOp_hit hhit, access_exc he]
  · have ht : exec (.dbcl code) s = .next s.enterDebug := (privileged_zero hp).trans (by rw [State.raise_dbcl hd])
    obtain ⟨hdst, hdcl⟩ := s.enterDebug_dbg
    obtain ⟨l, -, hret⟩ := s.enterDebug.returnFrom_eq
    rw [State.returnContext_debug hdst] at hret
    refine ⟨_, ht, hdst, hdcl, rfl, rfl, rfl, _, privileged_zero hp, ?_⟩
    rw [hret]
    exact ⟨rfl, getLsbD_withBit _ _ (by decide), rfl⟩

/-- Settles O59: nothing is stored or mapped after reset, and every register holds its reset value. -/
theorem resetInvariant : Obligations.ResetInvariant :=
  ⟨⟨rfl, nofun⟩, rfl, by unfold ReservedOk BasicReservedOk MmuReservedOk RefillReservedOk WatchReservedOk; decide⟩

/-- Settles O60: the reset state, field by field. -/
theorem resetValues : Obligations.ResetValues := by
  rintro _ rfl
  refine ⟨rfl, rfl, rfl, rfl, rfl, rfl, rfl, rfl, rfl, rfl, rfl, ?_, ?_, rfl, rfl, ?_, rfl, rfl, rfl, rfl, rfl, rfl⟩
  all_goals decide

end Sys2Proof.Machine
end

section
/-! SUPPORT. The shapes of the CSR and IOCSR instructions (49_privileged.md R812 to R825). -/

namespace Sys2Proof.Machine

section
variable {i : Instr} {s : State} {rd rj : Reg} {v : Word}

/-- A free value drawn before the result is retired leaves the rest as retiring does. -/
theorem completesX_of_drawn_retire (h : exec i s = .next (s.drawn.retire rd v)) : CompletesX i s rd v :=
  ⟨_, h, s.drawn.retire_onlyX rd v⟩

/-! ## CSR access (R812 to R815) -/

/-- Offering a value to a register changes control and status registers and LLbit alone (R812). -/
theorem State.csrWrite_eq (s : State) (c : CsrId) (v : Word) :
    ∃ r b, s.csrWrite c v = { s with csr := r, llbit := b } := by
  have hmwp (n : Fin 4) (f : Watchpoint → Watchpoint) : ∃ r b, s.setMwp n f = { s with csr := r, llbit := b } := by
    obtain ⟨ws, hws⟩ := exists_setMwp_eq (s := s) (i := n) (f := f)
    exact ⟨_, _, hws⟩
  have hfwp (n : Fin 4) (f : Watchpoint → Watchpoint) : ∃ r b, s.setFwp n f = { s with csr := r, llbit := b } := by
    obtain ⟨ws, hws⟩ := exists_setFwp_eq (s := s) (i := n) (f := f)
    exact ⟨_, _, hws⟩
  cases c with
  | mwpcfg1 n => exact csrWrite_mwpcfg1 s v n ▸ hmwp n _
  | mwpcfg2 n => exact csrWrite_mwpcfg2 s v n ▸ hmwp n _
  | mwpcfg3 n => exact csrWrite_mwpcfg3 s v n ▸ hmwp n _
  | mwpcfg4 n => exact csrWrite_mwpcfg4 s v n ▸ hmwp n _
  | fwpcfg1 n => exact csrWrite_fwpcfg1 s v n ▸ hfwp n _
  | fwpcfg2 n => exact csrWrite_fwpcfg2 s v n ▸ hfwp n _
  | fwpcfg3 n => exact csrWrite_fwpcfg3 s v n ▸ hfwp n _
  | fwpcfg4 n => exact csrWrite_fwpcfg4 s v n ▸ hfwp n _
  | ticlr =>
    change ∃ r b, s.writeTiclr v = _
    unfold State.writeTiclr
    split
    · exact ⟨_, _, rfl⟩
    · exact ⟨_, _, rfl⟩
  | llbctl =>
    change ∃ r b, s.writeLlbctl v = _
    unfold State.writeLlbctl
    dsimp only
    split
    · exact ⟨_, _, rfl⟩
    · exact ⟨_, _, rfl⟩
  | _ => exact ⟨_, _, rfl⟩

/-- A register offered a value, then the old value retired. -/
theorem completesCsr_of_csrWrite {c : CsrId} {old : Word} (h : exec i s = .next ((s.csrWrite c v).retire rd old)) :
    CompletesCsr i s rd old c v := by
  obtain ⟨hx, hpc, hf, hcc, hfcsr, hmem, hstale, hcsr, ⟨hbit, haddr⟩, hunits⟩ := (s.csrWrite c v).retire_onlyX rd old
  refine ⟨_, h, ?_⟩
  obtain ⟨r, b, hw⟩ := s.csrWrite_eq c v
  rw [hw] at hx hpc hf hcc hfcsr hmem hstale hcsr hbit haddr hunits ⊢
  exact ⟨hx, hpc, hcsr, hbit, haddr, hf, hcc, hfcsr, hmem, hstale, hunits⟩

/-- The write-1-to-clear bits are the Status bits of the watchpoints (13 R181, R187). -/
theorem clearBits_eq (c : CsrId) : c.clearBits = if c = .mwps ∨ c = .fwps then 0xF else 0 := by
  cases c <;> rfl

section
variable {num : BitVec 14} {c : CsrId} (hc : csrId num = some c)
include hc

theorem State.csrValue_of_some : s.csrValue num = s.csrRead c := by rw [State.csrValue, hc]

theorem State.afterCsrRead_of_some : s.afterCsrRead num = s := by
  rw [State.afterCsrRead, hc]
  exact s.csrReadEffect_eq c

theorem State.csrOffer_of_some : s.csrOffer num v = s.csrWrite c v := by rw [State.csrOffer, hc]

theorem xchgOffer_of_some (old mask v : Word) : xchgOffer num old mask v =
    (old &&& ~~~mask &&& ~~~(if c = .mwps ∨ c = .fwps then 0xF else 0)) ||| (v &&& mask) := by
  rw [xchgOffer, hc, Option.elim_some, clearBits_eq]

end

section
variable {num : BitVec 14} (hc : csrId num = none)
include hc

theorem State.csrValue_of_none : s.csrValue num = s.free := by rw [State.csrValue, hc]

theorem State.afterCsrRead_of_none : s.afterCsrRead num = s.drawn := by rw [State.afterCsrRead, hc]

theorem State.csrOffer_of_none : s.csrOffer num v = s := by rw [State.csrOffer, hc]

end

/-- Below PLV0 the performance counters are readable where MISC.RPCNTL of the level says so (R811). -/
theorem State.counterReadable_iff {num : BitVec 14} (hp : s.plv ≠ 0) : s.counterReadable num = true ↔
    (∃ n, csrId num = some (.pmcnt n)) ∧ s.csr.basic.misc.getLsbD (8 + s.plv.toNat) = true := by
  have hpm : isPmcnt num = true ↔ ∃ n, csrId num = some (.pmcnt n) := by
    unfold isPmcnt
    constructor
    · intro h
      split at h
      · exact ⟨_, ‹_›⟩
      · cases h
    · rintro ⟨n, hn⟩
      rw [hn]
  rw [State.counterReadable, bne_iff_ne.2 hp, Bool.true_and, Bool.and_eq_true, hpm]

/-! ## The bytes of the IOCSR space (R816) -/

/-- The bytes of an aligned read are those of the registers, lowest first. -/
theorem State.iocsrLoad_byte {b : Byte} : ∀ {as : List Nat} {free : Word} {k : Nat} (hk : k < as.length), k < 8 →
    cellFind s.iocsr as[k] = some b → (s.iocsrLoad true free as >>> (8 * k)).setWidth 8 = b
  | a :: as, free, 0, _, _, hb => by
    have hfirst : cellFind s.iocsr a = some b := hb
    rw [State.iocsrLoad, if_pos rfl, hfirst, Option.getD_some]
    refine BitVec.eq_of_getLsbD_eq fun i hi => ?_
    simp [hi]
  | a :: as, free, k + 1, hk, h8, hb => by
    have hrest := State.iocsrLoad_byte (as := as) (free := free >>> 8) (Nat.lt_of_succ_lt_succ hk) (by omega) hb
    rw [← hrest, State.iocsrLoad]
    refine BitVec.eq_of_getLsbD_eq fun i hi => ?_
    have hlt : 8 * (k + 1) + i < 64 := by omega
    have hge : ¬8 * (k + 1) + i < 8 := by omega
    have hsub : 8 * (k + 1) + i - 8 = 8 * k + i := by omega
    have hout : ((cellFind s.iocsr a).getD (free.setWidth 8)).getLsbD (8 * (k + 1) + i) = false :=
      BitVec.getLsbD_of_ge _ _ (by omega)
    simp only [BitVec.getLsbD_setWidth, BitVec.getLsbD_ushiftRight, BitVec.getLsbD_or, BitVec.getLsbD_shiftLeft, if_pos,
      hi, hlt, hge, hsub, hout, decide_true, decide_false, Bool.not_false, Bool.true_and, Bool.and_false, Bool.or_false]

/-- A byte of a word as a number. -/
theorem toNat_byte (w : Word) (k : Nat) : w.toNat / 256 ^ k % 256 = ((w >>> (8 * k)).setWidth 8).toNat := by
  rw [BitVec.toNat_setWidth, BitVec.toNat_ushiftRight, Nat.shiftRight_eq_div_pow, Nat.pow_mul]

/-- One byte stored where a register has it. -/
theorem cellFind_store (l : List Host.Cell) (a x : Nat) (b : Byte) :
    cellFind (if (cellFind l a).isSome then cellSet l a b else l) x =
      if x = a then (cellFind l a).map fun _ => b else cellFind l x := by
  cases ha : cellFind l a with
  | none => by_cases hx : x = a <;> simp [hx, ha]
  | some c => simp [cellFind_cellSet]

/-- A byte outside the stored ones stays. -/
theorem cellFind_iocsrStore_ne {x : Nat} : ∀ {as : List Nat} {l : List Host.Cell} {v : Word}, x ∉ as →
    cellFind (iocsrStore l as v) x = cellFind l x
  | [], _, _, _ => rfl
  | a :: as, l, v, h => by
    obtain ⟨hne, hrest⟩ := not_or.1 (mt List.mem_cons.2 h)
    rw [iocsrStore, cellFind_iocsrStore_ne hrest, cellFind_store, if_neg hne]

/-- Each stored byte is in its register, where there is one. -/
theorem cellFind_iocsrStore : ∀ {as : List Nat} {l : List Host.Cell} {v : Word} {k : Nat} (hk : k < as.length),
    as.Nodup → cellFind (iocsrStore l as v) as[k] = (cellFind l as[k]).map fun _ => (v >>> (8 * k)).setWidth 8
  | a :: as, l, v, 0, _, hn => by
    obtain ⟨ha, -⟩ := List.nodup_cons.1 hn
    rw [iocsrStore, List.getElem_cons_zero, cellFind_iocsrStore_ne ha, cellFind_store, if_pos rfl]
    rfl
  | a :: as, l, v, k + 1, hk, hn => by
    obtain ⟨ha, hrest⟩ := List.nodup_cons.1 hn
    have hk' : k < as.length := Nat.lt_of_succ_lt_succ hk
    have hne : as[k] ≠ a := fun h => ha (h ▸ List.getElem_mem hk')
    rw [iocsrStore, List.getElem_cons_succ, cellFind_iocsrStore hk' hrest, cellFind_store, if_neg hne,
      ← BitVec.shiftRight_add, Nat.mul_succ, Nat.add_comm]

theorem iocsrAddrs_length (x : Word) (n : Nat) : (iocsrAddrs x n).length = n := by
  rw [iocsrAddrs, List.length_map, List.length_range]

theorem getElem_iocsrAddrs (x : Word) {n k : Nat} (hk : k < (iocsrAddrs x n).length) :
    (iocsrAddrs x n)[k] = (x.toNat + k) % 2 ^ 32 := by
  simp [iocsrAddrs, Config.iocsrAddrBits]

theorem mem_iocsrAddrs {x : Word} {n a : Nat} : a ∈ iocsrAddrs x n ↔ ∃ k, k < n ∧ a = (x.toNat + k) % 2 ^ 32 := by
  simp [iocsrAddrs, Config.iocsrAddrBits, eq_comm]

/-- The bytes of one access are apart. -/
theorem nodup_iocsrAddrs (x : Word) {n : Nat} (hn : n ≤ 8) : (iocsrAddrs x n).Nodup := by
  refine List.Nodup.map_on (fun i hi j hj h => ?_) List.nodup_range
  have hi := List.mem_range.1 hi
  have hj := List.mem_range.1 hj
  have h' : (x.toNat + i) % 2 ^ 32 = (x.toNat + j) % 2 ^ 32 := h
  omega

/-! ## The extensions of the bytes read (R817 to R820) -/

/-- An extension of the bytes read, of any word. -/
theorem toNat_ofNat_ext {ext : Word → Word} {n : Nat} (h : ∀ v, ext (BitVec.ofNat 64 v) = signedOf n v) (w : Word) :
    ext w = signedOf n w.toNat := by
  rw [← h, BitVec.ofNat_toNat, BitVec.setWidth_eq]

/-- A doubleword is its own sign extension. -/
theorem signedOf_toNat (w : Word) : signedOf 64 w.toNat = w := by
  rw [signedOf, BitVec.ofNat_toNat, BitVec.setWidth_eq, BitVec.signExtend_eq]

/-! ## IOCSR access (R816 to R825) -/

/-- At PLV0 the alignment of an IOCSR access is checked where MISC.ALCL says so (R816). -/
theorem State.alignChecked_configured (hp : s.plv = 0) :
    s.alignChecked .configured = s.csr.basic.misc.getLsbD 12 := by
  rw [State.alignChecked, hp]
  rfl

section
variable {n : Nat} {k : Bool → Out}

theorem iocsrAccess_raises (hp : s.plv = 0) (hbad : (s.x rj).toNat % n ≠ 0)
    (hc : s.csr.basic.misc.getLsbD 12 = true) : iocsrAccess n rj s k = .next (s.raise (.ale (s.x rj))) := by
  rw [iocsrAccess, privileged_zero hp, State.alignChecked_configured hp, hc, bne_iff_ne.2 hbad]
  rfl

theorem iocsrAccess_goes (hp : s.plv = 0) (h : (s.x rj).toNat % n = 0 ∨ s.csr.basic.misc.getLsbD 12 = false) :
    iocsrAccess n rj s k = k ((s.x rj).toNat % n == 0) := by
  rw [iocsrAccess, privileged_zero hp, State.alignChecked_configured hp, if_neg]
  rcases h with h | h
  · simp [h]
  · rw [h, Bool.false_and]
    exact Bool.false_ne_true

/-- IOCSRRD: ALE, or the bytes at the address where registers have them. -/
theorem iocsrRead_right {ext : Word → Word} (hp : s.plv = 0) (hn : n ≤ 8)
    (hext : ∀ w : Word, ext w = signedOf (8 * n) w.toNat) (h : exec i s = iocsrRead n ext rd rj s) :
    if (s.x rj).toNat % n ≠ 0 ∧ s.csr.basic.misc.getLsbD 12 = true then Raises i s (.ale (s.x rj))
    else ∃ v : Nat, CompletesX i s rd (signedOf (8 * n) v) ∧ ((s.x rj).toNat % n = 0 →
      ∀ k b, k < n → cellFind s.iocsr (((s.x rj).toNat + k) % 2 ^ 32) = some b → v / 256 ^ k % 256 = b.toNat) := by
  split
  case isTrue hbad => exact h.trans (iocsrAccess_raises hp hbad.1 hbad.2)
  case isFalse hgood =>
    have hgood : (s.x rj).toNat % n = 0 ∨ s.csr.basic.misc.getLsbD 12 = false := by
      rw [not_and_or, not_ne_iff, Bool.not_eq_true] at hgood
      exact hgood
    refine ⟨(s.iocsrLoad ((s.x rj).toNat % n == 0) s.free (iocsrAddrs (s.x rj) n)).toNat, ?_, fun hal k b hk hb => ?_⟩
    · exact hext _ ▸ completesX_of_drawn_retire (h.trans (iocsrAccess_goes hp hgood))
    · have hlen : k < (iocsrAddrs (s.x rj) n).length := (iocsrAddrs_length _ _).symm ▸ hk
      rw [toNat_byte, beq_iff_eq.2 hal,
        State.iocsrLoad_byte hlen (by omega) ((congrArg _ (getElem_iocsrAddrs _ hlen)).trans hb)]

/-- IOCSRWR: ALE, or the bytes stored where registers have them. -/
theorem iocsrWrite_right (hp : s.plv = 0) (hn : n ≤ 8) (h : exec i s = iocsrWrite n rd rj s) :
    if (s.x rj).toNat % n ≠ 0 ∧ s.csr.basic.misc.getLsbD 12 = true then Raises i s (.ale (s.x rj))
    else ∃ l, exec i s = .next { s with iocsr := l, pc := s.pc + 4 } ∧
      ((s.x rj).toNat % n ≠ 0 → l = s.iocsr) ∧
      ((s.x rj).toNat % n = 0 → ∀ k, k < n → cellFind l (((s.x rj).toNat + k) % 2 ^ 32) =
        (cellFind s.iocsr (((s.x rj).toNat + k) % 2 ^ 32)).map fun _ => (s.x rd >>> (8 * k)).setWidth 8) ∧
      ∀ a, (∀ k, k < n → a ≠ ((s.x rj).toNat + k) % 2 ^ 32) → cellFind l a = cellFind s.iocsr a := by
  split
  case isTrue hbad => exact h.trans (iocsrAccess_raises hp hbad.1 hbad.2)
  case isFalse hgood =>
    have hgood : (s.x rj).toNat % n = 0 ∨ s.csr.basic.misc.getLsbD 12 = false := by
      rw [not_and_or, not_ne_iff, Bool.not_eq_true] at hgood
      exact hgood
    refine ⟨_, h.trans (iocsrAccess_goes hp hgood), fun hbad => if_neg (by simpa using hbad), fun hal k hk => ?_,
      fun a ha => ?_⟩
    · have hlen : k < (iocsrAddrs (s.x rj) n).length := (iocsrAddrs_length _ _).symm ▸ hk
      rw [if_pos (beq_iff_eq.2 hal), ← getElem_iocsrAddrs _ hlen]
      exact cellFind_iocsrStore hlen (nodup_iocsrAddrs _ hn)
    · split
      · exact cellFind_iocsrStore_ne fun hmem => (mem_iocsrAddrs.1 hmem).elim fun k hk => ha k hk.1 hk.2
      · rfl

/-- Both directions of one width, in the terms of the obligation. -/
theorem iocsrPair_right {r w : Instr} {ext : Word → Word} (hp : s.plv = 0) (hn : n ≤ 8)
    (hext : ∀ v : Word, ext v = signedOf (8 * n) v.toNat) (hr : exec r s = iocsrRead n ext rd rj s)
    (hw : exec w s = iocsrWrite n rd rj s) (bad : Bool) (at_ : Nat → Nat)
    (hbad : bad = decide ((s.x rj).toNat % n ≠ 0)) (hat : ∀ k, at_ k = ((s.x rj).toNat + k) % 2 ^ 32) :
    if bad = true ∧ s.csr.basic.misc.getLsbD 12 = true then Raises r s (.ale (s.x rj)) ∧ Raises w s (.ale (s.x rj))
    else
      (∃ v : Nat, CompletesX r s rd (signedOf (8 * n) v) ∧
        (bad = false → ∀ k b, k < n → cellFind s.iocsr (at_ k) = some b → v / 256 ^ k % 256 = b.toNat)) ∧
      ∃ l, exec w s = .next { s with iocsr := l, pc := s.pc + 4 } ∧
        (bad = true → l = s.iocsr) ∧
        (bad = false → ∀ k, k < n → cellFind l (at_ k) =
          (cellFind s.iocsr (at_ k)).map fun _ => (s.x rd >>> (8 * k)).setWidth 8) ∧
        ∀ a, (∀ k, k < n → a ≠ at_ k) → cellFind l a = cellFind s.iocsr a := by
  obtain rfl : at_ = fun k => ((s.x rj).toNat + k) % 2 ^ 32 := funext hat
  subst hbad
  have hread := iocsrRead_right hp hn hext hr
  have hwrite := iocsrWrite_right hp hn hw
  simp only [decide_eq_true_eq, decide_eq_false_iff_not, not_ne_iff]
  split
  case isTrue h => exact ⟨(if_pos h).mp hread, (if_pos h).mp hwrite⟩
  case isFalse h => exact ⟨(if_neg h).mp hread, (if_neg h).mp hwrite⟩

end

end

end Sys2Proof.Machine
end

section
/-! The obligations of the CSR and IOCSR instructions (49_privileged.md R810 to R825). -/

namespace Sys2Proof.Machine

/-- Settles O38: with a register the offer of its value, without one a free value; below PLV0 the counter or IPE. -/
theorem csrAccess : Obligations.CsrAccess := by
  intro s rd rj num
  refine ⟨fun hp => ⟨fun c hc => ?_, fun hc => ⟨s.free, ?_, ?_, ?_⟩⟩, fun hp => ⟨fun n hn hopen => ?_, fun hclosed => ?_⟩⟩
  · refine ⟨completesX_of_retire ((if_pos (.inl hp)).trans ?_), completesCsr_of_csrWrite ((privileged_zero hp).trans ?_),
      completesCsr_of_csrWrite ((privileged_zero hp).trans ?_)⟩
    · rw [State.afterCsrRead_of_some hc, State.csrValue_of_some hc]
    · rw [State.afterCsrRead_of_some hc, State.csrValue_of_some hc, State.csrOffer_of_some hc]
    · rw [State.afterCsrRead_of_some hc, State.csrValue_of_some hc, State.csrOffer_of_some hc, xchgOffer_of_some hc]
  · refine completesX_of_drawn_retire ((if_pos (.inl hp)).trans ?_)
    rw [State.afterCsrRead_of_none hc, State.csrValue_of_none hc]
  · refine completesX_of_drawn_retire ((privileged_zero hp).trans ?_)
    rw [State.afterCsrRead_of_none hc, State.csrValue_of_none hc, State.csrOffer_of_none hc]
  · refine completesX_of_drawn_retire ((privileged_zero hp).trans ?_)
    rw [State.afterCsrRead_of_none hc, State.csrValue_of_none hc, State.csrOffer_of_none hc]
  · refine completesX_of_retire ((if_pos (.inr ((State.counterReadable_iff hp).2 ⟨⟨n, hn⟩, hopen⟩))).trans ?_)
    rw [State.afterCsrRead_of_some hn, State.csrValue_of_some hn]
  · refine if_neg (not_or.2 ⟨hp, fun h => ?_⟩)
    obtain ⟨⟨n, hn⟩, hopen⟩ := (State.counterReadable_iff hp).1 h
    exact Bool.false_ne_true ((hclosed n hn).symm.trans hopen)

/-- Settles O40: each width by the one rule of a read and the one rule of a write. -/
theorem iocsr : Obligations.Iocsr := by
  intro s rd rj hp
  exact List.forall_mem_cons.2 ⟨iocsrPair_right (n := 1) hp (by decide) (fun v => toNat_ofNat_ext sextB_ofNat v) rfl rfl,
    List.forall_mem_cons.2 ⟨iocsrPair_right (n := 2) hp (by decide) (fun v => toNat_ofNat_ext sextH_ofNat v) rfl rfl,
    List.forall_mem_cons.2 ⟨iocsrPair_right (n := 4) hp (by decide) (fun v => toNat_ofNat_ext sextW_ofNat v) rfl rfl,
    List.forall_mem_singleton.2
      (iocsrPair_right (n := 8) hp (by decide) (fun v => (signedOf_toNat v).symm) rfl rfl)⟩⟩⟩

end Sys2Proof.Machine
end

section
/-! SUPPORT. The TLB's list by its indexes, the image of a page, and the sets of the STLB (49_privileged.md R830 to
R838). -/

namespace Sys2Proof.Machine

/-! ## The list by its indexes -/

/-- Below the first index that a list in form may have there is no entry. -/
theorem tlbAt_of_lt {i : Nat} : ∀ {lo : Nat} {t : List (Nat × TlbEntry)}, tlbWfFrom lo t = true → i < lo →
    tlbAt t i = none
  | _, [], _, _ => rfl
  | lo, (j, e) :: t, h, hi => by
    obtain ⟨hj, -, ht⟩ := tlbWfFrom_cons.1 h
    rw [tlbAt, if_neg (by omega), tlbAt_of_lt ht (by omega)]

/-- What an index holds after one is written (R837). -/
theorem tlbAt_tlbPut {i : Nat} {o : Option TlbEntry} (k : Nat) : ∀ {lo : Nat} {t : List (Nat × TlbEntry)},
    tlbWfFrom lo t = true → tlbAt (tlbPut t i o) k = if k = i then o else tlbAt t k
  | _, [], _ => by
    cases o with
    | none => simp [tlbPut, tlbAt]
    | some e => rfl
  | lo, (j, d) :: t, h => by
    obtain ⟨-, -, ht⟩ := tlbWfFrom_cons.1 h
    simp only [tlbPut]
    rcases lt_trichotomy i j with hij | rfl | hij
    · rw [if_pos hij]
      cases o with
      | none =>
        dsimp only
        split
        · subst k
          exact (tlbAt_of_lt (lo := j) (tlbWfFrom_cons.2 ⟨Nat.le_refl j, (tlbWfFrom_cons.1 h).2⟩) hij)
        · rfl
      | some e => rfl
    · rw [if_neg (Nat.lt_irrefl i), if_pos rfl]
      cases o with
      | none =>
        dsimp only
        split
        · subst k
          exact tlbAt_of_lt ht (Nat.lt_succ_self i)
        · rw [tlbAt, if_neg ‹_›]
      | some e =>
        dsimp only
        rw [tlbAt, tlbAt]
        split
        · rfl
        · rfl
    · rw [if_neg (by omega), if_neg (by omega), tlbAt, tlbAt, tlbAt_tlbPut k ht]
      by_cases hkj : k = j
      · rw [if_pos hkj, if_neg (by omega), if_pos hkj]
      · rw [if_neg hkj, if_neg hkj]

/-! ## The image of a page in TLBELO (12_csr_mmu.md R112) -/

/-- TLBELO as TLBRD writes it holds the page and the global bit. -/
theorem eloHolds_eloOfPage (p : TlbPage) (g : Bool) : EloHolds (eloOfPage p g) p g := by
  have hbit (b : Bool) : (BitVec.ofBool b).getLsbD 0 = b := by cases b <;> rfl
  refine ⟨?_, ?_, eloOfPage_within p g⟩
  · unfold pageOfElo eloOfPage
    simp (disch := decide) only [getLsbD_append_high, getLsbD_append_low, bits_append_high, bits_append_low]
    simp only [Config.ppnBits, Config.palen, Nat.reduceSub, hbit]
    congr 1 <;> exact bits_whole _
  · unfold eloOfPage
    simp (disch := decide) only [getLsbD_append_high, getLsbD_append_low]
    exact hbit g

/-! ## TLBIDX after a search and a read (R831, R832) -/

theorem searchIdx_none (x : BitVec 32) :
    (searchIdx x none).getLsbD 31 = true ∧ bits (searchIdx x none) 0 31 = bits x 0 31 :=
  ⟨getLsbD_withBit _ _ (by decide), bits_withBit_apart _ _ (by decide)⟩

theorem searchIdx_some (x : BitVec 32) (i : Nat) : bits (searchIdx x (some i)) 0 12 = BitVec.ofNat 12 i ∧
    bits (searchIdx x (some i)) 12 19 = bits x 12 19 ∧ (searchIdx x (some i)).getLsbD 31 = false :=
  ⟨(bits_withBit_apart _ _ (by decide)).trans (bits_withBits_same _ _ (by decide)),
    (bits_withBit_apart _ _ (by decide)).trans (bits_withBits_apart _ _ (by decide)), getLsbD_withBit _ _ (by decide)⟩

theorem readIdx_fields (x : BitVec 32) (ps : BitVec 6) (b : Bool) :
    bits (withBit (withBits x 24 ps) 31 b) 0 24 = bits x 0 24 ∧ bits (withBit (withBits x 24 ps) 31 b) 24 6 = ps ∧
      (withBit (withBits x 24 ps) 31 b).getLsbD 31 = b :=
  ⟨(bits_withBit_apart _ _ (by decide)).trans (bits_withBits_apart _ _ (by decide)),
    (bits_withBit_apart _ _ (by decide)).trans (bits_withBits_same _ _ (by decide)), getLsbD_withBit _ _ (by decide)⟩

/-- The address that TLBSRCH looks up: the page number of the register, below bit 13 all 0 (R831). -/
theorem searchAddr_toNat (hi : Word) :
    ((bits hi 13 35 ++ 0#13).setWidth 64 : Word).toNat % 2 ^ 48 = hi.toNat % 2 ^ 48 / 2 ^ 13 * 2 ^ 13 := by
  have hlt := (bits hi 13 35).isLt
  have hvppn : (bits hi 13 35).toNat = hi.toNat / 2 ^ 13 % 2 ^ 35 := by
    rw [bits, BitVec.extractLsb'_toNat, Nat.shiftRight_eq_div_pow]
  rw [BitVec.toNat_setWidth, toNat_append_zero]
  omega

/-! ## Sets of the STLB (21_address_translation.md R261) -/

/-- PRCFG2 supports pages of 2^12 bytes at least (11_csr_basic.md R87). -/
theorem le_of_pageSizeOk {n : Nat} (h : pageSizeOk n = true) : 12 ≤ n := by
  by_contra hn
  have hall : ∀ k, k < 12 → pageSizeOk k = false := by decide
  exact Bool.false_ne_true ((hall n (by omega)).symm.trans h)

section
variable {s : State}

theorem isStlb_eq (i : Nat) : isStlb i = decide (i < 2048) := rfl

/-- With pages of 2^12 bytes the set has va[12] as its bit 0; with larger ones it does not depend on it (log 39). -/
theorem State.stlbSetOf_eq (hps : s.stlbPsBad = false) (b : Bool) : s.stlbSetOf b =
    (bits s.ehi 13 35).toNat * 2 ^ 13 / 2 ^ s.stlbPs.toNat % 256 + if s.stlbPs = 12 ∧ b = true then 1 else 0 := by
  have h12 : 12 ≤ s.stlbPs.toNat := le_of_pageSizeOk (by simpa [State.stlbPsBad] using hps)
  have hva : (bits s.ehi 13 35 ++ (BitVec.ofBool b ++ 0#12)).toNat =
      (bits s.ehi 13 35).toNat * 2 ^ 13 + b.toNat * 2 ^ 12 := by
    rw [BitVec.toNat_append, toNat_append_zero, BitVec.toNat_ofBool, ← Nat.shiftLeft_add_eq_or_of_lt, Nat.shiftLeft_eq]
    cases b <;> decide
  have hset : s.stlbSetOf b =
      ((bits s.ehi 13 35).toNat * 2 ^ 13 + b.toNat * 2 ^ 12) / 2 ^ s.stlbPs.toNat % 256 := by
    rw [← hva, ← Nat.shiftRight_eq_div_pow]
    rfl
  rw [hset]
  by_cases heq : s.stlbPs = 12
  · have h : s.stlbPs.toNat = 12 := congrArg BitVec.toNat heq
    rw [h]
    cases b
    · rw [if_neg (fun h => Bool.false_ne_true h.2), Bool.toNat_false, Nat.zero_mul, Nat.add_zero, Nat.add_zero]
    · rw [if_pos ⟨heq, rfl⟩, Bool.toNat_true]
      omega
  · have h13 : 13 ≤ s.stlbPs.toNat := by
      have hne : s.stlbPs.toNat ≠ 12 := fun h => heq (BitVec.eq_of_toNat_eq h)
      omega
    obtain ⟨k, hk⟩ := Nat.exists_eq_add_of_le h13
    have hb := b.toNat_le
    have hdiv (x : Nat) : x / 2 ^ s.stlbPs.toNat = x / 2 ^ 13 / 2 ^ k := by
      rw [hk, Nat.pow_add, Nat.div_div_eq_div_mul]
    have hpage : ((bits s.ehi 13 35).toNat * 2 ^ 13 + b.toNat * 2 ^ 12) / 2 ^ 13 =
        (bits s.ehi 13 35).toNat * 2 ^ 13 / 2 ^ 13 := by omega
    rw [if_neg (fun h => heq h.1), Nat.add_zero, hdiv, hdiv, hpage]

/-- The sets that the page number has for some value of va[12] (log 39). -/
theorem State.stlbSetOf_iff (hps : s.stlbPsBad = false) {n set : Nat}
    (hset : set = (bits s.ehi 13 35).toNat * 2 ^ 13 / 2 ^ s.stlbPs.toNat % 256) :
    (n % 256 = s.stlbSetOf false ∨ n % 256 = s.stlbSetOf true) ↔
      n % 256 = set ∨ (s.stlbPs = 12 ∧ n % 256 = set + 1) := by
  rw [State.stlbSetOf_eq hps, State.stlbSetOf_eq hps, ← hset, if_neg (fun h => Bool.false_ne_true h.2), Nat.add_zero]
  by_cases h : s.stlbPs = 12
  · rw [if_pos ⟨h, rfl⟩, eq_true h, true_and]
  · rw [if_neg (fun hb => h hb.1), Nat.add_zero, eq_false h, false_and, or_self, or_false]

/-- An STLB index conflicts with another page size, or with the set of another page number (R834). -/
theorem State.stlbConflicts_iff (hps : s.stlbPsBad = false) {i set : Nat}
    (hset : set = (bits s.ehi 13 35).toNat * 2 ^ 13 / 2 ^ s.stlbPs.toNat % 256) :
    s.stlbConflicts i = true ↔
      s.newPs ≠ s.stlbPs ∨ ¬(i % 256 = set ∨ (s.stlbPs = 12 ∧ i % 256 = set + 1)) := by
  have hsets : Config.stlbSets = 256 := rfl
  rw [← State.stlbSetOf_iff hps hset, State.stlbConflicts, Bool.or_eq_true, bne_iff_ne, Bool.and_eq_true, bne_iff_ne,
    bne_iff_ne, not_or, hsets]

/-- TLBFILL takes an entry of a set of the page number, or an entry of the MTLB (R833). -/
theorem State.fillIndex_right (hps : s.stlbPsBad = false) (pick : Nat) {set : Nat}
    (hset : set = (bits s.ehi 13 35).toNat * 2 ^ 13 / 2 ^ s.stlbPs.toNat % 256) :
    if s.newPs = s.stlbPs then s.fillIndex pick < 2048 ∧
      (s.fillIndex pick % 256 = set ∨ (s.stlbPs = 12 ∧ s.fillIndex pick % 256 = set + 1))
    else 2048 ≤ s.fillIndex pick ∧ s.fillIndex pick < 2112 := by
  split
  case isTrue h =>
    have hidx : s.fillIndex pick =
        pick % 8 * 256 + s.stlbSetOf (decide (pick / Config.stlbWays % 2 = 1)) := if_pos h
    have hlt := stlbSetOf_lt s (decide (pick / Config.stlbWays % 2 = 1))
    have hlt : s.stlbSetOf (decide (pick / Config.stlbWays % 2 = 1)) < 256 := hlt
    rw [← State.stlbSetOf_iff hps hset, hidx]
    refine ⟨by omega, ?_⟩
    rw [Nat.mul_add_mod_self_right, Nat.mod_eq_of_lt hlt]
    cases decide (pick / Config.stlbWays % 2 = 1)
    · exact .inl rfl
    · exact .inr rfl
  case isFalse h =>
    have hidx : s.fillIndex pick = 2048 + pick % 64 := if_neg h
    omega

/-- What TLBWR and TLBFILL write is the image that the context's registers make (R837). -/
theorem State.entryWritten_newTlb (s : State) (i : Nat) : EntryWritten s i (s.newTlb (isStlb i)) := by
  have hps (x : BitVec 6) : (if isStlb i then 0 else x) = if i < 2048 then 0 else x :=
    if_congr (by rw [isStlb_eq, decide_eq_true_iff]) rfl rfl
  refine ⟨fun ht => ⟨s.newEntry (isStlb i), ?_, ?_⟩, fun ht => ⟨fun hne => ?_, fun hne => ⟨s.newEntry (isStlb i), ?_, ?_⟩⟩⟩
  · exact if_pos (by rw [State.newExists, ht, Bool.true_or])
  · simp only [State.newEntry, State.ehi, State.elo0, State.elo1, State.newPs, ht, if_true, hps]
    exact ⟨rfl, rfl, rfl, rfl, rfl, rfl⟩
  · exact if_neg (by rw [State.newExists, ht, hne]; decide)
  · exact if_pos (by rw [State.newExists, ht, hne]; rfl)
  · simp only [State.newEntry, State.ehi, State.elo0, State.elo1, State.newPs, ht, Bool.false_eq_true, if_false, hps]
    exact ⟨rfl, rfl, rfl, rfl, rfl, rfl⟩

/-! ## Invalidation (R835, R836, R838) -/

/-- Invalidating the entries whose condition holds keeps exactly the others. -/
theorem withTlb_of_invalidate {i : Instr} {c : Nat × TlbEntry → Bool} {P : Nat × TlbEntry → Prop}
    (h : exec i s = .next (s.invalidate c).advance) (hc : ∀ e, c e = true ↔ P e) :
    ∃ l, exec i s = .next (s.withTlb l) ∧ ∀ e, e ∈ l ↔ e ∈ s.tlb ∧ ¬P e :=
  ⟨s.tlb.filter fun e => !c e, h, fun e => by rw [List.mem_filter, Bool.not_eq_true', ← hc, Bool.not_eq_true]⟩

/-- The group of the index that TLBCLR and TLBFLUSH act on (R835, R836). -/
theorem State.inGroup_iff (e : Nat × TlbEntry) : s.inGroup e = true ↔
    if s.tlbIndex < 2048 then e.1 < 2048 ∧ e.1 % 256 = s.tlbIndex % 256 else 2048 ≤ e.1 := by
  have hsets : Config.stlbSets = 256 := rfl
  rw [State.inGroup, isStlb_eq, isStlb_eq, hsets]
  by_cases h : s.tlbIndex < 2048 <;> simp [h]

theorem invUsesSize_iff (op : BitVec 5) : invUsesSize op = true ↔ op.toNat = 5 ∨ op.toNat = 6 := by
  rw [invUsesSize, Bool.or_eq_true, beq_iff_eq, beq_iff_eq, BitVec.toNat_eq, BitVec.toNat_eq]
  rfl

variable {op : BitVec 5} {rj rk : Reg}

/-- The condition of an op by its number (R838). -/
def State.invCondOf (s : State) (n : Nat) (asid : BitVec 10) (va : Word) : Option (Nat × TlbEntry → Bool) :=
  s.invCond (BitVec.ofNat 5 n) asid va

theorem invCond_of {n : Nat} (hop : op.toNat = n) {asid : BitVec 10} {va : Word} :
    s.invCond op asid va = s.invCondOf n asid va := by
  rw [State.invCondOf, ← hop, BitVec.ofNat_toNat, BitVec.setWidth_eq]

/-- INVTLB under page sizes that its op can compare with. -/
theorem exec_invtlb (hp : s.plv = 0) {c : Nat × TlbEntry → Bool}
    (hc : s.invCond op (bits (s.x rj) 0 Config.asidBits) (s.x rk) = some c)
    (hz : op.toNat = 5 ∨ op.toNat = 6 → SizesOk s) :
    exec (.invtlb op rj rk) s = .next (s.invalidate c).advance := by
  refine (privileged_zero hp).trans ?_
  rw [hc]
  refine if_neg ?_
  rw [Bool.and_eq_true, invUsesSize_iff, not_and, Bool.not_eq_true]
  exact fun h => State.tlbSizesBad_eq_false_iff.2 (hz h)

theorem exec_invtlb_sizes (hp : s.plv = 0) (hop : op.toNat = 5 ∨ op.toNat = 6) (hz : ¬SizesOk s) :
    exec (.invtlb op rj rk) s = .refused .pageSizeUnsupported := by
  have hbad : (invUsesSize op && s.tlbSizesBad) = true := by
    rw [(invUsesSize_iff op).2 hop, Bool.true_and, ← Bool.not_eq_false, State.tlbSizesBad_eq_false_iff]
    exact hz
  refine (privileged_zero hp).trans ?_
  unfold State.invCond
  rcases hop with hop | hop
  · rw [hop]
    exact if_pos hbad
  · rw [hop]
    exact if_pos hbad

/-- An op above 6 has no meaning (R838). -/
theorem exec_invtlb_undefined (hp : s.plv = 0) (hop : 6 < op.toNat) : Raises (.invtlb op rj rk) s .ine := by
  refine (privileged_zero hp).trans ?_
  have hnone : s.invCond op (bits (s.x rj) 0 Config.asidBits) (s.x rk) = none := by
    unfold State.invCond
    split
    all_goals first | rfl | omega
  rw [hnone]

end

end Sys2Proof.Machine
end

section
/-! The obligations of the TLB instructions (49_privileged.md R830 to R838). -/

namespace Sys2Proof.Machine

section
variable {s : State}

/-! ## TLBSRCH and TLBRD -/

theorem exec_tlbsrch (hp : s.plv = 0) : exec .tlbsrch s =
    (s.tlbFind ((bits s.ehi 13 35 ++ 0#13).setWidth 64)).run s fun hit =>
      .next (s.withMmu { s.csr.mmu with tlbidx := searchIdx s.csr.mmu.tlbidx (hit.map (·.1)) }) := privileged_zero hp

theorem exec_tlbrd_beyond (hp : s.plv = 0) (hi : 2112 ≤ s.tlbIndex) : exec .tlbrd s = .fault .tlbIndexOutOfRange :=
  (privileged_zero hp).trans (if_pos hi)

theorem exec_tlbrd_some (hp : s.plv = 0) (hi : s.tlbIndex < 2112) {e : TlbEntry}
    (he : tlbAt s.tlb s.tlbIndex = some e) : exec .tlbrd s =
      if pageSizeOk (s.entryPs (s.tlbIndex, e)) then
        .next (s.withMmu (s.csr.mmu.afterRead e (BitVec.ofNat 6 (s.entryPs (s.tlbIndex, e)))))
      else .refused .pageSizeUnsupported := by
  refine (privileged_zero hp).trans ((if_neg (Nat.not_le.2 hi)).trans ?_)
  rw [he]
  rfl

theorem exec_tlbrd_none (hp : s.plv = 0) (hi : s.tlbIndex < 2112) (he : tlbAt s.tlb s.tlbIndex = none) :
    exec .tlbrd s = .next (s.drawn.withMmu (s.csr.mmu.afterReadNone (s.free.setWidth Config.asidBits))) := by
  refine (privileged_zero hp).trans ((if_neg (Nat.not_le.2 hi)).trans ?_)
  rw [he]
  rfl

/-! ## TLBWR and TLBFILL -/

theorem exec_tlbwr (hp : s.plv = 0) (hi : s.tlbIndex < 2112) : exec .tlbwr s =
    if isStlb s.tlbIndex && s.stlbPsBad then .refused .pageSizeUnsupported
    else if isStlb s.tlbIndex && s.stlbConflicts s.tlbIndex then .fault .stlbConflict
    else if s.newPsBad then .refused .pageSizeUnsupported
    else .next (s.withTlb (tlbPut s.tlb s.tlbIndex (s.newTlb (isStlb s.tlbIndex)))) :=
  (privileged_zero hp).trans (if_neg (Nat.not_le.2 hi))

theorem exec_tlbfill (hp : s.plv = 0) (hst : s.stlbPsBad = false) (hnew : s.newPsBad = false) : exec .tlbfill s =
    .next (s.drawn.withTlb
      (tlbPut s.tlb (s.fillIndex s.free.toNat) (s.newTlb (isStlb (s.fillIndex s.free.toNat))))) := by
  refine (privileged_zero hp).trans (if_neg ?_)
  rw [hst, hnew]
  decide

theorem exec_tlbfill_bad (hp : s.plv = 0) (h : s.stlbPsBad = true ∨ s.newPsBad = true) :
    exec .tlbfill s = .refused .pageSizeUnsupported :=
  (privileged_zero hp).trans (if_pos (Bool.or_eq_true _ _ ▸ h))

end

/-- Settles O42: TLBSRCH by the number of entries that match, TLBRD by what the index holds. -/
theorem tlbSearchRead : Obligations.TlbSearchRead := by
  rintro s _ _ _ _ hp rfl rfl rfl rfl
  have hsearch := exec_tlbsrch hp
  have haddr : s.hitsOf (((bits s.ehi 13 35 ++ 0#13).setWidth 64 : Word).toNat % 2 ^ 48) =
      s.hitsOf (s.ehi.toNat % 2 ^ 48 / 2 ^ 13 * 2 ^ 13) := congrArg _ (searchAddr_toNat s.ehi)
  refine ⟨fun hz => ?_, fun hz => ⟨fun hl => ?_, fun p hl => ?_, fun hl => ?_⟩, exec_tlbrd_beyond hp,
    fun hi => ⟨fun e he => ?_, fun he => ?_⟩⟩
  · rw [hsearch, State.tlbFind_of_not_sizesOk hz]
    rfl
  · rw [State.tlbFind_of_no_hit hz (haddr.trans hl)] at hsearch
    exact ⟨_, hsearch, searchIdx_none _⟩
  · rw [State.tlbFind_of_hit hz (haddr.trans hl)] at hsearch
    exact ⟨_, hsearch, searchIdx_some _ _⟩
  · rw [hsearch, State.tlbFind_of_hits hz (haddr ▸ hl)]
    rfl
  · have hread := exec_tlbrd_some hp hi he
    split
    case isTrue hok =>
      obtain ⟨hlow, hps, hne⟩ := readIdx_fields s.csr.mmu.tlbidx (BitVec.ofNat 6 (s.entryPs (s.tlbIndex, e))) false
      exact ⟨_, _, _, _, hread.trans (if_pos hok), eloHolds_eloOfPage _ _, eloHolds_eloOfPage _ _, hlow, hps, hne,
        bits_withBits_same _ _ (by decide)⟩
    case isFalse hbad => exact hread.trans (if_neg hbad)
  · exact ⟨_, _, exec_tlbrd_none hp hi he, readIdx_fields _ _ _⟩

/-- Settles O43: the checks of TLBWR in their order, the index of TLBFILL within its set, and one entry written. -/
theorem tlbWriteFill : Obligations.TlbWriteFill := by
  intro s i set ok hp htlb hi hset hok
  obtain rfl : i = s.tlbIndex := hi
  have hput (k : Nat) (o : Option TlbEntry) (j : Nat) : tlbAt (tlbPut s.tlb k o) j = if j = k then o else tlbAt s.tlb j :=
    tlbAt_tlbPut j htlb
  have hwritten (k : Nat) : EntryWritten s k (tlbAt (tlbPut s.tlb k (s.newTlb (isStlb k))) k) := by
    rw [hput, if_pos rfl]
    exact s.entryWritten_newTlb k
  have hconf (hst : s.stlbPsBad = false) : s.stlbConflicts s.tlbIndex = true ↔ s.newPs ≠ s.stlbPs ∨ ¬ok s.tlbIndex := by
    rw [State.stlbConflicts_iff hst hset, hok]
  refine ⟨fun hi => (privileged_zero hp).trans (if_pos hi), fun hi hbad => ?_, fun hi hst hc => ?_, fun hi hgood => ?_,
    exec_tlbfill_bad hp, fun hst hnew => ?_⟩
  · rw [exec_tlbwr hp (Nat.lt_trans hi (by decide)), isStlb_eq, decide_eq_true hi, hbad]
    rfl
  · rw [exec_tlbwr hp (Nat.lt_trans hi (by decide)), isStlb_eq, decide_eq_true hi, hst, (hconf hst).2 hc]
    rfl
  · have hsize : (isStlb s.tlbIndex && s.stlbPsBad) = false := by
      rw [isStlb_eq, Bool.and_eq_false_imp, decide_eq_true_iff]
      exact fun h => (hgood h).1
    have hplace : (isStlb s.tlbIndex && s.stlbConflicts s.tlbIndex) = false := by
      rw [isStlb_eq, Bool.and_eq_false_imp, decide_eq_true_iff]
      intro h
      obtain ⟨hst, hps, hset⟩ := hgood h
      rw [← Bool.not_eq_true, hconf hst]
      exact not_or.2 ⟨not_not.2 hps, not_not.2 hset⟩
    have hexec := exec_tlbwr hp hi
    rw [hsize, hplace, if_neg Bool.false_ne_true, if_neg Bool.false_ne_true] at hexec
    exact ⟨fun hbad => hexec.trans (if_pos hbad), fun hnew => ⟨_, hexec.trans (if_neg (Bool.eq_false_iff.1 hnew)),
      hwritten _, fun j hj => (hput _ _ j).trans (if_neg hj)⟩⟩
  · refine ⟨_, _, exec_tlbfill hp hst hnew, hwritten _, ?_, fun j hj => (hput _ _ j).trans (if_neg hj)⟩
    rw [hok]
    exact State.fillIndex_right hst _ hset

/-- Settles O44: each instruction keeps the entries outside its condition, which the model states on bits. -/
theorem tlbInvalidate : Obligations.TlbInvalidate := by
  rintro s op rj rk _ _ _ grp va hp rfl rfl rfl hgrp hva
  have hgroup (e : Nat × TlbEntry) : s.inGroup e = true ↔ grp e := (State.inGroup_iff e).trans (hgrp e).symm
  have hmatch (e : Nat × TlbEntry) : vaMatch e.2.vppn (s.entryPs e) (s.x rk) = true ↔ va e := by
    rw [vaMatch_eq, decide_eq_true_iff, hva]
  refine ⟨?_, ?_, exec_invtlb_sizes hp, exec_invtlb_undefined hp⟩
  · refine List.forall_mem_cons.2 ⟨withTlb_of_invalidate (privileged_zero hp) fun e => ?_,
      List.forall_mem_singleton.2 (withTlb_of_invalidate (privileged_zero hp) hgroup)⟩
    rw [Bool.and_eq_true, Bool.and_eq_true, hgroup, Bool.not_eq_true', beq_iff_eq, and_assoc]
    rfl
  · have hinv {c : Nat × TlbEntry → Bool} {P : Nat × TlbEntry → Prop} {n : Nat} (hop : op.toNat = n)
        (hz : 5 ≤ n → SizesOk s) (hc : s.invCond op (bits (s.x rj) 0 10) (s.x rk) = some c) (hcP : ∀ e, c e = true ↔ P e) :
        ∃ l, exec (.invtlb op rj rk) s = .next (s.withTlb l) ∧ ∀ e, e ∈ l ↔ e ∈ s.tlb ∧ ¬P e :=
      withTlb_of_invalidate (exec_invtlb hp hc fun h => hz (by omega)) hcP
    simp only [List.forall_mem_cons]
    refine ⟨fun hop hz => hinv hop hz (invCond_of hop) fun e => ?_, fun hop hz => hinv hop hz (invCond_of hop) fun e => ?_,
      fun hop hz => hinv hop hz (invCond_of hop) fun e => ?_, fun hop hz => hinv hop hz (invCond_of hop) fun e => ?_,
      fun hop hz => hinv hop hz (invCond_of hop) fun e => ?_, fun hop hz => hinv hop hz (invCond_of hop) fun e => ?_,
      fun hop hz => hinv hop hz (invCond_of hop) fun e => ?_, List.forall_mem_nil _⟩
    · exact iff_of_true rfl trivial
    · exact iff_of_true rfl trivial
    · exact Iff.rfl
    · exact iff_of_eq (Bool.not_eq_true' _)
    · rw [Bool.and_eq_true, Bool.not_eq_true', beq_iff_eq]
    · rw [Bool.and_eq_true, Bool.and_eq_true, Bool.not_eq_true', beq_iff_eq, hmatch, and_assoc]
    · rw [Bool.and_eq_true, Bool.or_eq_true, beq_iff_eq, hmatch]

end Sys2Proof.Machine
end

section
/-! SUPPORT. The software page walk: where the entries of a table are, and what LDPTE leaves (49_privileged.md R840 to
R842). -/

namespace Sys2Proof.Machine

/-! ## The index into a table (21_address_translation.md R280) -/

/-- The index into a table, as a number. -/
theorem tableIndex_toNat (va : Word) (base : Nat) {width : Nat} (hw : width < 64) :
    (tableIndex va base width).toNat = va.toNat / 2 ^ base % 2 ^ width := by
  have hpow : 2 ^ width < 2 ^ 64 := Nat.pow_lt_pow_right (by decide) hw
  have hone : (1#64 <<< width).toNat = 2 ^ width := by
    rw [BitVec.toNat_shiftLeft, Nat.shiftLeft_eq]
    exact (congrArg (· % 2 ^ 64) (Nat.one_mul _)).trans (Nat.mod_eq_of_lt hpow)
  have hmask : (1#64 <<< width - 1#64).toNat = 2 ^ width - 1 := by
    have hpos : 0 < 2 ^ width := Nat.two_pow_pos width
    rw [BitVec.toNat_sub_of_le (BitVec.le_def.2 (by rw [hone]; exact hpos)), hone]
    rfl
  rw [tableIndex, BitVec.toNat_and, hmask, BitVec.toNat_ushiftRight, Nat.shiftRight_eq_div_pow,
    Nat.and_two_pow_sub_one_eq_mod]

/-- Bit 0 of a word replaced, as a number. -/
theorem withBit_zero_toNat (x : Word) (b : Bool) : (withBit x 0 b).toNat = x.toNat / 2 * 2 + if b then 1 else 0 := by
  have heq : withBit x 0 b = bits x 1 63 ++ BitVec.ofBool b := by
    refine BitVec.eq_of_getLsbD_eq fun i hi => ?_
    by_cases h0 : i = 0
    · subst h0
      rw [getLsbD_withBit _ _ (by decide), getLsbD_append_low _ _ (by decide)]
      cases b <;> rfl
    · rw [getLsbD_withBit_ne _ _ h0, getLsbD_append_high _ _ (by omega), getLsbD_bits, decide_eq_true (by omega),
        Bool.true_and, Nat.add_sub_cancel' (by omega)]
  have hhigh : (bits x 1 63).toNat = x.toNat / 2 := by
    have hx := x.isLt
    rw [bits, BitVec.extractLsb'_toNat, Nat.shiftRight_eq_div_pow]
    omega
  rw [heq, BitVec.toNat_append, ← Nat.shiftLeft_add_eq_or_of_lt (BitVec.isLt _), Nat.shiftLeft_eq, hhigh,
    BitVec.toNat_ofBool]
  cases b <;> rfl

section
variable {s : State} {rd rj : Reg} {lv sq : BitVec 8}

/-- The address of a table entry. -/
theorem State.add_entryOffset (s : State) (base idx : Word) :
    base + s.entryOffset idx = s.tableEntry base idx.toNat := by
  rw [State.entryOffset, State.tableEntry, BitVec.ofNat_mul (x := idx.toNat), BitVec.ofNat_toNat, BitVec.setWidth_eq]

/-- The index into the last-level table, of the even or the odd page (R841). -/
theorem State.pteIndex_toNat (s : State) (odd : Bool) : (s.pteIndex odd).toNat =
    s.walkAddr / 2 ^ (bits s.csr.mmu.pwcl 0 5).toNat % 2 ^ (bits s.csr.mmu.pwcl 5 5).toNat / 2 * 2 +
      if odd then 1 else 0 := by
  have hw : (bits s.csr.mmu.pwcl 5 5).toNat < 64 := Nat.lt_trans (BitVec.isLt _) (by decide)
  rw [State.pteIndex, withBit_zero_toNat, tableIndex_toNat _ _ hw]
  rfl

/-! ## LDDIR (R840) -/

/-- A huge page entry is passed on. -/
theorem exec_lddir_huge (hp : s.plv = 0) (h : (s.x rj).getLsbD 6 = true) :
    exec (.lddir rd rj lv) s = .next (s.retire rd (s.x rj)) := (privileged_zero hp).trans (if_pos h)

/-- The fields of a level by its number. -/
theorem State.dirFields_of {n : Nat} (hlv : lv.toNat = n) : s.dirFields lv = s.dirFields (BitVec.ofNat 8 n) := by
  rw [← hlv, BitVec.ofNat_toNat, BitVec.setWidth_eq]

/-- There are the levels 1 to 4 (R840). -/
theorem State.dirFields_none (hlv : lv.toNat = 0 ∨ 4 < lv.toNat) : s.dirFields lv = none := by
  unfold State.dirFields
  dsimp only
  split
  case h_5 => rfl
  all_goals omega

variable (hp : s.plv = 0) (h : (s.x rj).getLsbD 6 = false)
include hp h

theorem exec_lddir_none (hdir : s.dirFields lv = none) : exec (.lddir rd rj lv) s = .next (s.retireAny rd) := by
  refine (privileged_zero hp).trans ((if_neg (Bool.eq_false_iff.1 h)).trans ?_)
  rw [hdir]

theorem exec_lddir_some {base width : Nat} (hdir : s.dirFields lv = some (base, width)) (hw : width < 64) :
    exec (.lddir rd rj lv) s =
      loadX s (s.walkLoad (s.tableEntry (s.x rj) (s.walkAddr / 2 ^ base % 2 ^ width))) rd id := by
  refine (privileged_zero hp).trans ((if_neg (Bool.eq_false_iff.1 h)).trans ?_)
  rw [hdir]
  dsimp only
  rw [State.add_entryOffset, tableIndex_toNat _ _ hw]
  rfl

/-- A level by its two fields: any value where it does not exist, else the entry of its directory. -/
theorem lddir_level {k m : Nat} {base : BitVec k} {width : BitVec m} (hm : m ≤ 6)
    (hdir : s.dirFields lv = (some (base.toNat, width.toNat)).filter fun p => p.2 != 0) :
    if width = 0 then ∃ v, CompletesX (.lddir rd rj lv) s rd v
    else ∀ d, d = s.walkLoad (s.tableEntry (s.x rj) (s.walkAddr / 2 ^ base.toNat % 2 ^ width.toNat)) →
      LoadsX (.lddir rd rj lv) s d rd (unsignedOf 64) ∧
      ∀ e, s.checkAccess d = .exc e → Raises (.lddir rd rj lv) s e := by
  split
  case isTrue h0 =>
    subst h0
    exact ⟨_, completesX_of_retireAny (exec_lddir_none hp h (hdir.trans (by simp)))⟩
  case isFalse h0 =>
    have hne : width.toNat ≠ 0 := fun e => h0 (BitVec.eq_of_toNat_eq (by simpa using e))
    have hw : width.toNat < 64 := Nat.lt_of_lt_of_le width.isLt (Nat.pow_le_pow_right (by decide) hm)
    have hexec := exec_lddir_some (rd := rd) (base := base.toNat) hp h (hdir.trans (by simp [Option.filter, hne])) hw
    rintro _ rfl
    exact ⟨loadsX_of_loadX hexec id_ofNat, fun e he => hexec.trans (access_exc he)⟩

end

/-! ## LDPTE (R841, R842) -/

/-- Equal fields have equal bits. -/
theorem getLsbD_of_bits_eq {n k m lo lo' : Nat} {x : BitVec n} {y : BitVec k} (h : bits x lo m = bits y lo' m) {j : Nat}
    (hj : j < m) : x.getLsbD (lo + j) = y.getLsbD (lo' + j) := by
  have hbit := congrArg (·.getLsbD j) h
  simpa only [getLsbD_bits, decide_eq_true hj, Bool.true_and] using hbit

/-- A word with a new page size field is known by its fields. -/
theorem eq_withBits_of_fields {x h : Word} {ps : BitVec 6} (hlow : bits h 0 6 = ps) (hhigh : bits h 6 58 = bits x 6 58) :
    h = withBits x 0 ps := by
  refine BitVec.eq_of_getLsbD_eq fun i hi => ?_
  rw [getLsbD_withBits]
  by_cases h6 : i < 6
  · rw [if_pos (by omega), ← hlow, getLsbD_bits, decide_eq_true (by omega), Bool.true_and]
    congr 1
    omega
  · have hbit := getLsbD_of_bits_eq hhigh (by omega : i - 6 < 58)
    rw [Nat.add_sub_cancel' (by omega)] at hbit
    rw [if_neg (by omega), hbit]

/-- The refill registers after LDPTE: one image, and the page size. -/
theorem State.putPte_advance (s : State) (odd : Bool) (image : Word) (ps : BitVec 6) :
    (s.putPte odd image ps).advance = s.withRefill
      (if odd then { s.csr.refill with elo1 := image, ehi := withBits s.csr.refill.ehi 0 ps }
      else { s.csr.refill with elo0 := image, ehi := withBits s.csr.refill.ehi 0 ps }) := by
  cases odd <;> rfl

/-- The bits of the image of half of a huge page: G at bit 6, the page number from the base, the rest from the entry. -/
theorem getLsbD_hugeToElo (h base : Word) {i : Nat} (hi : i < 64) : (hugeToElo h base).getLsbD i =
    if i = 6 then h.getLsbD 12
    else (h.getLsbD i && decide (i < 6 ∨ 61 ≤ i)) || (base.getLsbD i && decide (12 ≤ i ∧ i < 48)) := by
  have hflags : ∀ k < 64, (0xE00000000000003F#64).getLsbD k = decide (k < 6 ∨ 61 ≤ k) := by decide
  have hentry : ∀ k < 64, entryMask.getLsbD k = decide (12 ≤ k ∧ k < 48) := by decide
  rw [hugeToElo]
  split
  case isTrue h6 =>
    subst h6
    exact getLsbD_withBit _ _ (by decide)
  case isFalse h6 =>
    rw [getLsbD_withBit_ne _ _ h6, BitVec.getLsbD_or, BitVec.getLsbD_and, BitVec.getLsbD_and, hflags i hi, hentry i hi]

/-- The image of half of a huge page, field by field (R842). -/
theorem hugeToElo_fields (h base : Word) : bits (hugeToElo h base) 0 6 = bits h 0 6 ∧
    (hugeToElo h base).getLsbD 6 = h.getLsbD 12 ∧ bits (hugeToElo h base) 61 3 = bits h 61 3 ∧
    hugeToElo h base &&& 0x1FFF000000000F80 = 0 ∧ bits (hugeToElo h base) 12 36 = bits base 12 36 := by
  refine ⟨?_, (getLsbD_hugeToElo h base (by decide)).trans (if_pos rfl), ?_, hugeToElo_within h base, ?_⟩
  · refine BitVec.eq_of_getLsbD_eq fun i hi => ?_
    rw [getLsbD_bits, getLsbD_bits, getLsbD_hugeToElo h base (by omega), if_neg (by omega),
      decide_eq_true (by omega : 0 + i < 6 ∨ 61 ≤ 0 + i), decide_eq_false (by omega : ¬(12 ≤ 0 + i ∧ 0 + i < 48)),
      Bool.and_true, Bool.and_false, Bool.or_false]
  · refine BitVec.eq_of_getLsbD_eq fun i hi => ?_
    rw [getLsbD_bits, getLsbD_bits, getLsbD_hugeToElo h base (by omega), if_neg (by omega),
      decide_eq_true (by omega : 61 + i < 6 ∨ 61 ≤ 61 + i), decide_eq_false (by omega : ¬(12 ≤ 61 + i ∧ 61 + i < 48)),
      Bool.and_true, Bool.and_false, Bool.or_false]
  · refine BitVec.eq_of_getLsbD_eq fun i hi => ?_
    rw [getLsbD_bits, getLsbD_bits, getLsbD_hugeToElo h base (by omega), if_neg (by omega),
      decide_eq_false (by omega : ¬(12 + i < 6 ∨ 61 ≤ 12 + i)), decide_eq_true (by omega : 12 ≤ 12 + i ∧ 12 + i < 48),
      Bool.and_true, Bool.and_false, Bool.false_or]

/-- A word with those fields is that image. -/
theorem eq_hugeToElo_of_fields {h base w : Word} (hlow : bits w 0 6 = bits h 0 6) (hg : w.getLsbD 6 = h.getLsbD 12)
    (hhigh : bits w 61 3 = bits h 61 3) (hzero : w &&& 0x1FFF000000000F80 = 0)
    (hpage : bits w 12 36 = bits base 12 36) : w = hugeToElo h base := by
  have hmask : ∀ k < 64, (7 ≤ k ∧ k < 12) ∨ (48 ≤ k ∧ k < 61) → (0x1FFF000000000F80#64).getLsbD k = true := by decide
  refine BitVec.eq_of_getLsbD_eq fun i hi => ?_
  rw [getLsbD_hugeToElo h base hi]
  by_cases h6 : i = 6
  · rw [if_pos h6, h6, hg]
  rw [if_neg h6]
  by_cases hflag : i < 6 ∨ 61 ≤ i
  · have hbit : w.getLsbD i = h.getLsbD i := by
      rcases hflag with hi6 | hi61
      · simpa using getLsbD_of_bits_eq hlow hi6
      · simpa [Nat.add_sub_cancel' hi61] using getLsbD_of_bits_eq hhigh (by omega : i - 61 < 3)
    rw [hbit, decide_eq_true hflag, decide_eq_false (by omega), Bool.and_true, Bool.and_false, Bool.or_false]
  by_cases hentry : 12 ≤ i ∧ i < 48
  · have hbit := getLsbD_of_bits_eq hpage (by omega : i - 12 < 36)
    rw [Nat.add_sub_cancel' hentry.1] at hbit
    rw [hbit, decide_eq_true hentry, decide_eq_false hflag, Bool.and_true, Bool.and_false, Bool.false_or]
  · have hbit := congrArg (·.getLsbD i) hzero
    simp only [BitVec.getLsbD_and] at hbit
    have hz : (0 : Word).getLsbD i = false := BitVec.getLsbD_zero
    have hone : (0x1FFF000000000F80 : Word).getLsbD i = true := hmask i hi (by omega)
    rw [hz, hone, Bool.and_true] at hbit
    rw [hbit, decide_eq_false hflag, decide_eq_false hentry, Bool.and_false, Bool.and_false, Bool.or_false]

/-- The page number of a half of a huge page of 2^S bytes, as a number (R842). -/
theorem bits_hugeHalf (h : Word) {size : Nat} (h0 : 0 < size) (h32 : size < 32) (odd : Bool) :
    bits (hugeHalf h size odd) 12 36 = BitVec.ofNat 36
      ((h.toNat % 2 ^ 48 / 2 ^ size * 2 ^ size + if odd then 2 ^ size / 2 else 0) / 2 ^ 12) := by
  have hpow : 2 ^ size = 2 ^ (size - 1) * 2 := by rw [← pow_succ, Nat.sub_add_cancel h0]
  have hpos : 0 < 2 ^ (size - 1) := Nat.two_pow_pos _
  have hlt : 2 ^ size < 2 ^ 32 := Nat.pow_lt_pow_right (by decide) h32
  have hoff : (if odd then (1#64 <<< size) >>> 1 else 0#64).toNat = if odd then 2 ^ size / 2 else 0 := by
    cases odd
    · rfl
    · rw [if_pos rfl, if_pos rfl, BitVec.toNat_ushiftRight, BitVec.toNat_shiftLeft, Nat.shiftLeft_eq,
        Nat.shiftRight_eq_div_pow]
      have hone : (1#64).toNat = 1 := rfl
      rw [hone, Nat.one_mul, Nat.mod_eq_of_lt (Nat.lt_trans hlt (by decide))]
  have hbase : ((h >>> size) <<< size).toNat = h.toNat / 2 ^ size * 2 ^ size := by
    have hle := Nat.div_mul_le_self h.toNat (2 ^ size)
    rw [BitVec.toNat_shiftLeft, BitVec.toNat_ushiftRight, Nat.shiftLeft_eq, Nat.shiftRight_eq_div_pow,
      Nat.mod_eq_of_lt (Nat.lt_of_le_of_lt hle h.isLt)]
  have hoff_lt : (if odd then 2 ^ size / 2 else 0) < 2 ^ size := by
    split
    · omega
    · exact Nat.two_pow_pos _
  have hsum : (hugeHalf h size odd).toNat =
      h.toNat / 2 ^ size * 2 ^ size + if odd then 2 ^ size / 2 else 0 := by
    have hor := Nat.shiftLeft_add_eq_or_of_lt hoff_lt (h.toNat / 2 ^ size)
    rw [Nat.shiftLeft_eq] at hor
    rw [hugeHalf, BitVec.toNat_or, hbase, hor]
    exact congrArg _ hoff
  have hdiv (x : Nat) : x / 2 ^ size * 2 ^ size = x - x % 2 ^ size := by
    rw [Nat.mul_comm]
    exact (Nat.sub_eq_of_eq_add (Nat.div_add_mod x _).symm).symm
  have hmod : h.toNat % 2 ^ 48 % 2 ^ size = h.toNat % 2 ^ size :=
    Nat.mod_mod_of_dvd _ (Nat.pow_dvd_pow 2 (by omega))
  have hle : h.toNat % 2 ^ size ≤ h.toNat % 2 ^ 48 := hmod ▸ Nat.mod_le _ _
  refine BitVec.eq_of_toNat_eq ?_
  rw [bits, BitVec.extractLsb'_toNat, Nat.shiftRight_eq_div_pow, hsum, BitVec.toNat_ofNat, hdiv, hdiv, hmod]
  omega

/-! ### The three forms of LDPTE -/

section
variable {s : State} {rj : Reg} {sq : BitVec 8} (hp : s.plv = 0)
include hp

theorem exec_ldpte_common (h : (s.x rj).getLsbD 6 = false) : exec (.ldpte rj sq) s =
    access s (s.walkLoad (s.tableEntry (s.x rj) (s.pteIndex (sq.getLsbD 0)).toNat)) fun ps t =>
      .next (t.putPte (sq.getLsbD 0) (commonToElo (t.loadBytes (physAddrs ps)))
        ((bits s.csr.mmu.pwcl 0 5).setWidth 6)).advance := by
  refine (privileged_zero hp).trans ((if_neg (Bool.eq_false_iff.1 h)).trans ?_)
  rw [State.add_entryOffset]

theorem exec_ldpte_unsized (h : (s.x rj).getLsbD 6 = true) (h0 : bits s.csr.mmu.pwcl 10 5 = 0) :
    exec (.ldpte rj sq) s = .next (s.drawn.putPte (sq.getLsbD 0)
      (hugeToElo (s.x rj) (if sq.getLsbD 0 then s.free else s.x rj)) (bits s.free 0 6)).advance :=
  (privileged_zero hp).trans ((if_pos h).trans (if_pos h0))

theorem exec_ldpte_huge (h : (s.x rj).getLsbD 6 = true) (h0 : bits s.csr.mmu.pwcl 10 5 ≠ 0) :
    exec (.ldpte rj sq) s = .next (s.putPte (sq.getLsbD 0)
      (hugeToElo (s.x rj) (hugeHalf (s.x rj) (bits s.csr.mmu.pwcl 10 5).toNat (sq.getLsbD 0)))
      ((bits s.csr.mmu.pwcl 10 5).setWidth 6 - 1)).advance :=
  (privileged_zero hp).trans ((if_pos h).trans (if_neg h0))

end

end Sys2Proof.Machine
end

section
/-! The obligations of the software page walk (49_privileged.md R840 to R842). -/

namespace Sys2Proof.Machine

/-- Settles O45: LDDIR level by level, LDPTE by the form of the entry; registers that are given by their fields are the
ones that the model writes. -/
theorem pageWalk : Obligations.PageWalk := by
  rintro s rd rj lv sq _ w h _ _ _ _ ps hp rfl rfl rfl rfl rfl
  refine ⟨fun h6 => completesX_of_retire (exec_lddir_huge hp h6), fun h6 => ⟨?_, ?_, fun hlv => ?_⟩, fun h6 => ?_,
    fun h6 h0 => ?_, fun h6 h0 hlow hg hhigh hzero hpage hps hehi => ?_⟩
  · refine List.forall_mem_cons.2 ⟨fun hlv => lddir_level hp h6 (by decide) ?_,
      List.forall_mem_singleton.2 fun hlv => lddir_level hp h6 (by decide) ?_⟩
    · exact State.dirFields_of hlv
    · exact State.dirFields_of hlv
  · refine List.forall_mem_cons.2 ⟨fun hlv => lddir_level hp h6 (by decide) ?_,
      List.forall_mem_singleton.2 fun hlv => lddir_level hp h6 (by decide) ?_⟩
    · exact State.dirFields_of hlv
    · exact State.dirFields_of hlv
  · exact ⟨_, completesX_of_retireAny (exec_lddir_none hp h6 (State.dirFields_none hlv))⟩
  · rw [← State.pteIndex_toNat]
    have hexec := exec_ldpte_common (sq := sq) hp h6
    refine ⟨fun e he => hexec.trans (access_exc he), fun hacc hw hps hehi => ?_⟩
    rw [hexec, access_ok hacc, State.putPte_advance, State.loadBytes_eq, ← eq_withBits_of_fields hps hehi, hw]
    rfl
  · obtain ⟨hlow, hg, hhigh, hzero, hpage⟩ := hugeToElo_fields (s.x rj) (if sq.getLsbD 0 then s.free else s.x rj)
    refine ⟨_, _, (exec_ldpte_unsized hp h6 h0).trans (congrArg _ (State.putPte_advance _ _ _ _)), hlow, hg, hhigh, hzero,
      fun heven => ?_, bits_withBits_apart _ _ (by decide)⟩
    rw [hpage, heven]
    rfl
  · have hpos : 0 < (bits s.csr.mmu.pwcl 10 5).toNat := Nat.pos_of_ne_zero fun e => h0 (BitVec.eq_of_toNat_eq e)
    have hw := eq_hugeToElo_of_fields hlow hg hhigh hzero (hpage.trans (bits_hugeHalf _ hpos (BitVec.isLt _) _).symm)
    rw [exec_ldpte_huge hp h6 h0, State.putPte_advance, ← hw, ← eq_withBits_of_fields hps hehi]

end Sys2Proof.Machine
end

section
/-! SUPPORT. What an input changes as one record, the interrupt that is taken, and the wait state (60_exceptions.md R881
to R884; 49_privileged.md R849). -/

namespace Sys2Proof.Machine

/-! ## One input (log 34) -/

/-- What an input has done before its bus writes: ticks, lines, and a report of a machine error. -/
def State.beforeBus (s : State) (i : EnvInput) : State := ((s.tick i.ticks).setLines i.hwi i.ipi).report i.merr

theorem State.beforeBus_eq (s : State) (i : EnvInput) : s.beforeBus i =
    { s with
      stable := s.stable + BitVec.ofNat 64 i.ticks, csr := (s.tick i.ticks).csr, hwi := i.hwi, ipi := i.ipi
      merrPending := s.merrPending.or i.merr } := by
  rw [State.beforeBus, State.tick_eq]
  rfl

/-- An input is its ticks and lines, then its bus writes, then what it does to LLbit and the IOCSR space. -/
theorem State.applyInput_eq (s : State) (i : EnvInput) : s.applyInput i =
    (((s.beforeBus i).busWrites i.memWrites).setLL (s.llbit && !i.clearLL)).platformWrites i.iocsrWrites := by
  have hbit : ((s.beforeBus i).busWrites i.memWrites).llbit = s.llbit := by
    rw [State.busWrites_eq, State.beforeBus_eq]
  have hinput : s.applyInput i = (if i.clearLL then ((s.beforeBus i).busWrites i.memWrites).setLL false
      else (s.beforeBus i).busWrites i.memWrites).platformWrites i.iocsrWrites := rfl
  rw [hinput]
  cases i.clearLL
  · rw [Bool.not_false, Bool.and_true, ← hbit]
    rfl
  · rw [Bool.not_true, Bool.and_false]
    rfl

section
variable {s : State}

theorem State.takeInput_nil (h : s.inputs = []) : s.takeInput = s := by
  rw [State.takeInput, h]

theorem State.takeInput_cons {i : EnvInput} {is : List EnvInput} (h : s.inputs = i :: is) :
    s.takeInput = ({ s with inputs := is } : State).applyInput i := by
  rw [State.takeInput, h]

/-! ## The wait state (R849, D44) -/

/-- The state in the wait state or out of it. -/
def State.setWaiting (s : State) (b : Bool) : State := { s with waiting := b }

theorem State.tick_setWaiting (s : State) (b : Bool) (n : Nat) : (s.setWaiting b).tick n = (s.tick n).setWaiting b := by
  unfold State.tick State.tickTimer
  dsimp only [State.setWaiting]
  repeat' split
  all_goals rfl

theorem State.busWrites_setWaiting (b : Bool) : ∀ (l : List Host.Cell) (s : State),
    (s.setWaiting b).busWrites l = (s.busWrites l).setWaiting b
  | [], _ => rfl
  | (a, c) :: l, s => by
    rw [State.busWrites, State.busWrites]
    split
    · exact State.busWrites_setWaiting b l (s.storeByte a c)
    · exact State.busWrites_setWaiting b l s

theorem State.applyInput_setWaiting (s : State) (b : Bool) (i : EnvInput) :
    (s.setWaiting b).applyInput i = (s.applyInput i).setWaiting b := by
  have hbefore : (s.setWaiting b).beforeBus i = (s.beforeBus i).setWaiting b :=
    congrArg (fun t : State => (t.setLines i.hwi i.ipi).report i.merr) (s.tick_setWaiting b i.ticks)
  rw [State.applyInput_eq, State.applyInput_eq, hbefore, State.busWrites_setWaiting]
  rfl

/-- An input leaves the wait state, and does not depend on it. -/
theorem State.takeInput_setWaiting (b : Bool) : (s.setWaiting b).takeInput = s.takeInput.setWaiting b := by
  cases h : s.inputs with
  | nil =>
    have hw : (s.setWaiting b).inputs = [] := h
    rw [State.takeInput_nil h, State.takeInput_nil hw]
  | cons i is =>
    have hw : (s.setWaiting b).inputs = i :: is := h
    rw [State.takeInput_cons h, State.takeInput_cons hw]
    exact State.applyInput_setWaiting { s with inputs := is } b i

/-! ## The interrupt that is taken (R881, R882) -/

/-- The highest bit that is set. -/
theorem topBit_eq {v : BitVec 13} {n : Nat} : ∀ {k : Nat}, n < k → v.getLsbD n = true →
    (∀ m, n < m → m < k → v.getLsbD m = false) → topBit k v = n
  | k + 1, hk, hn, habove => by
    rw [topBit]
    by_cases h : n = k
    · rw [← h, if_pos hn]
    · rw [habove k (by omega) (Nat.lt_succ_self k), if_neg Bool.false_ne_true]
      exact topBit_eq (by omega) hn fun m hm hmk => habove m hm (by omega)

theorem State.msgSel_eq_none : s.msgSel = none := rfl

theorem State.interrupt_eq_none (h : s.ie = false ∨ s.intVec = 0) : s.interrupt = none := by
  rw [State.interrupt, State.msgSel_eq_none]
  rcases h with h | h
  · exact if_pos (by rw [h]; rfl)
  · cases hie : s.ie
    · exact if_pos rfl
    · exact (if_neg Bool.false_ne_true).trans ((if_neg Bool.false_ne_true).trans (if_pos h))

theorem State.interrupt_eq_some (hie : s.ie = true) {n : Nat} (hn : n < 13) (hbit : s.intVec.getLsbD n = true)
    (habove : ∀ m, n < m → m < 13 → s.intVec.getLsbD m = false) : s.interrupt = some (64 + n) := by
  have hne : s.intVec ≠ 0 := fun h => Bool.false_ne_true (BitVec.getLsbD_zero.symm.trans ((congrArg (·.getLsbD n) h).symm.trans hbit))
  rw [State.interrupt, hie, State.msgSel_eq_none, topBit_eq hn hbit habove]
  exact if_neg hne

theorem State.wakes_iff : s.wakes = true ↔ s.intVec ≠ 0 := by
  rw [State.wakes, State.msgSel_eq_none, Option.isSome_none, Bool.or_false, bne_iff_ne]

theorem State.cycle_of_mode (h : s.modeStop = none) : s.cycle = s.runOrWait := by
  rw [State.cycle, h]

/-- With an interrupt pending and enabled, or outside the wait state, a step goes on. -/
theorem State.runOrWait_goes (h : s.waiting = false ∨ s.intVec ≠ 0) :
    s.runOrWait = (s.setWaiting false).runNext := by
  refine if_neg ?_
  rw [Bool.and_eq_true, Bool.not_eq_true', ← Bool.not_eq_true, State.wakes_iff, not_and_or, not_not]
  exact h.imp_left Bool.eq_false_iff.1

theorem State.runOrWait_waits (h : s.waiting = true) (hv : s.intVec = 0) : s.runOrWait = .next s := by
  refine if_pos ?_
  rw [h, Bool.true_and, Bool.not_eq_true', ← Bool.not_eq_true, State.wakes_iff, not_not]
  exact hv

theorem State.runNext_interrupt {n : Nat} (h : s.interrupt = some n) : s.runNext = .next (s.raise (.int n)) := by
  rw [State.runNext, h]

end

end Sys2Proof.Machine
end

section
/-! The obligation of inputs, interrupts and the wait state (60_exceptions.md R880 to R884; 49_privileged.md R849). -/

namespace Sys2Proof.Machine

/-- Settles O50: the input as one record, the highest bit of the pending and enabled interrupts, and the wait that ends
with them. -/
theorem interruptsAndIdle : Obligations.InterruptsAndIdle := by
  refine ⟨fun s i is => ⟨State.takeInput_nil, ?_⟩, ?_, fun s hint hp => privileged_zero hp⟩
  · rintro hin hm _ rfl
    have hwf : Memory.wf (({ s with inputs := is } : State).beforeBus i).mem = true := by
      rw [State.beforeBus_eq]
      exact hm.1
    have hmem (a : Nat) := State.byteAt_busWrites i.memWrites hwf a
    rw [State.takeInput_cons hin, State.applyInput_eq]
    rw [State.busWrites_eq, State.beforeBus_eq] at hmem ⊢
    exact ⟨rfl, rfl, rfl, rfl, State.tick_csr_inputs s is i.ticks, rfl, rfl, rfl, hmem,
      fun a => State.cellFind_platformWrites _ _ a, rfl, rfl, rfl, rfl, fun _ => rfl, fun _ => rfl, fun _ => rfl, rfl⟩
  · rintro s₀ _ _ rfl rfl
    refine ⟨fun hmode hie n hn hbit habove => ?_, State.interrupt_eq_none, fun hmode hwait => ⟨fun hv => ?_, fun hv => ?_⟩⟩
    · have hne : s₀.takeInput.intVec ≠ 0 := fun h => Bool.false_ne_true (BitVec.getLsbD_zero.symm.trans ((congrArg (·.getLsbD n) h).symm.trans hbit))
      have hint : (s₀.takeInput.setWaiting false).interrupt = some (64 + n) :=
        State.interrupt_eq_some hie hn hbit habove
      rw [step, State.cycle_of_mode hmode, State.runOrWait_goes (.inr hne), State.runNext_interrupt hint]
      rfl
    · rw [step, State.cycle_of_mode hmode, State.runOrWait_waits hwait hv]
    · have hmode' : (s₀.takeInput.setWaiting false).modeStop = none := hmode
      change step s₀ = step (s₀.setWaiting false)
      rw [step, step, State.takeInput_setWaiting, State.cycle_of_mode hmode, State.cycle_of_mode hmode',
        State.runOrWait_goes (.inr hv), State.runOrWait_goes (.inl rfl)]
      rfl

end Sys2Proof.Machine
end

section
/-! SUPPORT. Conversions between the formats and from integers (47_fp_cmp_cvt.md R724 to R730). -/

namespace Sys2Proof.Machine

section
variable {F G : Fmt} {rm : BitVec 2} {ue : Bool} {x : Word}

/-! ## Numbers and infinities -/

theorem Fmt.isSnan_of_not_isNan (h : F.isNan x = false) : F.isSnan x = false := by
  rw [isSnan, h, Bool.false_and]

/-- A number is rounded once, an infinity stays one (R724, R725). -/
theorem Fmt.convertsRight (F G : Fmt) (rm : BitVec 2) (ue : Bool) (x : Word) : F.ConvertsRight G rm ue x := by
  refine ⟨fun hf => ?_, fun hi => ?_⟩
  · obtain ⟨hinf, hnan, -⟩ := of_isFinite hf
    have hround : F.convert G rm ue x = G.round rm ue (F.value x) := by
      rw [convert, isSnan_of_not_isNan hnan, hnan, hinf]
      rfl
    rw [hround]
    refine rounds_self rfl ?_
    rw [value_neg]
    split
    · rfl
    · rename_i hq
      rw [num_neg, ← Bool.not_eq_true, ← num_eq_zero]
      exact (and_iff_left hq).symm
  · have hnan := isNan_of_isInf hi
    rw [convert, isSnan_of_not_isNan hnan, hnan, hi]
    rfl

/-- An integer is rounded once; the integer 0 is +0 (R726 to R730). -/
theorem Fmt.ofInt_rounds (F : Fmt) (rm : BitVec 2) (n : Int) : F.Rounds rm false false n (F.ofInt rm n) := by
  refine rounds_self (Exact.rat_int n) ?_
  rw [decide_eq_true_iff]
  split
  · rename_i hn
    have hn : n = 0 := by exact_mod_cast hn
    simp [hn]
  · exact Int.cast_lt_zero.symm

/-! ## NaNs (R653) -/

/-- What a NaN converts to: carried, and quieted with V where it signals. -/
theorem Fmt.convert_nan (h : F.isNan x = true) : F.convert G rm ue x =
    ⟨if F.isSnan x = true then G.quieted (F.carryNan G x) else F.carryNan G x,
      if F.isSnan x = true then excV else 0⟩ := by
  rw [convert]
  cases F.isSnan x
  · rw [h]
    rfl
  · rfl

end

/-- Two fields side by side, as a number. -/
theorem toNat_append_eq {n k : Nat} (x : BitVec n) (y : BitVec k) : (x ++ y).toNat = x.toNat * 2 ^ k + y.toNat := by
  rw [BitVec.toNat_append, ← Nat.shiftLeft_add_eq_or_of_lt y.isLt, Nat.shiftLeft_eq]

theorem toNat_bits (x : Word) (lo n : Nat) : (bits x lo n).toNat = x.toNat / 2 ^ lo % 2 ^ n := by
  rw [bits, BitVec.extractLsb'_toNat, Nat.shiftRight_eq_div_pow]

theorem getLsbD_eq_decide (x : Word) (i : Nat) : x.getLsbD i = decide (x.toNat / 2 ^ i % 2 = 1) := by
  rw [← BitVec.testBit_toNat, Nat.testBit_eq_decide_div_mod_eq]

/-- The top fraction bit set where it was clear, as a number. -/
theorem Fmt.toNat_quieted {F : Fmt} {x : Word} (h : x.getLsbD (F.frac - 1) = false) (hf : F.frac - 1 < 64)
    (hlt : x.toNat + 2 ^ (F.frac - 1) < 2 ^ 64) : (F.quieted x).toNat = x.toNat + 2 ^ (F.frac - 1) := by
  have hpow : (1#64 <<< (F.frac - 1)).toNat = 2 ^ (F.frac - 1) := by
    rw [← BitVec.twoPow_eq, BitVec.toNat_twoPow, Nat.mod_eq_of_lt (Nat.pow_lt_pow_right (by decide) hf)]
  have hand : x &&& 1#64 <<< (F.frac - 1) = 0#64 := by
    rw [← BitVec.twoPow_eq, BitVec.and_twoPow, h]
    rfl
  rw [quieted, ← BitVec.add_eq_or_of_and_eq_zero _ _ hand, BitVec.toNat_add, hpow, Nat.mod_eq_of_lt hlt]

/-- A NaN signals where its top fraction bit is clear. -/
theorem Fmt.isSnan_eq {F : Fmt} {w : Word} (h : F.isNan w = true) : F.isSnan w = !w.getLsbD (F.frac - 1) := by
  rw [isSnan, h, Bool.true_and]

section
variable {w : Word}

/-- A single NaN carried, as a number: its fraction above zeros. -/
theorem toNat_carryNan_single (w : Word) : (single.carryNan double w).toNat =
    w.toNat / 2 ^ 31 % 2 * 2 ^ 63 + 0x7FF * 2 ^ 52 + w.toNat % 2 ^ 23 * 2 ^ 29 := by
  have hmag : 0x7FF * 2 ^ 52 + w.toNat % 2 ^ 23 * 2 ^ 29 < 2 ^ 63 := by omega
  have hpack : (single.carryNan double w).toNat =
      (if single.sign w then 2 ^ 63 else 0) + (0x7FF * 2 ^ 52 + w.toNat % 2 ^ 23 * 2 ^ 29) :=
    Fmt.double_fits.toNat_pack (single.sign w) hmag
  have hsign : single.sign w = decide (w.toNat / 2 ^ 31 % 2 = 1) := getLsbD_eq_decide w 31
  rw [hpack, hsign]
  by_cases h : w.toNat / 2 ^ 31 % 2 = 1
  · rw [decide_eq_true h, if_pos rfl]
    omega
  · rw [decide_eq_false h, if_neg Bool.false_ne_true]
    omega

/-- A double NaN carried, as a number: the high bits of its fraction. -/
theorem toNat_carryNan_double (w : Word) : (double.carryNan single w).toNat =
    w.toNat / 2 ^ 63 % 2 * 2 ^ 31 + 0xFF * 2 ^ 23 + w.toNat / 2 ^ 29 % 2 ^ 23 := by
  have hmag : 0xFF * 2 ^ 23 + w.toNat % 2 ^ 52 / 2 ^ 29 < 2 ^ 31 := by omega
  have hpack : (double.carryNan single w).toNat =
      (if double.sign w then 2 ^ 31 else 0) + (0xFF * 2 ^ 23 + w.toNat % 2 ^ 52 / 2 ^ 29) :=
    Fmt.single_fits.toNat_pack (double.sign w) hmag
  have hsign : double.sign w = decide (w.toNat / 2 ^ 63 % 2 = 1) := getLsbD_eq_decide w 63
  rw [hpack, hsign]
  by_cases h : w.toNat / 2 ^ 63 % 2 = 1
  · rw [decide_eq_true h, if_pos rfl]
    omega
  · rw [decide_eq_false h, if_neg Bool.false_ne_true]
    omega

/-- A single NaN as a double (R653). -/
theorem convert_nan_single (m : BitVec 2) (e : Bool) (h : single.isNan w = true) : single.convert double m e w =
    ⟨bits w 31 1 ++ 0xFFF#12 ++ bits w 0 22 ++ 0#29, if single.isSnan w = true then excV else 0⟩ := by
  have hcarry := toNat_carryNan_single w
  have htop : w.getLsbD 22 = decide (w.toNat / 2 ^ 22 % 2 = 1) := getLsbD_eq_decide w 22
  have hsnan : single.isSnan w = !w.getLsbD 22 := Fmt.isSnan_eq h
  rw [Fmt.convert_nan h]
  congr 1
  refine BitVec.eq_of_toNat_eq ?_
  rw [toNat_append_eq, toNat_append_eq, toNat_append_eq, toNat_bits, toNat_bits, hsnan, htop]
  by_cases hq : w.toNat / 2 ^ 22 % 2 = 1
  · rw [decide_eq_true hq, Bool.not_true, if_neg Bool.false_ne_true, hcarry]
    simp only [BitVec.toNat_ofNat]
    omega
  · have hbit : (single.carryNan double w).getLsbD 51 = false := by
      rw [getLsbD_eq_decide, hcarry, decide_eq_false_iff_not]
      omega
    rw [decide_eq_false hq, Bool.not_false, if_pos rfl,
      Fmt.toNat_quieted hbit (by decide) (hcarry ▸ by simp only [double]; omega), hcarry]
    simp only [BitVec.toNat_ofNat, double]
    omega

/-- A double NaN as a single (R653). -/
theorem convert_nan_double (m : BitVec 2) (e : Bool) (h : double.isNan w = true) : double.convert single m e w =
    ⟨0#32 ++ bits w 63 1 ++ 0x1FF#9 ++ bits w 29 22, if double.isSnan w = true then excV else 0⟩ := by
  have hcarry := toNat_carryNan_double w
  have htop : w.getLsbD 51 = decide (w.toNat / 2 ^ 51 % 2 = 1) := getLsbD_eq_decide w 51
  have hsnan : double.isSnan w = !w.getLsbD 51 := Fmt.isSnan_eq h
  rw [Fmt.convert_nan h]
  congr 1
  refine BitVec.eq_of_toNat_eq ?_
  rw [toNat_append_eq, toNat_append_eq, toNat_append_eq, toNat_bits, toNat_bits, hsnan, htop]
  by_cases hq : w.toNat / 2 ^ 51 % 2 = 1
  · rw [decide_eq_true hq, Bool.not_true, if_neg Bool.false_ne_true, hcarry]
    simp only [BitVec.toNat_ofNat]
    omega
  · have hbit : (double.carryNan single w).getLsbD 22 = false := by
      rw [getLsbD_eq_decide, hcarry, decide_eq_false_iff_not]
      omega
    rw [decide_eq_false hq, Bool.not_false, if_pos rfl,
      Fmt.toNat_quieted hbit (by decide) (hcarry ▸ by simp only [single]; omega), hcarry]
    simp only [BitVec.toNat_ofNat, single]
    omega

end

end Sys2Proof.Machine
end

section
/-! The obligation of the conversions between the formats and from integers (47_fp_cmp_cvt.md R724 to R730). -/

namespace Sys2Proof.Machine

/-- Settles O33: the forms finish with the model's conversions, which round a number or an integer once and keep a NaN's
sign and high bits. -/
theorem fpConversions : Obligations.FpConversions := by
  rintro s fd fj _ _ _ hon rfl rfl rfl
  have hS {i : Instr} {o : FpOut} (h : exec i s = floating s (fpS s fd o)) := finishesS_of_fpS hon (.inl rfl) h
  have hD {i : Instr} {o : FpOut} (h : exec i s = floating s (fpD s fd o)) := finishesD_of_fpD hon (.inl rfl) h
  exact ⟨hS rfl, hD rfl, hS rfl, hS rfl, hD rfl, hD rfl, fun m e w i => ⟨single.convertsRight double m e w,
    double.convertsRight single m e w, single.ofInt_rounds m i, double.ofInt_rounds m i, convert_nan_single m e,
    convert_nan_double m e⟩⟩

end Sys2Proof.Machine
end

section
/-! SUPPORT. Numbers rounded to whole numbers (46_fp_arith.md R634, 47_fp_cmp_cvt.md R731 to R754). -/

namespace Sys2Proof.Machine

/-! ## The integer that a mode makes of a number -/

section
variable {rm : BitVec 2} {q : ℚ} {n k : Int}

/-- The four rounding modes. -/
theorem rm_cases (rm : BitVec 2) : rm = 0 ∨ rm = 1 ∨ rm = 2 ∨ rm = 3 := by
  revert rm
  decide

/-- Of two integers within a half of a number, both even where they are a half away, there is one. -/
theorem nearest_unique (hn : |q - n| ≤ 1 / 2) (hne : |q - n| = 1 / 2 → n % 2 = 0) (hk : |q - k| ≤ 1 / 2)
    (hke : |q - k| = 1 / 2 → k % 2 = 0) : n = k := by
  wlog hle : n ≤ k generalizing n k
  · exact (this hk hke hn hne (not_le.1 hle).le).symm
  obtain ⟨-, hqn⟩ := abs_le.1 hn
  obtain ⟨hqk, -⟩ := abs_le.1 hk
  have hnear : k ≤ n + 1 := by
    have : (k : ℚ) ≤ ((n + 1 : Int) : ℚ) := by
      push_cast
      linarith
    exact_mod_cast this
  rcases eq_or_lt_of_le hle with h | h
  · exact h
  · obtain rfl : k = n + 1 := by omega
    push_cast at hqk hke
    have hmid : q = n + 1 / 2 := by linarith
    have hneven := hne (by rw [hmid]; norm_num)
    have hkeven := hke (by rw [hmid]; norm_num)
    omega

/-- A mode makes one integer of a number. -/
theorem RoundedInt.unique (hn : RoundedInt rm q n) (hk : RoundedInt rm q k) : n = k := by
  obtain ⟨hn0, hn1, hn2, hn3⟩ := hn
  obtain ⟨hk0, hk1, hk2, hk3⟩ := hk
  rcases rm_cases rm with h | h | h | h
  · exact nearest_unique (hn0 h).1 (hn0 h).2 (hk0 h).1 (hk0 h).2
  · exact (hn1 h).trans (hk1 h).symm
  · exact (hn2 h).trans (hk2 h).symm
  · exact (hn3 h).trans (hk3 h).symm

/-- A whole number is its own rounding. -/
theorem roundedInt_self (rm : BitVec 2) (n : Int) : RoundedInt rm n n := by
  refine ⟨fun _ => ?_, fun _ => ?_, fun _ => (Int.ceil_intCast n).symm, fun _ => (Int.floor_intCast n).symm⟩
  · rw [sub_self, abs_zero]
    norm_num
  · rw [Int.ceil_intCast, Int.floor_intCast, ite_self]

end

/-! ## The units that a mode keeps, as a rounded number -/

section
variable {rm : BitVec 2} {neg : Bool} {k r d : Nat} {f : ℚ}

/-- The exact integer of a sign and a magnitude. -/
theorem Exact.rat_whole (neg : Bool) (k : Nat) : Exact.rat ⟨neg, k, 0⟩ = Exact.signed ⟨neg, k, 0⟩ := by
  rw [rat_eq, zpow_zero, mul_one]

/-- A number of the magnitude `k + f`: its floor and its ceiling. -/
theorem floor_ceil_of_frac (h0 : 0 ≤ f) (h1 : f < 1) :
    ⌊(k + f : ℚ)⌋ = k ∧ ⌈(k + f : ℚ)⌉ = k + if f = 0 then 0 else 1 := by
  constructor
  · rw [Int.floor_eq_iff]
    push_cast
    exact ⟨by linarith, by linarith⟩
  · rw [Int.ceil_eq_iff]
    split
    · push_cast
      exact ⟨by linarith, by linarith⟩
    · rename_i hf
      have := lt_of_le_of_ne h0 (Ne.symm hf)
      push_cast
      exact ⟨by linarith, by linarith⟩

/-- The nearest of the units around `k + f`, the even one where they are equally near. -/
theorem nearest_units (h0 : 0 ≤ f) (h1 : f < 1) {u : Nat}
    (hu : (1 / 2 < f ∨ f = 1 / 2 ∧ k % 2 = 1) ∧ u = 1 ∨ ¬(1 / 2 < f ∨ f = 1 / 2 ∧ k % 2 = 1) ∧ u = 0) :
    |f - u| ≤ 1 / 2 ∧ (|f - u| = 1 / 2 → (k + u) % 2 = 0) := by
  rcases hu with ⟨hup, rfl⟩ | ⟨hup, rfl⟩
  · rw [Nat.cast_one, abs_of_neg (by linarith)]
    rcases hup with hup | ⟨hup, hodd⟩
    · exact ⟨by linarith, fun h => absurd h (by linarith)⟩
    · exact ⟨by linarith, fun _ => by omega⟩
  · rw [not_or, not_lt] at hup
    obtain ⟨hle, hmid⟩ := hup
    rw [Nat.cast_zero, sub_zero, abs_of_nonneg h0]
    refine ⟨hle, fun h => ?_⟩
    have heven : ¬k % 2 = 1 := fun hodd => hmid ⟨h, hodd⟩
    omega

section
variable (hr : r < 2 ^ d) (hf : f = r / 2 ^ d)
include hr hf

/-- What is left over, as a fraction of the unit. -/
theorem frac_bounds : 0 ≤ f ∧ f < 1 := by
  have hd : (0 : ℚ) < 2 ^ d := by positivity
  have hlt : (r : ℚ) < 2 ^ d := by exact_mod_cast hr
  rw [hf]
  exact ⟨by positivity, (div_lt_one hd).2 hlt⟩

omit hr in
theorem frac_eq_zero : f = 0 ↔ r = 0 := by
  have hd : (2 : ℚ) ^ d ≠ 0 := by positivity
  rw [hf, div_eq_zero_iff, or_iff_left hd, Nat.cast_eq_zero]

omit hr in
/-- Whether the nearest units are those above, said of the fraction. -/
theorem roundsUp_nearest_frac : roundsUp 0 neg k r d = true ↔ 1 / 2 < f ∨ f = 1 / 2 ∧ k % 2 = 1 := by
  have hd : (0 : ℚ) < 2 ^ d := by positivity
  have hlt : 1 / 2 < f ↔ 2 ^ d < 2 * r := by
    rw [hf, lt_div_iff₀ hd, ← @Nat.cast_lt ℚ]
    push_cast
    constructor <;> intro h <;> linarith
  have heq : f = 1 / 2 ↔ 2 * r = 2 ^ d := by
    rw [hf, div_eq_iff hd.ne', ← @Nat.cast_inj ℚ]
    push_cast
    constructor <;> intro h <;> linarith
  rw [roundsUp_nearest, hlt, heq]

/-- The units that go up, in a mode away from zero. -/
theorem up_of_away (h : (rm = 2 ∧ neg = false) ∨ (rm = 3 ∧ neg = true)) {u : Nat}
    (hu : roundsUp rm neg k r d = true ∧ u = 1 ∨ roundsUp rm neg k r d = false ∧ u = 0) :
    ⌈(k + f : ℚ)⌉ = (k + u : Nat) := by
  rw [← Bool.not_eq_true, roundsUp_away h, Ne, ← frac_eq_zero hf] at hu
  obtain ⟨h0, h1⟩ := frac_bounds hr hf
  rw [(floor_ceil_of_frac h0 h1).2, Nat.cast_add]
  rcases hu with ⟨hup, rfl⟩ | ⟨hup, rfl⟩
  · rw [if_neg hup]
    rfl
  · rw [if_pos (not_not.1 hup)]
    rfl

/-- The units that stay, in a mode toward zero. -/
theorem up_of_toward_zero (h : rm = 1 ∨ (rm = 2 ∧ neg = true) ∨ (rm = 3 ∧ neg = false)) {u : Nat}
    (hu : roundsUp rm neg k r d = true ∧ u = 1 ∨ roundsUp rm neg k r d = false ∧ u = 0) :
    ⌊(k + f : ℚ)⌋ = (k + u : Nat) := by
  obtain ⟨h0, h1⟩ := frac_bounds hr hf
  rw [roundsUp_toward_zero h] at hu
  obtain ⟨hup, -⟩ | ⟨-, rfl⟩ := hu
  · cases hup
  · exact (floor_ceil_of_frac h0 h1).1

/-- The units kept and rounded up, of a number above them by the fraction `f`, are the integer that the mode makes. -/
theorem roundedInt_units {u : Nat} (hu : roundsUp rm neg k r d = true ∧ u = 1 ∨ roundsUp rm neg k r d = false ∧ u = 0) :
    RoundedInt rm (if neg then -(k + f) else k + f) (Exact.signed ⟨neg, k + u, 0⟩) := by
  obtain ⟨h0, h1⟩ := frac_bounds hr hf
  have hmag : (0 : ℚ) ≤ k + f := add_nonneg (Nat.cast_nonneg k) h0
  cases neg with
  | false =>
    change RoundedInt rm (k + f) ((k + u : Nat) : Int)
    refine ⟨?_, ?_, ?_, ?_⟩
    · rintro rfl
      rw [← Bool.not_eq_true, roundsUp_nearest_frac hf] at hu
      obtain ⟨hnear, htie⟩ := nearest_units h0 h1 hu
      have hdist : (k + f : ℚ) - ((k + u : Nat) : Int) = f - u := by
        push_cast
        ring
      rw [hdist]
      exact ⟨hnear, fun h => by have := htie h; omega⟩
    · rintro rfl
      rw [if_neg hmag.not_gt]
      exact (up_of_toward_zero hr hf (.inl rfl) hu).symm
    · rintro rfl
      exact (up_of_away hr hf (.inl ⟨rfl, rfl⟩) hu).symm
    · rintro rfl
      exact (up_of_toward_zero hr hf (.inr (.inr ⟨rfl, rfl⟩)) hu).symm
  | true =>
    change RoundedInt rm (-(k + f)) (-((k + u : Nat) : Int))
    refine ⟨?_, ?_, ?_, ?_⟩
    · rintro rfl
      rw [← Bool.not_eq_true, roundsUp_nearest_frac hf] at hu
      obtain ⟨hnear, htie⟩ := nearest_units h0 h1 hu
      have hdist : -(k + f : ℚ) - (-((k + u : Nat) : Int) : Int) = -(f - u) := by
        push_cast
        ring
      rw [hdist, abs_neg]
      exact ⟨hnear, fun h => by have := htie h; omega⟩
    · rintro rfl
      rw [← up_of_toward_zero hr hf (.inl rfl) hu]
      split
      · rw [Int.ceil_neg]
      · rename_i hneg
        have hzero : (k + f : ℚ) = 0 := le_antisymm (by linarith) hmag
        rw [hzero, neg_zero, Int.floor_zero, neg_zero]
    · rintro rfl
      rw [Int.ceil_neg, up_of_toward_zero hr hf (.inr (.inl ⟨rfl, rfl⟩)) hu]
    · rintro rfl
      rw [Int.floor_neg, up_of_away hr hf (.inr ⟨rfl, rfl⟩) hu]

/-- A number with a fraction is no integer. -/
theorem ne_whole_of_frac (h : r ≠ 0) (n : Int) : (if neg then -(k + f) else k + f) ≠ (n : ℚ) := by
  obtain ⟨h0, h1⟩ := frac_bounds hr hf
  have hz : f ≠ 0 := (frac_eq_zero hf).not.2 h
  obtain ⟨hfloor, hceil⟩ := floor_ceil_of_frac (k := k) h0 h1
  rw [if_neg hz] at hceil
  have hne (i : Int) : (k + f : ℚ) ≠ i := by
    intro hi
    rw [hi, Int.floor_intCast] at hfloor
    rw [hi, Int.ceil_intCast] at hceil
    omega
  cases neg with
  | false => exact hne n
  | true => exact fun hn => hne (-n) (by rw [Int.cast_neg, ← hn]; exact (neg_neg _).symm)

end

end

/-! ## The whole number of a datum -/

section
variable {F : Fmt} {rm : BitVec 2} {ie pick : Bool} {any x : Word}

/-- The magnitude of an exact value, with its sign. -/
theorem Exact.rat_eq_ite (v : Exact) : v.rat = if v.neg then -((v.m : ℚ) * 2 ^ v.e) else (v.m : ℚ) * 2 ^ v.e := by
  rw [rat_eq, signed]
  split <;> push_cast <;> ring

/-- The whole units of a value are the integer that the mode makes of it, and inexact where they differ. -/
theorem Exact.roundedInt (v : Exact) (rm : BitVec 2) :
    RoundedInt rm v.rat (Exact.signed ⟨v.neg, (roundUnits rm v 0).1, 0⟩) ∧
      ((roundUnits rm v 0).2 = true ↔ v.rat ≠ Exact.signed ⟨v.neg, (roundUnits rm v 0).1, 0⟩) := by
  rcases le_or_gt 0 v.e with he | he
  · have hexact : v.rat = Exact.signed ⟨v.neg, v.m * 2 ^ (v.e - 0).toNat, 0⟩ := by
      rw [v.rat_scaled he, zpow_zero, mul_one]
      rfl
    rw [roundUnits_of_le rm he, hexact]
    exact ⟨roundedInt_self rm _, by simp⟩
  · obtain ⟨k, r, hm, hr, hx, hn⟩ := roundUnits_of_lt (Prod.mk.eta (p := roundUnits rm v 0)).symm he rfl
    set d := (0 - v.e).toNat with hd
    have hmag : (v.m : ℚ) * 2 ^ v.e = k + r / 2 ^ d := by
      have hpow : (2 : ℚ) ^ v.e = (2 ^ d)⁻¹ := by
        rw [← zpow_natCast, ← zpow_neg]
        congr 1
        omega
      have hne : (2 : ℚ) ^ d ≠ 0 := by positivity
      rw [hm, hpow]
      push_cast
      field_simp
    obtain ⟨u, hu, hku⟩ : ∃ u, (roundsUp rm v.neg k r d = true ∧ u = 1 ∨ roundsUp rm v.neg k r d = false ∧ u = 0) ∧
        (roundUnits rm v 0).1 = k + u :=
      hn.elim (fun h => ⟨1, .inl ⟨h.1, rfl⟩, h.2⟩) fun h => ⟨0, .inr ⟨h.1, rfl⟩, h.2⟩
    rw [v.rat_eq_ite, hmag, hku]
    refine ⟨roundedInt_units hr rfl hu, ?_⟩
    rw [← Bool.not_eq_false, hx]
    refine ⟨fun h0 => ne_whole_of_frac hr rfl h0 _, fun hne h0 => hne ?_⟩
    subst h0
    obtain ⟨hup, -⟩ | ⟨-, rfl⟩ := hu
    · rw [roundsUp_of_exact] at hup
      cases hup
    · simp only [Nat.cast_zero, zero_div, add_zero, Exact.signed]
      split <;> push_cast <;> rfl

/-- The whole number of a datum is the integer that the mode makes of it, and inexact where they differ. -/
theorem Fmt.whole_right (F : Fmt) (rm : BitVec 2) (x : Word) :
    RoundedInt rm (F.num x) (F.whole rm x).1 ∧ ((F.whole rm x).2 = true ↔ F.num x ≠ (F.whole rm x).1) := by
  have h := (F.value x).roundedInt rm
  rw [F.value_neg] at h
  exact h

/-- I where the result is inexact and that is recorded. -/
theorem inexactExc_eq {b : Bool} {p : Prop} (h : b = true ↔ p) [Decidable (p ∧ (ie = true ∨ pick = true))] :
    inexactExc b ie pick = if p ∧ (ie = true ∨ pick = true) then excI else 0 := by
  unfold inexactExc
  exact if_congr (by rw [Bool.and_eq_true, Bool.or_eq_true, h]) rfl rfl

/-- Conversion to an integer is as `ToSintRight` says (R731). -/
theorem Fmt.toSintRight (F : Fmt) (w : Nat) (rm : BitVec 2) (ie pick : Bool) (any x : Word) :
    F.ToSintRight w rm ie pick any x := by
  refine ⟨fun hf => ?_, fun hf n hn => ?_⟩
  · rw [toSint, hf]
    rfl
  · obtain ⟨hround, hexact⟩ := F.whole_right rm x
    obtain rfl := hn.unique hround
    rw [← inexactExc_eq hexact, toSint, hf]
    have hrange : (!true || decide ((F.whole rm x).1 < -(2 ^ (w - 1) : Nat)) ||
        decide ((2 ^ (w - 1) : Nat) ≤ (F.whole rm x).1)) = true ↔
        ¬(-2 ^ (w - 1) ≤ (F.whole rm x).1 ∧ (F.whole rm x).1 < 2 ^ (w - 1)) := by
      rw [not_and_or, not_le, not_lt]
      simp
    by_cases h : -2 ^ (w - 1) ≤ (F.whole rm x).1 ∧ (F.whole rm x).1 < 2 ^ (w - 1)
    · rw [if_pos h]
      exact if_neg (hrange.not.2 (not_not.2 h))
    · rw [if_neg h]
      exact if_pos (hrange.2 h)

/-! ## The rounded number as a datum (R752) -/

/-- A unit no larger than the zeros below a whole number cuts nothing off. -/
theorem roundUnits_whole (rm : BitVec 2) (neg : Bool) (m : Nat) {t : Nat} {q : Int} (h : q ≤ t) :
    roundUnits rm ⟨neg, m * 2 ^ t, 0⟩ q = (m * 2 ^ (t - q).toNat, false) := by
  rcases le_or_gt q 0 with hq | hq
  · rw [roundUnits_of_le rm hq, mul_assoc, ← pow_add]
    congr 3
    simp only
    omega
  · obtain ⟨d, rfl⟩ := Int.eq_ofNat_of_zero_le hq.le
    have hcut : m * 2 ^ t = m * 2 ^ (t - d) * 2 ^ d := by
      rw [mul_assoc, ← pow_add, Nat.sub_add_cancel (by omega)]
    have hd : ((d : Int) - 0).toNat = d := by omega
    have ht : ((t : Int) - d).toNat = t - d := by omega
    rw [roundUnits, if_neg (not_le.2 hq), hd, ht, hcut]
    simp only [Nat.mul_mod_left, Nat.mul_div_cancel _ (Nat.two_pow_pos d), roundsUp_of_exact]
    rfl

/-- A whole number of p bits at most above `t` zeros is packed as it is. -/
theorem Fmt.round_whole (neg : Bool) {m t : Nat} (h0 : m ≠ 0) (hm : m < 2 ^ (F.frac + 1))
    (ht : t + m.log2 ≤ F.bias) (hb : 0 < F.bias) :
    (F.round rm false ⟨neg, m * 2 ^ t, 0⟩).val =
      F.packUnits neg (m * 2 ^ (F.frac - m.log2)) (t + m.log2 - F.frac) := by
  obtain ⟨hle, hlo, hhi⟩ := log2_leading h0 hm
  have hlog : (m * 2 ^ t).log2 = t + m.log2 := by
    refine (Nat.log2_eq_iff (Nat.mul_ne_zero h0 (Nat.two_pow_pos t).ne')).2 ⟨?_, ?_⟩
    · rw [Nat.add_comm, Nat.pow_add]
      exact Nat.mul_le_mul_right _ (Nat.log2_self_le h0)
    · rw [Nat.add_assoc, Nat.add_comm, Nat.pow_add]
      exact Nat.mul_lt_mul_of_pos_right Nat.lt_log2_self (Nat.two_pow_pos t)
  have hn : (m * 2 ^ (F.frac - m.log2)).log2 = F.frac :=
    (Nat.log2_eq_iff (by have := Nat.two_pow_pos F.frac; omega)).2 ⟨hlo, hhi⟩
  have hunits : roundUnits rm ⟨neg, m * 2 ^ t, 0⟩ (t + m.log2 - F.frac) = (m * 2 ^ (F.frac - m.log2), false) := by
    rw [roundUnits_whole rm neg m (by omega)]
    congr 3
    omega
  have hmin : F.emin = 1 - F.bias := rfl
  rw [round, if_neg (Nat.mul_ne_zero h0 (Nat.two_pow_pos t).ne')]
  simp only [hlog, zero_add, Nat.cast_add, hunits, hn, sub_add_cancel]
  rw [if_neg (by omega), if_neg (by omega)]

/-- The datum of a whole number of few bits: it is finite, that number, and of its sign. -/
theorem Fmt.Fits.round_whole_right (h : F.Fits) (rm : BitVec 2) (neg : Bool) {m t : Nat}
    (hm : m < 2 ^ (F.frac + 1)) (ht : m ≠ 0 → t + m.log2 ≤ F.bias) :
    F.isFinite (F.round rm false ⟨neg, m * 2 ^ t, 0⟩).val = true ∧
      F.num (F.round rm false ⟨neg, m * 2 ^ t, 0⟩).val = Exact.signed ⟨neg, m * 2 ^ t, 0⟩ ∧
      F.sign (F.round rm false ⟨neg, m * 2 ^ t, 0⟩).val = neg := by
  by_cases h0 : m = 0
  · subst h0
    have hround : (F.round rm false ⟨neg, 0 * 2 ^ t, 0⟩).val = F.pack neg 0 := by
      rw [round, if_pos (Nat.zero_mul _)]
      rfl
    have hz : F.isZero (F.pack neg 0) = true := beq_iff_eq.2 (h.mag_pack neg (Nat.two_pow_pos _))
    rw [hround]
    refine ⟨h.isFinite_of_isZero hz, ?_, h.sign_pack neg (Nat.two_pow_pos _)⟩
    rw [(F.num_eq_zero _).2 hz]
    cases neg <;> simp [Exact.signed]
  · have hbias := h.bias_ge
    have hq : F.qmin = 1 - F.bias - F.frac := rfl
    have hmax := ht h0
    obtain ⟨hle, hlo, hhi⟩ := log2_leading h0 hm
    obtain ⟨hfin, hval⟩ := h.value_packUnits neg hlo hhi (q := t + m.log2 - F.frac) (by omega) (by omega)
    rw [round_whole neg h0 hm hmax (by omega)]
    refine ⟨hfin, ?_, by rw [← F.value_neg, hval]⟩
    have hwhole : Exact.rat ⟨neg, m, t⟩ = Exact.signed ⟨neg, m * 2 ^ t, 0⟩ := by
      rw [Exact.rat_scaled ⟨neg, m, t⟩ (Int.natCast_nonneg t), zpow_zero, mul_one]
      rfl
    have hscaled := Exact.rat_scaled ⟨neg, m, t⟩ (e := t + m.log2 - F.frac) (by simp only; omega)
    rw [show ((t : Int) - (t + m.log2 - F.frac)).toNat = F.frac - m.log2 by omega] at hscaled
    rw [num, hval, ← hwhole, hscaled, Exact.rat_eq]
    rfl

/-- The whole units of a datum are few bits above zeros, within the exponents of the format. -/
theorem Fmt.Fits.roundUnits_short (h : F.Fits) (hfrac : F.frac ≤ F.bias) (rm : BitVec 2) (hf : F.isFinite x = true) :
    ∃ m t, (roundUnits rm (F.value x) 0).1 = m * 2 ^ t ∧ m < 2 ^ (F.frac + 1) ∧ (m ≠ 0 → t + m.log2 ≤ F.bias) := by
  obtain ⟨hlt, -, -⟩ := F.value_bounds x
  have hmax := h.value_le hf
  rcases le_or_gt 0 (F.value x).e with he | he
  · refine ⟨(F.value x).m, ((F.value x).e - 0).toNat, ?_, hlt, fun h0 => ?_⟩
    · rw [roundUnits_of_le rm he]
    · have := (log2_leading h0 hlt).1
      omega
  · obtain ⟨k, r, hm, -, -, hn⟩ := roundUnits_of_lt (Prod.mk.eta (p := roundUnits rm (F.value x) 0)).symm he rfl
    have hp := Nat.pow_succ 2 F.frac
    have hpos := Nat.two_pow_pos F.frac
    have hkeep : k * 2 ≤ (F.value x).m := by
      have htwo : 2 ≤ 2 ^ (0 - (F.value x).e).toNat := Nat.le_self_pow (by omega) 2
      exact hm ▸ (Nat.mul_le_mul_left k htwo).trans (Nat.le_add_right _ r)
    have hfew : (roundUnits rm (F.value x) 0).1 < 2 ^ (F.frac + 1) := by
      rcases hn with ⟨-, hn⟩ | ⟨-, hn⟩ <;> omega
    refine ⟨_, 0, (Nat.mul_one _).symm, hfew, fun h0 => ?_⟩
    have := (log2_leading h0 hfew).1
    omega

/-- Conversion to a number that is an integer is as `ToIntegralRight` says (R752). -/
theorem Fmt.Fits.toIntegralRight (h : F.Fits) (hfrac : F.frac ≤ F.bias) (rm : BitVec 2) (ie pick : Bool) (x : Word) :
    F.ToIntegralRight rm ie pick x := by
  refine ⟨F.orNan_passes _ _, fun hi => ?_, fun hf n hn => ?_⟩
  · rw [toIntegral, orNan_one (isNan_of_isInf hi), if_pos hi]
    rfl
  · obtain ⟨hinf, hnan, -⟩ := of_isFinite hf
    obtain ⟨hround, hexact⟩ := F.whole_right rm x
    obtain rfl := hn.unique hround
    obtain ⟨m, t, hunits, hm, ht⟩ := h.roundUnits_short hfrac rm hf
    obtain ⟨hfin, hnum, hsign⟩ := h.round_whole_right rm (F.sign x) hm ht
    rw [← inexactExc_eq hexact, toIntegral, orNan_one hnan, hinf, if_neg Bool.false_ne_true, whole]
    simp only [hunits]
    exact ⟨hfin, hnum, hsign, trivial⟩

theorem Fmt.frac_le_bias (h : F ∈ [single, double]) : F.frac ≤ F.bias := by
  simp only [List.mem_cons, List.not_mem_nil, or_false] at h
  rcases h with rfl | rfl <;> decide

end

/-- Enables.I is bit 0 of fcsr0 (R29). -/
theorem State.fpIe_eq (s : State) : s.fpIe = s.fcsr0.getLsbD 0 := by
  rw [State.fpIe, State.fpEnables, getLsbD_bits]
  rfl

end Sys2Proof.Machine
end

section
/-! The obligation of the conversions to integers (47_fp_cmp_cvt.md R731 to R754). -/

namespace Sys2Proof.Machine

/-- Settles O34: the forms finish with the model's conversions, whose whole number is the one integer that the mode makes
of the operand, and a datum where it is rounded to one. -/
theorem fpToInteger : Obligations.FpToInteger := by
  rintro s fd fj _ hon rfl
  have hS {i : Instr} {o : FpOut} (h : exec i s = floating s (fpS s.drawn fd o)) := finishesS_of_fpS hon (.inr rfl) h
  have hD {i : Instr} {o : FpOut} (h : exec i s = floating s (fpD s.drawn fd o)) := finishesD_of_fpD hon (.inr rfl) h
  rw [← s.fpIe_eq]
  refine ⟨⟨s.pick, s.free, ?_⟩, ⟨s.pick, hS rfl, hD rfl⟩, fun F hF m ie p any w => ⟨F.toSintRight 32 m ie p any w,
    F.toSintRight 64 m ie p any w, (Fmt.fits_of_mem hF).toIntegralRight (Fmt.frac_le_bias hF) m ie p w⟩⟩
  simp only [List.forall_mem_cons]
  exact ⟨⟨hS rfl, hS rfl, hD rfl, hD rfl⟩, ⟨hS rfl, hS rfl, hD rfl, hD rfl⟩, ⟨hS rfl, hS rfl, hD rfl, hD rfl⟩,
    ⟨hS rfl, hS rfl, hD rfl, hD rfl⟩, ⟨hS rfl, hS rfl, hD rfl, hD rfl⟩, List.forall_mem_nil _⟩

end Sys2Proof.Machine
end
